-- ==== Sys2Proof/Word.lean ====
section
/-! DEFINITION. The words of the network: bytes, Ethernet addresses and the 16-bit codes of the
floor-frame header (12_message_and_record_formats.md, R202). -/

namespace Sys2Proof

/-- One byte of a frame's data or of the stored image. -/
abbrev Byte := BitVec 8

/-- A 48-bit Ethernet address (R36, R173). -/
abbrev Mac := BitVec 48

/-- A two-byte code of the network: an Ethernet type or a floor-message kind (R202). -/
abbrev Code16 := BitVec 16

/-- A set of sites, or of tester capabilities, 0 to 15, as the bit mask the network carries (R203). -/
abbrev Mask16 := BitVec 16

/-- A set of cells 0 to 47 as the bit mask the network carries (R203). -/
abbrev CellMask := BitVec 48

/-- A set of temperatures: bit 0 COLD, bit 1 ROOM, bit 2 HOT (R203). -/
abbrev TempMask := BitVec 3

end Sys2Proof
end

