-- ==== Sys2Proof/Syntax.lean ====
section
/-! DEFINITION. The commands of the part: one constructor for each row of spec/opcode_table.json, with
the operands the row's rule gives it. A frame command carries the frame as it arrives on a port:
addresses, header fields and the bytes of its body; the kind and the port are the row's own. -/

namespace Sys2Proof

/-- The two Ethernet ports (R170). -/
inductive Port where
  | floor
  | plant
  deriving DecidableEq, Repr

/-- A level of a discrete input, and the two values of the inhibit active level (R27 entry 10, R195). -/
inductive Level where
  | high
  | low
  deriving DecidableEq, Repr

/-- The destination field of a floor-frame header (R164, R202). -/
inductive Dest where
  | part
  | plant
  | cell
  deriving DecidableEq, Repr

/-- A floor frame with a readable header, less its type and kind: the type is the floor frame type in
force when it arrives (R163), the kind is the command's row (or a further operand). `body` is the body
of the header's body length and `pad` the data beyond it (R164, R202). -/
structure Msg where
  dst    : Mac
  src    : Mac
  dest   : Dest
  cell   : Byte
  handle : BitVec 16
  inst   : Byte
  step   : Byte
  body   : List Byte
  pad    : List Byte
  deriving DecidableEq, Repr

/-- A frame as it arrives, unread: addresses, type and data (R163, R164). -/
structure RawFrame where
  dst   : Mac
  src   : Mac
  etype : Code16
  data  : List Byte
  deriving DecidableEq, Repr

/-- The seven timers of a cell (R58). -/
inductive CellTimer where
  | silence
  | load
  | kit
  | soak
  | start
  | stop
  | jam
  deriving DecidableEq, Repr

/-- The moment within one second event at which the floor counters take their samples. R194 leaves the
order of the blocks open, so the order is an operand of the event: before the calibration lapses
are judged, after them but before the dispatch pass they start, or after the pass. -/
inductive SampleMoment where
  | first
  | afterLapse
  | last
  deriving DecidableEq, Repr

/-- How the floor counters sample a second event: at what moment, and which of its timer expiries are taken, in their
order, just before the samples; every other expiry stays the command of its own row (R194). -/
structure Sampling where
  moment : SampleMoment
  taken  : List (Fin 48 × CellTimer)
  deriving DecidableEq, Repr

/-- The commands and events of the part, in the order of spec/opcode_table.json. -/
inductive Instr where
  | hardReset
  | resetRelease
  | imageLoadComplete
  | flashTimeout
  | secondEvent (sampling : Sampling)
  | silenceTimeout (c : Fin 48)
  | loadTimeout (c : Fin 48)
  | kitTimeout (c : Fin 48)
  | soakTimeout (c : Fin 48)
  | startTimeout (c : Fin 48)
  | stopTimeout (c : Fin 48)
  | jamTimeout (c : Fin 48)
  | inhibitChange (level : Level)
  | portLinkChange (port : Port) (up : Bool)
  | queueSend (port : Port)
  | foreignFrame (port : Port) (frame : RawFrame)
  | headerUnreadable (port : Port) (frame : RawFrame)
  | floorForwardOnly (kind : Code16) (m : Msg)
  | plantFrameToCell (kind : Code16) (m : Msg)
  | plantFrameToPlant (kind : Code16) (m : Msg)
  | nonRequestToPart (kind : Code16) (m : Msg)
  | status (m : Msg)
  | loadDone (m : Msg)
  | runStarted (m : Msg)
  | passEnd (m : Msg)
  | runStopped (m : Msg)
  | bin (m : Msg)
  | binCompact (m : Msg)
  | lotOrder (m : Msg)
  | sweep (m : Msg)
  | tableWriteActive (m : Msg)
  | tableWriteStored (m : Msg)
  | storePhaseEnd
  | storedWriteComplete (agrees : Bool)
  | tableReadActive (m : Msg)
  | tableReadStored (m : Msg)
  | storedReadComplete
  | hold (m : Msg)
  | releaseContinue (m : Msg)
  | releaseRework (m : Msg)
  | releaseScrap (m : Msg)
  | groupHold (m : Msg)
  | groupRelease (m : Msg)
  | groupRetire (m : Msg)
  | shipConfirm (m : Msg)
  | queryLot (m : Msg)
  | queryCell (m : Msg)
  | queryQueue (m : Msg)
  | queryShip (m : Msg)
  | queryCounters (m : Msg)
  | queryPart (m : Msg)
  | time (m : Msg)
  | restart (m : Msg)
  | imageRereadComplete
  deriving DecidableEq, Repr

end Sys2Proof
end

