-- ==== Sys2Proof/Machine/State.lean ====
section
/-! DEFINITION. The state of the part as plain data, one structure for each block that owns state
(00_scope.md section 2), the reasons a step can stop, and the state after reset. -/

namespace Sys2Proof.Machine

/-! ### Named values of the tables -/

/-- Kind of a route step (R22). -/
inductive StepKind where
  | test
  | sample
  deriving DecidableEq, Repr

/-- Temperatures, in code order (R22, R203). -/
inductive Temp where
  | cold
  | room
  | hot
  deriving DecidableEq, Repr

/-- Passes of a step (R2). -/
inductive Pass where
  | first
  | retest
  deriving DecidableEq, Repr

/-- Classes a bin map gives (R25). -/
inductive BinClass where
  | pass
  | fail
  | retestable
  deriving DecidableEq, Repr

/-- Lot states of a live lot; a FREE slot holds no lot (R2, R3). -/
inductive LotState where
  | waiting
  | assigned
  | running
  | preempted
  | held
  | complete
  | released
  deriving DecidableEq, Repr

/-- States of a group directory entry (R4). -/
inductive GroupState where
  | unbound
  | opened
  | held
  | retired
  deriving DecidableEq, Repr

/-- Cell states (R39). -/
inductive CellState where
  | offline
  | idle
  | setup
  | starting
  | running
  | paused
  | stopping
  | fault
  deriving DecidableEq, Repr

/-- Fault causes of a cell (R45). -/
inductive FaultCause where
  | setupTimeout
  | loadFailed
  | startTimeout
  | stopTimeout
  | unownedRun
  deriving DecidableEq, Repr

/-- Handler states a STATUS reports (R41). -/
inductive Handler where
  | running
  | jammed
  | idle
  deriving DecidableEq, Repr

/-- Reasons of a STOP_RUN: the stop reasons of R38 and UNOWNED (R45). -/
inductive StopReason where
  | hold
  | preempt
  | calibration
  | jamTimeout
  | quantity
  | unowned
  deriving DecidableEq, Repr

/-- Causes with which a segment closes (R95, R97). -/
inductive CloseCause where
  | stepEnd
  | calibration
  | jamTimeout
  | hold
  | detached
  | fault
  deriving DecidableEq, Repr

/-- Hold reasons, in code order (R129, R197). -/
inductive HoldReason where
  | guard
  | site
  | equipment
  | quantity
  | engineering
  | family
  | interrupted
  deriving DecidableEq, Repr

/-- Saved return targets (R132). -/
inductive Target where
  | resume
  | advance
  | complete
  deriving DecidableEq, Repr

/-- Check kinds, each with its bin or site number where it has one (R107, R197). -/
inductive Trip where
  | yieldLow
  | binHigh (b : Nat)
  | windowLow
  | binMismatch
  | siteSkew (site : Nat)
  | siteRun (site : Nat)
  | finalLow
  | lostHigh
  | retestExcess
  | releaseLow
  deriving DecidableEq, Repr

/-- Who placed a hold entry first (R130). -/
inductive PlacedBy where
  | ygd
  | cell (c : Nat)
  | plant
  deriving DecidableEq, Repr

/-- Dispositions of a RELEASE (R140). -/
inductive Disposition where
  | continue_
  | rework
  | scrap
  deriving DecidableEq, Repr

/-- Outcomes of bin records and drop reasons of run events (R204). -/
inductive Drop where
  | counted
  | malformed
  | unknownCell
  | unknownGroup
  | unknownLot
  | stale
  | notRunning
  | wrongStep
  | wrongPass
  | siteDisabled
  | overcount
  | noContext
  | afterStreamEnd
  | unexpected
  | unsolicited
  deriving DecidableEq, Repr

/-- Reply codes (R173, R205). -/
inductive ReplyCode where
  | ok
  | malformed
  | safeMode
  | unknownGroup
  | unknownLot
  | stale
  | groupRetired
  | groupFull
  | badRoute
  | badTable
  | badEntry
  | inUse
  | busy
  | notHeld
  | familyLocked
  | badDisposition
  | lotReleased
  | notReleased
  | storeFailed
  | badQuantity
  deriving DecidableEq, Repr

/-- Part modes (R185). -/
inductive Mode where
  | starting
  | normal
  | safe
  deriving DecidableEq, Repr

/-- The image check result (R184). -/
inductive CheckResult where
  | valid
  | invalid
  deriving DecidableEq, Repr

/-- Causes of STORED_IMAGE_BAD (R186). -/
inductive BadCause where
  | blank
  | format
  | check
  | noResponse
  deriving DecidableEq, Repr

/-- Start kinds of PART_STARTED (R186, R191). -/
inductive StartKind where
  | hard
  | soft
  deriving DecidableEq, Repr

/-- Event sources of the floor counters, in code order (R197). -/
inductive EventSource where
  | binCounted
  | binDropped
  | holdPlaced
  | holdReleased
  | guardTrip
  | siteDemoted
  | lotReleased
  | paired
  | preempted
  | portDrop
  deriving DecidableEq, Repr

/-- Occupancy sources of the floor counters, in code order (R199). -/
inductive OccSource where
  | cellsRunning
  | cellsSetup
  | cellsFault
  | lotsWaiting
  | lotsHeld
  | shipDepth
  deriving DecidableEq, Repr

/-- The sixteen counter sources (R196). -/
inductive Source where
  | event (e : EventSource)
  | occupancy (o : OccSource)
  deriving DecidableEq, Repr

/-- Counter modes (R196). -/
inductive CounterMode where
  | event
  | level
  | edge
  | accumulate
  deriving DecidableEq, Repr

/-! ### The active tables (TST) -/

/-- The eleven settings (R27). -/
structure Settings where
  frameType : Code16
  mgmtAddr  : Mac
  silence   : Nat
  load      : Nat
  kit       : Nat
  soak      : Nat
  start     : Nat
  stop      : Nat
  jam       : Nat
  calMargin : Nat
  inhibit   : Level
  deriving DecidableEq, Repr

/-- A group directory entry (R4). -/
structure GroupEntry where
  state         : GroupState
  family        : Nat
  authority     : CellMask
  retirePending : Bool
  deriving DecidableEq, Repr

/-- One step of a route (R22). -/
structure RouteStep where
  kind    : StepKind
  temp    : Temp
  program : Nat
  kit     : Nat
  binMap  : Nat
  profile : Nat
  retest  : Bool
  sample  : Option Nat
  deriving DecidableEq, Repr

/-- A route entry; its step count is the length of the list (R22). -/
structure Route where
  releaseFloor : Nat
  steps        : List RouteStep
  deriving DecidableEq, Repr

/-- Program number, revision and image check value, as ordered or as a cell reports them (R24, R41). -/
structure ProgVals where
  number : Nat
  rev    : Nat
  check  : Nat
  deriving DecidableEq, Repr

/-- A program entry (R24). -/
structure Program where
  vals      : ProgVals
  caps      : Mask16
  indexTime : Nat
  deriving DecidableEq, Repr

/-- One range of a bin map (R25). -/
structure BinRange where
  low  : Nat
  high : Nat
  hard : Nat
  cls  : BinClass
  deriving DecidableEq, Repr

/-- A guard profile entry (R113). -/
structure Profile where
  minSample     : Nat
  yieldFloor    : Nat
  ceilings      : Vector Nat 16
  window        : Nat
  windowFloor   : Nat
  skewLimit     : Nat
  skewMin       : Nat
  consecLimit   : Nat
  minSites      : Nat
  finalFloor    : Nat
  lostAllow     : Nat
  mismatchLimit : Nat
  deriving DecidableEq, Repr

/-- A cell registration entry whose registered flag is yes (R36). -/
structure Registration where
  addr      : Mac
  siteCount : Nat
  caps      : Mask16
  temps     : TempMask
  deriving DecidableEq, Repr

/-- A pinning entry (R62). -/
structure Pin where
  group     : Nat
  cell      : Nat
  exclusive : Bool
  deriving DecidableEq, Repr

/-- A counter configuration entry (R196). -/
structure CounterCfg where
  source    : Source
  mode      : CounterMode
  threshold : Nat
  invert    : Bool
  deriving DecidableEq, Repr

/-- The contents of one table entry that is not empty, as a TABLE_WRITE carries them (R174). -/
inductive Entry where
  | setting (v : Nat)
  | group (family : Nat) (authority : CellMask)
  | route (r : Route)
  | program (p : Program)
  | binMap (m : List BinRange)
  | profile (p : Profile)
  | registration (r : Registration)
  | pin (p : Pin)
  | counter (c : CounterCfg)
  deriving DecidableEq, Repr

/-- The nine active tables (R21); `none` is an empty entry. -/
structure Tables where
  settings : Settings
  groups   : Vector GroupEntry 32
  routes   : Vector (Option Route) 16
  programs : Vector (Option Program) 64
  binMaps  : Vector (Option (List BinRange)) 16
  profiles : Vector (Option Profile) 16
  regs     : Vector (Option Registration) 48
  pins     : Vector (Option Pin) 4
  counters : Vector (Option CounterCfg) 8
  deriving DecidableEq, Repr

/-! ### Lots (LDR, with the fields YGD, HLD and RLU keep in the slot) -/

/-- First-pass statistics of one site within a segment: T, G, C and F of R109. -/
structure SiteStat where
  tested : Nat
  good   : Nat
  consec : Nat
  frozen : Nat
  deriving DecidableEq, Repr

/-- Current-step accumulators (R107). `winPass` is the window's PASS count (R112). -/
structure Acc where
  entering    : Nat
  unitsIn     : Nat
  tested1     : Nat
  good1       : Nat
  retestable1 : Nat
  tested2     : Nat
  good2       : Nat
  hardBins    : Vector Nat 16
  mismatch    : Nat
  unmapped    : Nat
  sites       : Vector SiteStat 16
  window      : List BinClass
  winPass     : Nat
  trips       : List Trip
  waived      : List Trip
  retestUsed  : Bool
  qtyMark     : Bool
  fed1        : Option Nat
  fed2        : Option Nat
  deriving DecidableEq, Repr

/-- A segment: one run's stay on one cell within a step (R95). `closed` holds tested1 at close and the
close cause, and is absent while the segment is open. -/
structure Segment where
  cell   : Nat
  number : Nat
  rev    : Nat
  openAt : Nat
  closed : Option (Nat × CloseCause)
  deriving DecidableEq, Repr

/-- A closed step summary (R121). -/
structure Summary where
  step        : Nat
  kind        : StepKind
  temp        : Temp
  entering    : Nat
  unitsIn     : Nat
  tested1     : Nat
  good1       : Nat
  retestable1 : Nat
  tested2     : Nat
  good2       : Nat
  carried     : Nat
  retestUsed  : Bool
  segments    : List Segment
  trips       : List Trip
  waived      : Bool
  reconciled  : Bool
  deriving DecidableEq, Repr

/-- A hold entry (R130). -/
structure HoldEntry where
  reason   : HoldReason
  placed   : Nat
  placedBy : PlacedBy
  trips    : List Trip
  repeats  : Nat
  note     : Option Nat
  deriving DecidableEq, Repr

/-- The record of a live lot (R2), less its slot's own number. -/
structure Lot where
  state      : LotState
  name       : List Byte
  route      : Nat
  cls        : Nat
  qty        : Nat
  note       : Option Nat
  step       : Nat
  pass       : Pass
  summaries  : List Summary
  acc        : Acc
  segments   : List Segment
  holds      : List HoldEntry
  target     : Option Target
  setupFails : Nat
  reworked   : Vector Bool 6
  arrival    : Nat
  mark       : Bool
  completion : Option Nat
  relPending : Bool
  deriving DecidableEq, Repr

/-- A lot slot: its number `inst`, which it keeps while FREE, and the lot in it, `none` while FREE (R2,
R9). -/
structure Slot where
  inst : Nat
  lot  : Option Lot
  deriving DecidableEq, Repr

/-- The lot directory: the slots and the use count of each route (R2, R15). -/
structure Ldr where
  slots    : Vector Slot 512
  useCount : Vector Nat 16
  deriving DecidableEq, Repr

/-! ### Cells (CTR, with the outstanding load order DAR keeps for each) -/

/-- A run (R38, R84). `stopped` is the stopped-pass-end mark with its pass and fed count. -/
structure Run where
  handle   : Nat
  inst     : Nat
  step     : Nat
  pass     : Pass
  segOpen  : Bool
  awaiting : Bool
  stopped  : Option (Pass × Nat)
  deriving DecidableEq, Repr

/-- A stream context (R103). -/
structure Ctx where
  handle : Nat
  inst   : Nat
  step   : Nat
  pass   : Pass
  deriving DecidableEq, Repr

/-- The seven timers of a cell: the remaining second events, `none` while idle (R58). -/
structure Timers where
  silence : Option Nat
  load    : Option Nat
  kit     : Option Nat
  soak    : Option Nat
  start   : Option Nat
  stop    : Option Nat
  jam     : Option Nat
  deriving DecidableEq, Repr

/-- The pending setup items (R38, R70). -/
structure Items where
  load : Bool
  kit  : Bool
  soak : Bool
  deriving DecidableEq, Repr

/-- A cell record (R38), with the outstanding load order and its current-setup mark (R71), the run-event drop count and
latest reason (R85), and the run-active flag of the last accepted STATUS, `none` while unreported (R42; log entry 45).
The stack is held top run FIRST. -/
structure Cell where
  state         : CellState
  cause         : Option FaultCause
  testerReady   : Option Bool
  handler       : Option Handler
  runActive     : Option Bool
  kit           : Option Nat
  loaded        : Option ProgVals
  setpoint      : Option Temp
  atSetpoint    : Bool
  expiry        : Option Nat
  enabled       : Mask16
  confirmed     : Mask16
  reportPending : Bool
  stack         : List Run
  incoming      : Option Run
  ctx           : Option Ctx
  items         : Items
  stopReason    : Option StopReason
  timers        : Timers
  order         : Option ProgVals
  orderCurrent  : Bool
  drops         : Nat
  lastDrop      : Option Drop
  deriving DecidableEq, Repr

/-! ### Dispatch (DAR) and release (RLU) -/

/-- A member of the dispatch queue (R60). -/
structure Member where
  handle  : Nat
  inst    : Nat
  cls     : Nat
  arrival : Nat
  pass    : Pass
  deriving DecidableEq, Repr

/-- The dispatch arbiter: its queue, and whether a dispatch pass has been started and is still to be
taken. `passDue` is the model's own field and is clear between commands. -/
structure Dar where
  queue   : List Member
  passDue : Bool
  deriving DecidableEq, Repr

/-- A step entry of a release record (R154). -/
structure RecordStep where
  kind       : StepKind
  temp       : Temp
  unitsIn    : Nat
  finalGood  : Nat
  retestUsed : Bool
  segments   : List Segment
  deriving DecidableEq, Repr

/-- A release record (R154). -/
structure Record where
  handle      : Nat
  inst        : Nat
  name        : List Byte
  group       : Nat
  family      : Nat
  route       : Nat
  qty         : Nat
  shipQty     : Nat
  cumYield    : Nat
  releaseTime : Nat
  waived      : Bool
  reworked    : Bool
  steps       : List RecordStep
  deriving DecidableEq, Repr

/-- A member of the release-pending set, with the keys of its order (R153). -/
structure PendMember where
  handle     : Nat
  inst       : Nat
  completion : Nat
  deriving DecidableEq, Repr

/-- The release unit: ship queue (R156) and release-pending set (R153). -/
structure Rlu where
  ship : List Record
  pend : List PendMember
  deriving DecidableEq, Repr

/-! ### Frames of the forwarding queues (PCL) -/

/-- The header of a floor frame, less its body length (R164, R202). -/
structure Header where
  kind   : Code16
  dest   : Dest
  cell   : Nat
  handle : Nat
  inst   : Nat
  step   : Nat
  deriving DecidableEq, Repr

/-- The orders the part sends to cells, with the fields their bodies carry (R70, R74, R48, R55). -/
inductive Order where
  | loadProgram (v : ProgVals)
  | kitCall (kit : Nat)
  | soak (temp : Temp)
  | startRun (pass : Pass) (sites : Mask16) (units : Nat)
  | stopRun (reason : StopReason)
  | siteMask (sites : Mask16)
  deriving DecidableEq, Repr

/-- What an accepted TABLE_WRITE reports of its normalisation (R25, R113, R174). -/
inductive WriteNote where
  | none
  | exchanged (n : Nat)
  | window (clamped : Bool) (w : Nat)
  deriving DecidableEq, Repr

/-- The additions of a TABLE_READ reply (R175). -/
inductive ReadNote where
  | none
  | useCount (n : Nat)
  | inUse (b : Bool)
  | group (state : GroupState) (retirePending : Bool) (inUse : Bool)
  | factory (b : Bool)
  deriving DecidableEq, Repr

/-- The body of a LOT query reply (R177): the lot's record, the ship quantity and cumulative yield of a
COMPLETE or RELEASED lot, the frozen sites, and the page of summaries. -/
structure LotReport where
  lot    : Lot
  ship   : Option (Nat × Nat)
  frozen : Mask16
  page   : List Summary
  more   : Bool
  deriving DecidableEq, Repr

/-- The body of a PART query reply (R179). -/
structure PartReport where
  mode         : Mode
  floorTime    : Option Nat
  timeRejected : Nat
  address      : Mac
  inhibited    : Bool
  level        : Level
  ready        : Bool
  storeBusy    : Option (Nat × Nat)
  check        : CheckResult
  floorDepth   : Nat
  plantDepth   : Nat
  floorCounts  : List Nat
  plantCounts  : List Nat
  noticeSeq    : Nat
  discards     : Nat
  deriving DecidableEq, Repr

/-- The reply bodies, by the request that draws them. -/
inductive ReplyBody where
  | empty
  | lotOrder (handle inst cls : Nat)
  | sweep (lots : List (Nat × Nat × LotState))
  | tableRef (target table entry : Nat)
  | tableWrite (target table entry : Nat) (note : WriteNote)
  | tableRead (target table entry : Nat) (contents : Option Entry) (note : ReadNote)
  | hold (state : LotState) (repeats entries : Nat) (target : Option Target)
  | release (state : LotState) (left : Nat) (target : Option Target)
  | scrap (handle inst : Nat)
  | groupHold (n : Nat)
  | groupRelease (removed emptied : Nat)
  | shipConfirm (handle inst released depth : Nat)
  | lot (r : LotReport)
  | cell (c : Cell) (reg : Option Registration)
  | queue (count : Nat) (page : List (Nat × Nat)) (more : Bool)
  | ship (depth : Nat) (page : List Record) (more : Bool) (pend : List PendMember) (morePend : Bool) (pendCount : Nat)
  | counters (rows : List (Nat × Option (Source × CounterMode)))
  | part (r : PartReport)
  | time (floorTime : Option Nat) (rejected : Bool)
  | restart (mode : Mode)
  deriving DecidableEq, Repr

/-- A REPLY (R205): the request's kind and tag, the code and the body. -/
structure Reply where
  kind : Code16
  tag  : Nat
  code : ReplyCode
  body : ReplyBody
  deriving DecidableEq, Repr

/-- How a notice names a lot: handle, number of its slot, lot name and group. -/
structure LotRef where
  handle : Nat
  inst   : Nat
  name   : List Byte
  group  : Nat
  deriving DecidableEq, Repr

/-- The notices and their contents (R180). -/
inductive NoticeBody where
  | partStarted (start : StartKind) (mode : Mode) (check : CheckResult) (floorTime : Option Nat) (address : Mac)
  | storedImageBad (cause : BadCause)
  | lotHeld (lot : LotRef) (family : Nat) (entry : HoldEntry) (state : LotState) (target : Option Target)
  | lotStepDone (lot : LotRef) (step cell : Nat) (summary : Summary) (fed1 fed2 : Option Nat)
  | lotComplete (lot : LotRef) (route qty completion shipQty cumYield : Nat)
  | shipReady (r : Record)
  | lotScrapped (lot : LotRef) (family : Nat) (entries : List HoldEntry) (summaries : List Summary) (acc : Acc)
  | cellFault (cell : Nat) (cause : FaultCause) (lot : Option (Nat × Nat))
  | siteDemoted (cell site : Nat) (enabled : Mask16) (handle inst : Nat)
  | interlock (kind : Code16) (cell handle inst step : Nat) (source : Mac)
  deriving DecidableEq, Repr

/-- A NOTICE (R181, R205): its sequence number, the floor time at its production, its contents. -/
structure Notice where
  seq       : Nat
  floorTime : Option Nat
  body      : NoticeBody
  deriving DecidableEq, Repr

/-- What a frame carries: the data of a foreign frame, the header, body and padding of a forwarded floor
frame, or a message of the part's own. -/
inductive Payload where
  | foreign (data : List Byte)
  | forwarded (h : Header) (body pad : List Byte)
  | order (h : Header) (o : Order)
  | reply (h : Header) (r : Reply)
  | notice (h : Header) (n : Notice)
  deriving DecidableEq, Repr

/-- A frame of a forwarding queue (R170). -/
structure Frame where
  dst     : Mac
  src     : Mac
  etype   : Code16
  payload : Payload
  deriving DecidableEq, Repr

/-- The port and classifier: the two queues (R170), the traffic counts (R164 to R170), the notice
sequence and discard count (R181), the links, and what each port last sent (the model's own view of
the two outputs, in the bytes of chapter 12). -/
structure Pcl where
  floorQ         : List Frame
  plantQ         : List Frame
  floorDrops     : Nat
  floorMalformed : Nat
  floorNotTaken  : Nat
  plantDrops     : Nat
  plantMalformed : Nat
  notManager     : Nat
  misdirected    : Nat
  interlock      : Nat
  startupDrops   : Nat
  noticeSeq      : Nat
  discards       : Nat
  floorLink      : Bool
  plantLink      : Bool
  floorOut       : Option RawFrame
  plantOut       : Option RawFrame
  deriving DecidableEq, Repr

/-! ### Stored image, modes and time (SCN, TBS) -/

/-- The format mark of the image (R183): blank flash, this part's mark, or anything else. -/
inductive Mark where
  | blank
  | good
  | wrong
  deriving DecidableEq, Repr, Inhabited

/-- The stored image in flash (R183): the format mark, the area of each entry of each table as bytes,
the stored check value, and whether an abandoned or failed write left the check value not matching
the body (R189, R190). -/
structure Image where
  mark    : Mark
  areas   : List (List (List Byte))
  check   : BitVec 32
  spoiled : Bool
  deriving DecidableEq, Repr

/-- What a deferred REPLY needs of its request (R173, R202). -/
structure ReqRef where
  src    : Mac
  cell   : Nat
  handle : Nat
  inst   : Nat
  step   : Nat
  tag    : Nat
  deriving DecidableEq, Repr

/-- An operation of the store work list (R188). The phase of a write is 1 to 3 (R189). -/
inductive StoreOp where
  | read (ref : ReqRef) (table entry : Nat)
  | write (ref : ReqRef) (table entry : Nat) (contents : Option Entry) (note : WriteNote) (phase : Nat)
  deriving DecidableEq, Repr

/-- The image load under way: none, that of start-up, or the re-read of a RESTART in SAFE (R186, R192). -/
inductive Loading where
  | none
  | startUp
  | reread (ref : ReqRef)
  deriving DecidableEq, Repr

/-- The store controller (R183 to R190). `flashLeft` counts the 10 second events the flash device has to
answer; `freeIndex` is the model's own counter, from which the free contents of an area or check value
left in an unknown condition are drawn. -/
structure Scn where
  image     : Image
  check     : CheckResult
  work      : List StoreOp
  flashLeft : Option Nat
  loading   : Loading
  freeIndex : Nat
  deriving DecidableEq, Repr

/-- The part's mode and lines (R185, R186, R195) and the time base (R193). `resetIn` is the reset input,
asserted; `inhibited` is the inhibit line, asserted. -/
structure Tbs where
  resetIn      : Bool
  mode         : Mode
  ready        : Bool
  inhibitIn    : Level
  inhibited    : Bool
  floorTime    : Option Nat
  timeRejected : Nat
  deriving DecidableEq, Repr

/-- The floor counters: values and last-condition records (R199, R200). -/
structure Fcn where
  values : Vector Nat 8
  last   : Vector (Option Bool) 8
  deriving DecidableEq, Repr

/-- The state of the part, block by block, and the model's queue of waiting commands. -/
structure State where
  pending : List Instr
  pcl     : Pcl
  ldr     : Ldr
  tst     : Tables
  ctr     : Vector Cell 48
  dar     : Dar
  rlu     : Rlu
  scn     : Scn
  tbs     : Tbs
  fcn     : Fcn
  deriving DecidableEq, Repr

/-- The machine stops with no fault: the part takes every command in every state, so this type has no
constructor, nobody raises it, and that is safe. -/
inductive Fault where
  deriving DecidableEq, Repr

/-- Reasons for which a step gives a command no meaning. -/
inductive Refusal where
  /-- Would be raised by `exec` for a row that has no meaning; safe: the machine stops. Every row has its
  meaning, so nothing raises it. -/
  | notModelled (mnemonic : String)
  deriving DecidableEq, Repr

/-! ### The state after reset -/

/-- The settings at their factory values (R27). -/
def Settings.factory : Settings where
  frameType := 0x9A31
  mgmtAddr  := 0
  silence   := 30
  load      := 600
  kit       := 1800
  soak      := 1200
  start     := 60
  stop      := 60
  jam       := 900
  calMargin := 600
  inhibit   := .high

/-- An UNBOUND group directory entry (R5, R20). -/
def GroupEntry.empty : GroupEntry where
  state         := .unbound
  family        := 0
  authority     := 0
  retirePending := false

/-- The active tables of a start-up from an invalid image (R34). -/
def Tables.factory : Tables where
  settings := Settings.factory
  groups   := Vector.replicate 32 GroupEntry.empty
  routes   := Vector.replicate 16 none
  programs := Vector.replicate 64 none
  binMaps  := Vector.replicate 16 none
  profiles := Vector.replicate 16 none
  regs     := Vector.replicate 48 none
  pins     := Vector.replicate 4 none
  counters := Vector.replicate 8 none

/-- Every timer idle (R59). -/
def Timers.idle : Timers where
  silence := none
  load    := none
  kit     := none
  soak    := none
  start   := none
  stop    := none
  jam     := none

/-- No setup item pending (R59). -/
def Items.none : Items where
  load := false
  kit  := false
  soak := false

/-- A cell record at its reset values, with all sites of the registered site count (R54, R59). -/
def Cell.reset (sites : Mask16) : Cell where
  state         := .offline
  cause         := none
  testerReady   := none
  handler       := none
  runActive     := none
  kit           := none
  loaded        := none
  setpoint      := none
  atSetpoint    := false
  expiry        := none
  enabled       := sites
  confirmed     := sites
  reportPending := false
  stack         := []
  incoming      := none
  ctx           := none
  items         := Items.none
  stopReason    := none
  timers        := Timers.idle
  order         := none
  orderCurrent  := false
  drops         := 0
  lastDrop      := none

/-- The lot directory after a hard reset (R9, R18). -/
def Ldr.reset : Ldr where
  slots    := Vector.replicate 512 ⟨1, none⟩
  useCount := Vector.replicate 16 0

/-- The area of an entry in blank flash: every bit reads as one (R183). DESIGN CHOICE: one byte stands
for the area, whose size the spec does not give (log entry 3). -/
def Image.blankArea : List Byte := [0xFF]

/-- Blank flash (R183), with an area for each entry of the nine tables of R21. -/
def Image.blank : Image where
  mark    := .blank
  areas   := [11, 32, 16, 64, 16, 16, 48, 4, 8].map fun n => List.replicate n Image.blankArea
  check   := BitVec.allOnes 32
  spoiled := false

/-- The port and classifier after a hard reset, with the given links (R182). -/
def Pcl.reset (floorLink plantLink : Bool) : Pcl where
  floorQ         := []
  plantQ         := []
  floorDrops     := 0
  floorMalformed := 0
  floorNotTaken  := 0
  plantDrops     := 0
  plantMalformed := 0
  notManager     := 0
  misdirected    := 0
  interlock      := 0
  startupDrops   := 0
  noticeSeq      := 0
  discards       := 0
  floorLink      := floorLink
  plantLink      := plantLink
  floorOut       := none
  plantOut       := none

/-- The floor counters after each reset (R201). -/
def Fcn.reset : Fcn where
  values := Vector.replicate 8 0
  last   := Vector.replicate 8 none

/-- The state a hard reset leaves while the reset input is asserted (R186), from what the outside keeps
through it: the image in flash, the links, the inhibit input's level and the waiting commands. -/
def State.hardReset (pending : List Instr) (image : Image) (freeIndex : Nat) (floorLink plantLink : Bool)
    (inhibitIn : Level) : State where
  pending := pending
  pcl     := Pcl.reset floorLink plantLink
  ldr     := Ldr.reset
  tst     := Tables.factory
  ctr     := Vector.replicate 48 (Cell.reset 0)
  dar     := ⟨[], false⟩
  rlu     := ⟨[], []⟩
  scn     := ⟨image, .invalid, [], none, .none, freeIndex⟩
  tbs     := ⟨true, .starting, false, inhibitIn, false, none, 0⟩
  fcn     := Fcn.reset

/-- The machine right after power-on reset, with the reset input asserted (R186). The flash is blank,
both links are down and the inhibit input is low: DESIGN CHOICE, the spec gives no value for
what the outside holds at power-on (log entry 2). -/
def State.reset : State := State.hardReset [] Image.blank 0 false false .low

end Sys2Proof.Machine
end

