-- ==== Sys2Proof/Config.lean ====
section
/-! DEFINITION. What one implementation fixes and the spec does not give, and the free values: constants
with no body, of which nothing can be proved but that they have their type. -/

namespace Sys2Proof

open Sys2Proof.Machine

/-- The part's station address, fixed at manufacture (R173). -/
opaque Config.stationAddress : Mac

/-- Free value: the bytes an abandoned or failed stored write leaves in its entry's area (R189, R190).
The argument is the store controller's free index. -/
opaque Config.unknownArea : Nat → List Byte

/-- Free value: the check value an abandoned or failed stored write leaves in the image (R189, R190). -/
opaque Config.unknownCheck : Nat → BitVec 32

/-- Free value: the format mark a stored write failing in its first phase leaves (R189). -/
opaque Config.unknownMark : Nat → Mark

/-- Free value: whether a plant-port frame addressed to PLANT adds to the misdirected count while the mode
is STARTING. R167 routes it in NORMAL and SAFE only and is silent on STARTING. -/
opaque Config.misdirectedInStarting : Bool

/-- Free value: whether a count byte above the range of its list of steps or ranges is judged as a bad length, MALFORMED as R203
says, or by the table's own check, BAD_ENTRY as R22 and R25 say. The rules differ and the spec does not say which stands (log
entry 54). -/
opaque Config.longCountIsLength : Bool

end Sys2Proof
end

