-- ==== Sys2Proof/Machine/Bytes.lean ====
section
/-! DEFINITION. Numbers as bytes, sets as bit masks, and the check value of the stored image: the
codings of R203 and the cyclic check of R183. -/

namespace Sys2Proof.Machine

/-- `n` in `k` bytes, most significant first (R202, R203). -/
def numBytes : Nat → Nat → List Byte
  | 0, _ => []
  | k + 1, n => numBytes k (n / 256) ++ [BitVec.ofNat 8 (n % 256)]

/-- The number a list of bytes spells, most significant first (R202). -/
def bytesNum (l : List Byte) : Nat := l.foldl (fun a b => a * 256 + b.toNat) 0

/-- One byte for a flag: 0 no or clear, 1 yes or set (R203). -/
def flagByte (b : Bool) : List Byte := [if b then 1 else 0]

/-- A field that may be absent: a presence byte, then the field's bytes when it is present (R203). -/
def optBytes {α : Type} (f : α → List Byte) : Option α → List Byte
  | none => [0]
  | some a => 1 :: f a

/-- A list: a count byte, then the entries (R203). -/
def listBytes {α : Type} (f : α → List Byte) (l : List α) : List Byte :=
  BitVec.ofNat 8 l.length :: l.flatMap f

/-- Reads `k` bytes as a number, with the bytes that follow. -/
def readNum (k : Nat) (b : List Byte) : Option (Nat × List Byte) :=
  if k ≤ b.length then some (bytesNum (b.take k), b.drop k) else none

/-- Reads a flag; a byte above 1 is outside the field's values (R203). -/
def readFlag (b : List Byte) : Option (Bool × List Byte) :=
  match b with
  | x :: r => if x = 0 then some (false, r) else if x = 1 then some (true, r) else none
  | [] => none

/-- Reads a field that may be absent; a presence byte above 1 is refused (R203). -/
def readOpt {α : Type} (f : List Byte → Option (α × List Byte)) (b : List Byte) : Option (Option α × List Byte) :=
  match readFlag b with
  | some (false, r) => some (none, r)
  | some (true, r) => (f r).map fun x => (some x.1, x.2)
  | none => none

/-- `n` readings of one kind, one after another. -/
def readMany {α : Type} (f : List Byte → Option (α × List Byte)) : Nat → List Byte → Option (List α × List Byte)
  | 0, b => some ([], b)
  | n + 1, b => do
    let (x, r) ← f b
    let (xs, r) ← readMany f n r
    some (x :: xs, r)

/-- The value, provided nothing is left over: a body longer than its contents declare is not of its kind's
length (R203). -/
def atEnd {α : Type} (x : α) (rest : List Byte) : Option α := if rest.isEmpty then some x else none

/-- The number of members of a set held as a mask. -/
def maskCount {n : Nat} (m : BitVec n) : Nat := (List.range n).countP fun i => m.getLsbD i

/-- The set without member `i`. -/
def maskRemove {n : Nat} (m : BitVec n) (i : Nat) : BitVec n := m &&& ~~~(BitVec.twoPow n i)

/-- Every member of `a` is a member of `b`. -/
def maskSubset {n : Nat} (a b : BitVec n) : Bool := a &&& b == a

/-- All sites 0 to `n` − 1 (R54). -/
def allSites (n : Nat) : Mask16 := BitVec.ofNat 16 (2 ^ n - 1)

/-- One bit of the cyclic check, the byte already folded in, least significant bit first: the polynomial
0x04C11DB7 with its bits reversed (R183). -/
def crcBit (r : BitVec 32) : BitVec 32 :=
  if r.getLsbD 0 then (r >>> 1) ^^^ 0xEDB88320 else r >>> 1

/-- One byte of the cyclic check (R183). -/
def crcByte (r : BitVec 32) (b : Byte) : BitVec 32 :=
  crcBit (crcBit (crcBit (crcBit (crcBit (crcBit (crcBit (crcBit (r ^^^ b.setWidth 32))))))))

/-- The check value over a run of bytes: the register starts at all ones and the result is inverted
(R183). -/
def crc32 (l : List Byte) : BitVec 32 := ~~~(l.foldl crcByte (BitVec.allOnes 32))

/-! ### Fixed-size tables of the state -/

/-- The element at `i`, or `d` outside the table. -/
def vget {α : Type} {n : Nat} (v : Vector α n) (d : α) (i : Nat) : α := (v[i]?).getD d

/-- The table with element `i` changed by `f`; unchanged when `i` is outside it. -/
def vmod {α : Type} {n : Nat} (v : Vector α n) (i : Nat) (f : α → α) : Vector α n :=
  match v[i]? with
  | some x => v.setIfInBounds i (f x)
  | none => v

end Sys2Proof.Machine
end

