-- ==== Sys2Proof/Machine/Codes.lean ====
section
/-! DEFINITION. The codes of the network: message kinds and their families (R164, R202), and the codes of
named values, numbered from 0 in the order their tables list them unless chapter 12 gives codes
(R203, R204, R205). -/

namespace Sys2Proof.Machine

/-- Kind codes of the cell kinds (R202). -/
def Kind.status : Code16 := 0x0101
def Kind.loadDone : Code16 := 0x0102
def Kind.runStarted : Code16 := 0x0103
def Kind.passEnd : Code16 := 0x0104
def Kind.runStopped : Code16 := 0x0105
def Kind.bin : Code16 := 0x0106
def Kind.binCompact : Code16 := 0x0107

/-- Kind codes of the order kinds (R202). -/
def Kind.loadProgram : Code16 := 0x0201
def Kind.kitCall : Code16 := 0x0202
def Kind.soak : Code16 := 0x0203
def Kind.startRun : Code16 := 0x0204
def Kind.stopRun : Code16 := 0x0205
def Kind.siteMask : Code16 := 0x0206

/-- Kind codes of the request kinds (R202). -/
def Kind.lotOrder : Code16 := 0x0301
def Kind.sweep : Code16 := 0x0302
def Kind.tableWrite : Code16 := 0x0303
def Kind.tableRead : Code16 := 0x0304
def Kind.hold : Code16 := 0x0305
def Kind.release : Code16 := 0x0306
def Kind.groupHold : Code16 := 0x0307
def Kind.groupRelease : Code16 := 0x0308
def Kind.groupRetire : Code16 := 0x0309
def Kind.shipConfirm : Code16 := 0x030A
def Kind.query : Code16 := 0x030B
def Kind.time : Code16 := 0x030C
def Kind.restart : Code16 := 0x030D

/-- Kind codes of the part kinds (R202). -/
def Kind.reply : Code16 := 0x0401
def Kind.notice : Code16 := 0x0402

/-- A cell kind: sent by cells (R164). -/
def isCellKind (k : Code16) : Bool := 0x0101 ≤ k.toNat && k.toNat ≤ 0x0107

/-- An order kind: part-reserved (R164). -/
def isOrderKind (k : Code16) : Bool := 0x0201 ≤ k.toNat && k.toNat ≤ 0x0206

/-- A request kind (R164). -/
def isRequestKind (k : Code16) : Bool := 0x0301 ≤ k.toNat && k.toNat ≤ 0x030D

/-- A part kind (R164). -/
def isPartKind (k : Code16) : Bool := 0x0401 ≤ k.toNat && k.toNat ≤ 0x0402

/-- Whether a frame's data begins with a readable header: at least 10 bytes, a body length that stays within
the data, a destination byte of 0 to 2 (R164, R202). -/
def headerReadable (data : List Byte) : Bool :=
  10 ≤ data.length && 10 + bytesNum ((data.drop 8).take 2) ≤ data.length && bytesNum ((data.drop 2).take 1) ≤ 2

def destCode : Dest → Nat
  | .part => 0
  | .plant => 1
  | .cell => 2

def portCode : Port → Nat
  | .floor => 0
  | .plant => 1

def StepKind.code : StepKind → Nat
  | .test => 0
  | .sample => 1

def Temp.code : Temp → Nat
  | .cold => 0
  | .room => 1
  | .hot => 2

def Pass.code : Pass → Nat
  | .first => 0
  | .retest => 1

/-- Class codes of R204; 0 is NONE. -/
def BinClass.code : BinClass → Nat
  | .pass => 1
  | .fail => 2
  | .retestable => 3

/-- Lot state codes; 0 is FREE (R2). -/
def LotState.code : LotState → Nat
  | .waiting => 1
  | .assigned => 2
  | .running => 3
  | .preempted => 4
  | .held => 5
  | .complete => 6
  | .released => 7

def GroupState.code : GroupState → Nat
  | .unbound => 0
  | .opened => 1
  | .held => 2
  | .retired => 3

def CellState.code : CellState → Nat
  | .offline => 0
  | .idle => 1
  | .setup => 2
  | .starting => 3
  | .running => 4
  | .paused => 5
  | .stopping => 6
  | .fault => 7

def FaultCause.code : FaultCause → Nat
  | .setupTimeout => 0
  | .loadFailed => 1
  | .startTimeout => 2
  | .stopTimeout => 3
  | .unownedRun => 4

def Handler.code : Handler → Nat
  | .running => 0
  | .jammed => 1
  | .idle => 2

/-- Stop reason codes in the order of R38. UNOWNED, which that table does not list, follows them: DESIGN
CHOICE (log entry 6). -/
def StopReason.code : StopReason → Nat
  | .hold => 0
  | .preempt => 1
  | .calibration => 2
  | .jamTimeout => 3
  | .quantity => 4
  | .unowned => 5

def CloseCause.code : CloseCause → Nat
  | .stepEnd => 0
  | .calibration => 1
  | .jamTimeout => 2
  | .hold => 3
  | .detached => 4
  | .fault => 5

/-- Hold reason codes (R197). -/
def HoldReason.code : HoldReason → Nat
  | .guard => 0
  | .site => 1
  | .equipment => 2
  | .quantity => 3
  | .engineering => 4
  | .family => 5
  | .interrupted => 6

def Target.code : Target → Nat
  | .resume => 0
  | .advance => 1
  | .complete => 2

/-- Check kind codes, without their bin or site (R197). -/
def Trip.code : Trip → Nat
  | .yieldLow => 0
  | .binHigh _ => 1
  | .windowLow => 2
  | .binMismatch => 3
  | .siteSkew _ => 4
  | .siteRun _ => 5
  | .finalLow => 6
  | .lostHigh => 7
  | .retestExcess => 8
  | .releaseLow => 9

/-- The bin or site byte of a trip entry, 255 for a kind that has none (R203). -/
def Trip.operand : Trip → Nat
  | .binHigh b => b
  | .siteSkew s => s
  | .siteRun s => s
  | .yieldLow | .windowLow | .binMismatch | .finalLow | .lostHigh | .retestExcess | .releaseLow => 255

/-- Placed-by codes (R203). -/
def PlacedBy.code : PlacedBy → Nat
  | .cell c => c
  | .ygd => 254
  | .plant => 255

def Disposition.code : Disposition → Nat
  | .continue_ => 0
  | .rework => 1
  | .scrap => 2

/-- Outcome and drop reason codes (R204). -/
def Drop.code : Drop → Nat
  | .counted => 0
  | .malformed => 1
  | .unknownCell => 2
  | .unknownGroup => 3
  | .unknownLot => 4
  | .stale => 5
  | .notRunning => 6
  | .wrongStep => 7
  | .wrongPass => 8
  | .siteDisabled => 9
  | .overcount => 10
  | .noContext => 11
  | .afterStreamEnd => 12
  | .unexpected => 13
  | .unsolicited => 14

/-- Reply codes (R205). -/
def ReplyCode.code : ReplyCode → Nat
  | .ok => 0
  | .malformed => 1
  | .safeMode => 2
  | .unknownGroup => 3
  | .unknownLot => 4
  | .stale => 5
  | .groupRetired => 6
  | .groupFull => 7
  | .badRoute => 8
  | .badTable => 9
  | .badEntry => 10
  | .inUse => 11
  | .busy => 12
  | .notHeld => 13
  | .familyLocked => 14
  | .badDisposition => 15
  | .lotReleased => 16
  | .notReleased => 17
  | .storeFailed => 18
  | .badQuantity => 19

def Mode.code : Mode → Nat
  | .starting => 0
  | .normal => 1
  | .safe => 2

def CheckResult.code : CheckResult → Nat
  | .valid => 0
  | .invalid => 1

/-- Causes of STORED_IMAGE_BAD (R205). -/
def BadCause.code : BadCause → Nat
  | .blank => 0
  | .format => 1
  | .check => 2
  | .noResponse => 3

/-- Start kinds (R205). -/
def StartKind.code : StartKind → Nat
  | .hard => 0
  | .soft => 1

def levelCode : Level → Nat
  | .high => 0
  | .low => 1

/-- Event sources are coded 0 to 9 (R196). -/
def EventSource.code : EventSource → Nat
  | .binCounted => 0
  | .binDropped => 1
  | .holdPlaced => 2
  | .holdReleased => 3
  | .guardTrip => 4
  | .siteDemoted => 5
  | .lotReleased => 6
  | .paired => 7
  | .preempted => 8
  | .portDrop => 9

/-- Occupancy sources are coded 10 to 15 (R196). -/
def OccSource.code : OccSource → Nat
  | .cellsRunning => 10
  | .cellsSetup => 11
  | .cellsFault => 12
  | .lotsWaiting => 13
  | .lotsHeld => 14
  | .shipDepth => 15

def Source.code : Source → Nat
  | .event e => e.code
  | .occupancy o => o.code

def CounterMode.code : CounterMode → Nat
  | .event => 0
  | .level => 1
  | .edge => 2
  | .accumulate => 3

/-- Notice kinds (R205). -/
def NoticeBody.code : NoticeBody → Nat
  | .partStarted .. => 0
  | .storedImageBad .. => 1
  | .lotHeld .. => 2
  | .lotStepDone .. => 3
  | .lotComplete .. => 4
  | .shipReady .. => 5
  | .lotScrapped .. => 6
  | .cellFault .. => 7
  | .siteDemoted .. => 8
  | .interlock .. => 9

/-- Table numbers and their entry counts (R21). -/
def tableEntries : Nat → Nat
  | 0 => 11
  | 1 => 32
  | 2 => 16
  | 3 => 64
  | 4 => 16
  | 5 => 16
  | 6 => 48
  | 7 => 4
  | 8 => 8
  | _ => 0

end Sys2Proof.Machine
end

