-- ==== Sys2Proof/Machine/TableCodec.lean ====
section
/-! DEFINITION. Table entries as bytes: how a TABLE_WRITE's contents are read and checked (R22, R24, R25,
R27, R29 checks 1 and 4, R36, R62, R113, R174, R196), how an entry is written out (R175), and the area of
an entry in the stored image (R183, R187). -/

namespace Sys2Proof.Machine

/-- The outcome of reading written contents: not of the entry's length, a field outside its values, or the
entry (`none` empty) with what was normalised. -/
inductive EntryRes where
  | malformed
  | bad
  | ok (e : Option Entry) (note : WriteNote)
  deriving DecidableEq, Repr

/-- A value that read well but failed its checks is BAD_ENTRY; one that did not read is MALFORMED. -/
def EntryRes.ofChecked (r : Option (Option (Entry × WriteNote))) : EntryRes :=
  match r with
  | none => .malformed
  | some none => .bad
  | some (some (e, n)) => .ok (some e) n

/-! ### Reading codes -/

def readTemp : Nat → Option Temp
  | 0 => some .cold
  | 1 => some .room
  | 2 => some .hot
  | _ => none

def readStepKind : Nat → Option StepKind
  | 0 => some .test
  | 1 => some .sample
  | _ => none

def readPass : Nat → Option Pass
  | 0 => some .first
  | 1 => some .retest
  | _ => none

/-- The class codes of R204, without NONE. -/
def readClass : Nat → Option BinClass
  | 1 => some .pass
  | 2 => some .fail
  | 3 => some .retestable
  | _ => none

/-- A flag held as a number: any other code is outside the field's values (R203). -/
def readBool : Nat → Option Bool
  | 0 => some false
  | 1 => some true
  | _ => none

def readEvent : Nat → Option EventSource
  | 0 => some .binCounted
  | 1 => some .binDropped
  | 2 => some .holdPlaced
  | 3 => some .holdReleased
  | 4 => some .guardTrip
  | 5 => some .siteDemoted
  | 6 => some .lotReleased
  | 7 => some .paired
  | 8 => some .preempted
  | 9 => some .portDrop
  | _ => none

def readOcc : Nat → Option OccSource
  | 10 => some .cellsRunning
  | 11 => some .cellsSetup
  | 12 => some .cellsFault
  | 13 => some .lotsWaiting
  | 14 => some .lotsHeld
  | 15 => some .shipDepth
  | _ => none

/-- Sources 0 to 9 are events, 10 to 15 occupancies (R196). -/
def readSource (n : Nat) : Option Source :=
  match readEvent n with
  | some e => some (.event e)
  | none => (readOcc n).map .occupancy

def readCounterMode : Nat → Option CounterMode
  | 0 => some .event
  | 1 => some .level
  | 2 => some .edge
  | 3 => some .accumulate
  | _ => none

/-- The value, if it lies within the bounds. -/
def within (lo hi v : Nat) : Option Nat := if lo ≤ v ∧ v ≤ hi then some v else none

/-- The count byte of a list of at most `most` entries. By R203 a count above its range makes the body none of its kind's length,
by R22 and R25 the list is one whose check fails: which of the two is a free value (log entry 54). -/
def readListCount (most : Nat) (b : List Byte) : Option (Nat × List Byte) := do
  let (n, b) ← readNum 1 b
  if most < n && Config.longCountIsLength then none else some (n, b)

/-! ### Settings (R27) -/

/-- Bytes of a setting's value (R29). -/
def settingSize : Nat → Nat
  | 1 => 6
  | 9 => 4
  | 10 => 1
  | _ => 2

/-- The range of each setting (R27). -/
def settingOk (i v : Nat) : Bool :=
  match i with
  | 0 => 0x0600 ≤ v && v ≤ 0xFFFF
  | 1 => v < 2 ^ 48
  | 2 => 5 ≤ v && v ≤ 600
  | 9 => v ≤ 86400
  | 10 => v ≤ 1
  | _ => 1 ≤ v && v ≤ 65535

/-- The value of setting `i`, as the network carries it. -/
def Settings.get (s : Settings) : Nat → Nat
  | 0 => s.frameType.toNat
  | 1 => s.mgmtAddr.toNat
  | 2 => s.silence
  | 3 => s.load
  | 4 => s.kit
  | 5 => s.soak
  | 6 => s.start
  | 7 => s.stop
  | 8 => s.jam
  | 9 => s.calMargin
  | _ => levelCode s.inhibit

/-- The settings with setting `i` at value `v`. -/
def Settings.put (s : Settings) (i v : Nat) : Settings :=
  match i with
  | 0 => { s with frameType := BitVec.ofNat 16 v }
  | 1 => { s with mgmtAddr := BitVec.ofNat 48 v }
  | 2 => { s with silence := v }
  | 3 => { s with load := v }
  | 4 => { s with kit := v }
  | 5 => { s with soak := v }
  | 6 => { s with start := v }
  | 7 => { s with stop := v }
  | 8 => { s with jam := v }
  | 9 => { s with calMargin := v }
  | _ => { s with inhibit := if v = 0 then .high else .low }

/-- A setting's contents: the length of the named entry's value, then its range (R27, R29). -/
def readSetting (i : Nat) (b : List Byte) : EntryRes :=
  if b.length ≠ settingSize i then .malformed
  else if settingOk i (bytesNum b) then .ok (some (.setting (bytesNum b))) .none
  else .bad

/-! ### Group directory entries and cell registrations (R4, R36, R174) -/

/-- A group entry's contents: the flag no alone is the empty entry. A flag byte above 1 is outside its values, BAD_ENTRY, where the
full fields follow it, and MALFORMED where they do not (log entry 55). -/
def readGroup (b : List Byte) : EntryRes :=
  match b with
  | [] => .malformed
  | f :: r =>
    if f = 0 then (if r.isEmpty then .ok none .none else .malformed)
    else if r.length ≠ 8 then .malformed
    else if f = 1 then .ok (some (.group (bytesNum (r.take 2)) (BitVec.ofNat 48 (bytesNum (r.drop 2))))) .none
    else .bad

/-- The fields of a registered entry: site count 1 to 16, a nonempty temperature ability (R36). -/
def checkRegistration (addr count caps temps : Nat) : Option Registration := do
  let n ← within 1 16 count
  let t ← within 1 7 temps
  some ⟨BitVec.ofNat 48 addr, n, BitVec.ofNat 16 caps, BitVec.ofNat 3 t⟩

/-- A registration's contents: the flag no alone is the empty entry. A flag byte above 1 is outside its values, BAD_ENTRY, where the
full fields follow it, and MALFORMED where they do not (log entry 55). -/
def readRegistration (b : List Byte) : EntryRes :=
  match b with
  | [] => .malformed
  | f :: r =>
    if f = 0 then (if r.isEmpty then .ok none .none else .malformed)
    else if r.length ≠ 10 then .malformed
    else if f = 1 then
      match checkRegistration (bytesNum (r.take 6)) (bytesNum ((r.drop 6).take 1)) (bytesNum ((r.drop 7).take 2))
          (bytesNum (r.drop 9)) with
      | some x => .ok (some (.registration x)) .none
      | none => .bad
    else .bad

/-! ### Routes (R22) -/

/-- The fields of a written step, as numbers. -/
structure RawStep where
  kind    : Nat
  temp    : Nat
  program : Nat
  kit     : Nat
  binMap  : Nat
  profile : Nat
  retest  : Nat
  sample  : Option Nat
  deriving DecidableEq, Repr

/-- The bytes of one step. -/
def readRawStep (b : List Byte) : Option (RawStep × List Byte) := do
  let (kind, b) ← readNum 1 b
  let (temp, b) ← readNum 1 b
  let (program, b) ← readNum 1 b
  let (kit, b) ← readNum 1 b
  let (binMap, b) ← readNum 1 b
  let (profile, b) ← readNum 1 b
  let (retest, b) ← readNum 1 b
  let (sample, b) ← readOpt (readNum 2) b
  some (⟨kind, temp, program, kit, binMap, profile, retest, sample⟩, b)

/-- The sample size of a step: 1 to 5,000 for a SAMPLE step, not examined and stored as absent for a TEST
step (R22). -/
def checkSample (k : StepKind) (n : Option Nat) : Option (Option Nat) :=
  match k with
  | .test => some none
  | .sample => (n.bind (within 1 5000)).map some

/-- The field checks of a step (R22). -/
def checkStep (x : RawStep) : Option RouteStep := do
  let k ← readStepKind x.kind
  let t ← readTemp x.temp
  let p ← within 0 63 x.program
  let kit ← within 0 31 x.kit
  let m ← within 0 15 x.binMap
  let g ← within 0 15 x.profile
  let r ← readBool x.retest
  let n ← checkSample k x.sample
  some ⟨k, t, p, kit, m, g, r, n⟩

/-- The checks of a whole route: step count 1 to 6 with as many steps, release floor at most 1000 (R22). -/
def checkRoute (count floor : Nat) (l : List RawStep) : Option (Entry × WriteNote) := do
  let n ← within 1 6 count
  let f ← within 0 1000 floor
  let steps ← l.mapM checkStep
  if steps.length = n then some (.route ⟨f, steps⟩, .none) else none

/-- A route's contents. A list of more steps than the step count fails R22's check, and one of more than 6 perhaps the length
check before it (R203; log entry 54). -/
def readRoute (b : List Byte) : EntryRes :=
  .ofChecked do
    let (count, b) ← readNum 1 b
    let (floor, b) ← readNum 2 b
    let (n, b) ← readListCount 6 b
    let (l, b) ← readMany readRawStep n b
    atEnd (checkRoute count floor l) b

/-! ### Programs (R24) -/

/-- A program's contents: an index time of 100 to 60,000 milliseconds. -/
def readProgram (b : List Byte) : EntryRes :=
  .ofChecked do
    let (number, b) ← readNum 2 b
    let (rev, b) ← readNum 1 b
    let (check, b) ← readNum 4 b
    let (caps, b) ← readNum 2 b
    let (index, b) ← readNum 2 b
    atEnd ((within 100 60000 index).map fun t => (.program ⟨⟨number, rev, check⟩, BitVec.ofNat 16 caps, t⟩, .none)) b

/-! ### Bin maps (R25) -/

/-- The bytes of one range: low, high, hard bin, class code. -/
def readRawRange (b : List Byte) : Option ((Nat × Nat × Nat × Nat) × List Byte) := do
  let (low, b) ← readNum 1 b
  let (high, b) ← readNum 1 b
  let (hard, b) ← readNum 1 b
  let (cls, b) ← readNum 1 b
  some ((low, high, hard, cls), b)

/-- One range checked, its low and high as carried (R25). -/
def checkRange (x : Nat × Nat × Nat × Nat) : Option BinRange := do
  let hard ← within 0 15 x.2.2.1
  let cls ← readClass x.2.2.2
  some ⟨x.1, x.2.1, hard, cls⟩

/-- The checks of a whole bin map: 1 to 32 ranges (R25). -/
def checkBinMap (l : List (Nat × Nat × Nat × Nat)) : Option (List BinRange) := do
  let ranges ← l.mapM checkRange
  if 1 ≤ l.length ∧ l.length ≤ 32 then some ranges else none

/-- A bin map's ranges as carried. More than 32 fail R25's check, or perhaps the length check before it (R203; log entry 54). -/
def readRanges (b : List Byte) : Option (Option (List BinRange)) := do
  let (n, b) ← readListCount 32 b
  let (l, b) ← readMany readRawRange n b
  atEnd (checkBinMap l) b

/-- A range with its low and high exchanged when the low is above the high (R25). -/
def BinRange.ordered (x : BinRange) : BinRange := { x with low := min x.low x.high, high := max x.low x.high }

/-- Written ranges as they are stored, with the number exchanged (R25). -/
def exchangeRanges (l : List BinRange) : Entry × WriteNote :=
  (.binMap (l.map BinRange.ordered), .exchanged (l.countP fun x => x.high < x.low))

/-- A bin map's contents, as written (R25). -/
def readBinMap (b : List Byte) : EntryRes := .ofChecked ((readRanges b).map (Option.map exchangeRanges))

/-! ### Guard profiles (R113) -/

/-- W clamped to 16 to 256 (R113). -/
def clampWindow (w : Nat) : Nat := max 16 (min 256 w)

/-- Sixteen bin ceilings as a table. -/
def ceilingTable (l : List Nat) : Vector Nat 16 := Vector.ofFn fun i => l.getD i.val 0

/-- A profile's fields: 16 ceilings in bin order, each field but W within its range, W as carried (R113). -/
def readFields (b : List Byte) : Option (Option Profile) := do
  let (minSample, b) ← readNum 2 b
  let (yieldFloor, b) ← readNum 2 b
  let (ceilings, b) ← readMany (readNum 2) 16 b
  let (window, b) ← readNum 2 b
  let (windowFloor, b) ← readNum 2 b
  let (skewLimit, b) ← readNum 2 b
  let (skewMin, b) ← readNum 2 b
  let (consecLimit, b) ← readNum 1 b
  let (minSites, b) ← readNum 1 b
  let (finalFloor, b) ← readNum 2 b
  let (lostAllow, b) ← readNum 2 b
  let (mismatchLimit, b) ← readNum 1 b
  let ok := 1 ≤ minSample && yieldFloor ≤ 1000 && ceilings.all (· ≤ 1000) && windowFloor ≤ 1000 &&
    skewLimit ≤ 1000 && 1 ≤ skewMin && consecLimit ≤ 15 && 1 ≤ minSites && minSites ≤ 16 &&
    finalFloor ≤ 1000 && lostAllow ≤ 1000
  let p : Profile := ⟨minSample, yieldFloor, ceilingTable ceilings, window, windowFloor, skewLimit, skewMin,
    consecLimit, minSites, finalFloor, lostAllow, mismatchLimit⟩
  atEnd (if ok then some p else none) b

/-- A written profile as it is stored, and whether its W was clamped (R113). -/
def clampProfile (p : Profile) : Entry × WriteNote :=
  let w := clampWindow p.window
  (.profile { p with window := w }, .window (w != p.window) w)

/-- A profile's contents, as written (R113). -/
def readProfile (b : List Byte) : EntryRes := .ofChecked ((readFields b).map (Option.map clampProfile))

/-! ### Pinning and counter configurations (R62, R196) -/

/-- A pinning entry's contents: group at most 31, cell at most 47 (R62). -/
def readPin (b : List Byte) : EntryRes :=
  .ofChecked do
    let (g, b) ← readNum 1 b
    let (c, b) ← readNum 1 b
    let (x, b) ← readNum 1 b
    atEnd (do
      let g ← within 0 31 g
      let c ← within 0 47 c
      let x ← readBool x
      some (.pin ⟨g, c, x⟩, .none)) b

/-- The mode suits the source: EVENT with an event source, the others with an occupancy source (R196). -/
def modeSuits (m : CounterMode) (s : Source) : Bool :=
  match s with
  | .event _ => m == .event
  | .occupancy _ => m != .event

/-- A counter configuration's contents (R196). -/
def readCounter (b : List Byte) : EntryRes :=
  .ofChecked do
    let (src, b) ← readNum 1 b
    let (mode, b) ← readNum 1 b
    let (threshold, b) ← readNum 4 b
    let (invert, b) ← readNum 1 b
    atEnd (do
      let s ← readSource src
      let m ← readCounterMode mode
      let i ← readBool invert
      if modeSuits m s then some (.counter ⟨s, m, threshold, i⟩, .none) else none) b

/-! ### One entry of any table -/

/-- What a write of the empty entry reports: no range exchanged, no W clamped (R174; log entry 8). -/
def emptyNote : Nat → WriteNote
  | 4 => .exchanged 0
  | 5 => .window false 0
  | _ => .none

/-- The contents of an entry that is not written empty, by table number. -/
def readContents (table entry : Nat) (b : List Byte) : EntryRes :=
  match table with
  | 0 => readSetting entry b
  | 1 => readGroup b
  | 2 => readRoute b
  | 3 => readProgram b
  | 4 => readBinMap b
  | 5 => readProfile b
  | 6 => readRegistration b
  | 7 => readPin b
  | 8 => readCounter b
  | _ => .malformed

/-- The empty flag and contents of a write (R29 checks 1 and 4, R174). An empty settings entry is refused;
contents after a set empty flag are not of the entry's length. -/
def readEntry (table entry : Nat) (empty : Bool) (b : List Byte) : EntryRes :=
  if empty then
    if !b.isEmpty then .malformed
    else if table = 0 then .bad
    else .ok none (emptyNote table)
  else readContents table entry b

/-! ### Writing entries out -/

def stepBytes (x : RouteStep) : List Byte :=
  numBytes 1 x.kind.code ++ numBytes 1 x.temp.code ++ numBytes 1 x.program ++ numBytes 1 x.kit ++
    numBytes 1 x.binMap ++ numBytes 1 x.profile ++ flagByte x.retest ++ optBytes (numBytes 2) x.sample

def progBytes (v : ProgVals) : List Byte := numBytes 2 v.number ++ numBytes 1 v.rev ++ numBytes 4 v.check

def rangeBytes (x : BinRange) : List Byte :=
  numBytes 1 x.low ++ numBytes 1 x.high ++ numBytes 1 x.hard ++ numBytes 1 x.cls.code

def maskBytes {n : Nat} (k : Nat) (m : BitVec n) : List Byte := numBytes k m.toNat

def registrationBytes (r : Registration) : List Byte :=
  maskBytes 6 r.addr ++ numBytes 1 r.siteCount ++ maskBytes 2 r.caps ++ maskBytes 1 r.temps

/-- The contents of an entry, in the layout a TABLE_WRITE carries (R174, R175, R203). The setting's length
is its entry's (R29). -/
def entryBytes (entry : Nat) : Entry → List Byte
  | .setting v => numBytes (settingSize entry) v
  | .group f a => 1 :: (numBytes 2 f ++ maskBytes 6 a)
  | .route r => numBytes 1 r.steps.length ++ numBytes 2 r.releaseFloor ++ listBytes stepBytes r.steps
  | .program p => progBytes p.vals ++ maskBytes 2 p.caps ++ numBytes 2 p.indexTime
  | .binMap m => listBytes rangeBytes m
  | .profile p => numBytes 2 p.minSample ++ numBytes 2 p.yieldFloor ++ p.ceilings.toList.flatMap (numBytes 2) ++
      numBytes 2 p.window ++ numBytes 2 p.windowFloor ++ numBytes 2 p.skewLimit ++ numBytes 2 p.skewMin ++
      numBytes 1 p.consecLimit ++ numBytes 1 p.minSites ++ numBytes 2 p.finalFloor ++ numBytes 2 p.lostAllow ++
      numBytes 1 p.mismatchLimit
  | .registration r => 1 :: registrationBytes r
  | .pin p => numBytes 1 p.group ++ numBytes 1 p.cell ++ flagByte p.exclusive
  | .counter c => numBytes 1 c.source.code ++ numBytes 1 c.mode.code ++ numBytes 4 c.threshold ++ flagByte c.invert

/-! ### The stored image's areas (R183, R187) -/

/-- An entry's area: the empty flag and, for an entry that is not empty, its contents (R183). -/
def areaBytes (entry : Nat) : Option Entry → List Byte
  | none => [1]
  | some e => 0 :: entryBytes entry e

/-- An entry of an area under the field checks of a write, but as it is stored: W is not clamped and no range is exchanged, since
neither is refused by a check (R25, R113, R187; log entry 9). -/
def readStored (table entry : Nat) (empty : Bool) (b : List Byte) : EntryRes :=
  match empty, table with
  | false, 4 => .ofChecked ((readRanges b).map (Option.map fun m => (.binMap m, .none)))
  | false, 5 => .ofChecked ((readFields b).map (Option.map fun p => (.profile p, .none)))
  | _, _ => readEntry table entry empty b

/-- An entry of the image as loaded: `none` when its area does not decode as valid contents of its table, under the field checks
of R29 check 4 (R187). -/
def decodeArea (table entry : Nat) (area : List Byte) : Option (Option Entry) := do
  let (empty, rest) ← readFlag area
  match readStored table entry empty rest with
  | .ok e _ => some e
  | .malformed => none
  | .bad => none

/-- The area of an entry in the image. -/
def Image.area (im : Image) (table entry : Nat) : List Byte := (im.areas.getD table []).getD entry Image.blankArea

/-- The image with the area of an entry replaced. -/
def Image.setArea (im : Image) (table entry : Nat) (b : List Byte) : Image :=
  { im with areas := im.areas.modify table fun l => l.set entry b }

/-- The whole image body: every area, in table and entry order (R183; log entry 3). -/
def Image.body (im : Image) : List Byte := im.areas.flatten.flatten

/-- The flash reads blank: every bit one (R183, R186). -/
def Image.isBlank (im : Image) : Bool :=
  im.mark == .blank && im.areas.all (fun t => t.all (· == Image.blankArea)) && im.check == BitVec.allOnes 32

/-- The judgement of the image: `none` valid, otherwise the cause (R183, R186). R186 names the causes without an order: of
a wrong format mark and a differing check value FORMAT is reported (log entry 51). -/
def Image.fault (im : Image) : Option BadCause :=
  if im.isBlank then some .blank
  else if im.mark ≠ .good then some .format
  else if im.spoiled ∨ im.check ≠ crc32 im.body then some .check
  else none

/-- An entry of a valid image as it is loaded, `none` empty or not decoding (R187). -/
def Image.entry (im : Image) (table entry : Nat) : Option Entry := (decodeArea table entry (im.area table entry)).getD none

end Sys2Proof.Machine
end

