-- ==== Sys2Proof/Machine/Flags.lean ====
section
/-! DEFINITION. The yes-or-no judgements and the figures of the spec, each a plain function of the records
it reads: yields (R124), mapping (R26), guard checks (R115, R116, R120), estimates and scores (R65, R66),
setup mismatches (R70), site judgement (R54), lapse (R52), counter conditions (R198, R199). -/

namespace Sys2Proof.Machine

/-! ### Figures of a step -/

/-- A reported yield in permille, rounded half up, absent when nothing was tested (R124). -/
def yieldPermille (good tested : Nat) : Option Nat :=
  if tested = 0 then none else some ((good * 1000 + tested / 2) / tested)

/-- Final good of a step (R108). -/
def Acc.finalGood (a : Acc) : Nat := a.good1 + a.good2

/-- Final good of a closed step (R121). -/
def Summary.finalGood (m : Summary) : Nat := m.good1 + m.good2

/-- units_in of a step entered with a quantity (R108). -/
def unitsInOf (x : RouteStep) (entering : Nat) : Nat :=
  match x.kind with
  | .test => entering
  | .sample => min (x.sample.getD 0) entering

/-- The carried quantity of a step (R108). -/
def carriedOf (kind : StepKind) (entering unitsIn finalGood : Nat) : Nat :=
  match kind with
  | .test => finalGood
  | .sample => entering - (unitsIn - finalGood)

/-- Site statistics at zero (R109). -/
def SiteStat.zero : SiteStat := ⟨0, 0, 0, 0⟩

/-- Accumulators at the start of a step: all counts 0, window, trip set and waived set empty (R108). -/
def Acc.start (entering unitsIn : Nat) : Acc where
  entering    := entering
  unitsIn     := unitsIn
  tested1     := 0
  good1       := 0
  retestable1 := 0
  tested2     := 0
  good2       := 0
  hardBins    := Vector.replicate 16 0
  mismatch    := 0
  unmapped    := 0
  sites       := Vector.replicate 16 SiteStat.zero
  window      := []
  winPass     := 0
  trips       := []
  waived      := []
  retestUsed  := false
  qtyMark     := false
  fed1        := none
  fed2        := none

/-- Units the lot has left in a pass (R65). -/
def Acc.remaining (a : Acc) : Pass → Nat
  | .first => a.unitsIn - a.tested1
  | .retest => a.retestable1 - a.tested2

/-- A number rounded up after division. -/
def divUp (a b : Nat) : Nat := (a + b - 1) / b

/-- The estimate of a pair in seconds: touchdowns of `e` enabled sites at `t` milliseconds (R65). -/
def estimate (units e t : Nat) : Nat := if units = 0 then 0 else divUp (divUp units e * t) 1000

/-! ### Bin mapping (R26) -/

/-- The result of mapping a soft bin. -/
structure Mapped where
  hard     : Nat
  cls      : BinClass
  unmapped : Bool
  deriving DecidableEq, Repr

/-- The first range containing the soft bin gives hard bin and class; otherwise hard bin 15, FAIL, unmapped
(R26). -/
def mapBin (m : List BinRange) (soft : Nat) : Mapped :=
  match m.find? fun r => r.low ≤ soft && soft ≤ r.high with
  | some r => ⟨r.hard, r.cls, false⟩
  | none => ⟨15, .fail, true⟩

/-! ### Guard checks -/

/-- The running lot-wide checks after a first-pass record, in the order of R115, waived kinds skipped. -/
def lotWideTrips (p : Profile) (a : Acc) : List Trip :=
  let sampled := p.minSample ≤ a.tested1
  let yieldLow := sampled && a.good1 * 1000 < p.yieldFloor * a.tested1
  let high := (List.range 16).filterMap fun b =>
    if sampled && vget p.ceilings 0 b * a.tested1 < vget a.hardBins 0 b * 1000 then some (Trip.binHigh b) else none
  let windowLow := a.window.length = p.window && a.winPass * 1000 < p.windowFloor * p.window
  let mismatch := p.mismatchLimit < a.mismatch
  ((if yieldLow then [Trip.yieldLow] else []) ++ high ++ (if windowLow then [Trip.windowLow] else []) ++
    (if mismatch then [Trip.binMismatch] else [])).filter fun t => !a.waived.contains t

/-- The check after a retest record: BIN_MISMATCH alone (R111). -/
def retestTrips (p : Profile) (a : Acc) : List Trip :=
  if p.mismatchLimit < a.mismatch && !a.waived.contains .binMismatch then [.binMismatch] else []

/-- Sum of a figure over the sites other than `site` (R116). -/
def othersSum (v : Vector SiteStat 16) (f : SiteStat → Nat) (site : Nat) : Nat :=
  (((List.range 16).filter (· ≠ site)).map fun i => f (vget v SiteStat.zero i)).sum

/-- SITE_SKEW of a site: the signed product comparison of R116. -/
def skewTrips (p : Profile) (v : Vector SiteStat 16) (site : Nat) : Bool :=
  let t := (vget v SiteStat.zero site).tested
  let g := (vget v SiteStat.zero site).good
  let tO := othersSum v SiteStat.tested site
  let gO := othersSum v SiteStat.good site
  0 < p.skewLimit && p.skewMin ≤ t && p.skewMin ≤ tO &&
    decide ((p.skewLimit * t * tO : Int) < ((gO * t : Int) - (g * tO : Int)) * 1000)

/-- The site checks of the record's own site (R116). -/
def siteTrips (p : Profile) (a : Acc) (cls : BinClass) (site : Nat) : List Trip :=
  let skew := skewTrips p a.sites site && !a.waived.contains (.siteSkew site)
  let run := 0 < p.consecLimit && cls != .pass && p.consecLimit ≤ (vget a.sites SiteStat.zero site).consec &&
    !a.waived.contains (.siteRun site)
  (if skew then [.siteSkew site] else []) ++ (if run then [.siteRun site] else [])

/-- FINAL_LOW at step end (R120). -/
def finalLow (p : Profile) (a : Acc) : Bool := a.finalGood * 1000 < p.finalFloor * a.unitsIn

/-- The quantity checks at step end: LOST_HIGH and RETEST_EXCESS (R120). -/
def quantityTrips (p : Profile) (a : Acc) : List Trip :=
  (if p.lostAllow < a.unitsIn - a.tested1 then [.lostHigh] else []) ++
    (if a.retestable1 < a.tested2 then [.retestExcess] else [])

/-- A retest is due at the end of a first pass (R87). -/
def retestDue (x : RouteStep) (a : Acc) : Bool := x.retest && 0 < a.retestable1 && !a.retestUsed

/-- RELEASE_LOW at release evaluation (R149). -/
def releaseLow (floor shipQty qty : Nat) : Bool := shipQty * 1000 < floor * qty

/-! ### Sets of trips -/

/-- A trip added to a set, kept once. -/
def addTrip (l : List Trip) (t : Trip) : List Trip := if l.contains t then l else l ++ [t]

/-- Trips added to a set, each kept once (R117, R131). -/
def addTrips (l : List Trip) (ts : List Trip) : List Trip := ts.foldl addTrip l

/-- The kinds a CONTINUE release waives (R125). -/
def waivable : Trip → Bool
  | .yieldLow | .binHigh _ | .binMismatch => true
  | .windowLow | .siteSkew _ | .siteRun _ | .finalLow | .lostHigh | .retestExcess | .releaseLow => false

/-! ### Judgements about cells -/

/-- A bin record's site is accepted: below the site count and in the enabled or the confirmed set (R54). -/
def siteAccepted (siteCount : Nat) (c : Cell) (site : Nat) : Bool :=
  site < siteCount && (c.enabled.getLsbD site || c.confirmed.getLsbD site)

/-- The cell holds a run: top, lower or incoming (R42). -/
def Cell.holdsRun (c : Cell) : Bool := !c.stack.isEmpty || c.incoming.isSome

/-- The calibration has lapsed: floor time set, expiry known, floor time at or after it (R52). -/
def lapsed (floorTime expiry : Option Nat) : Bool :=
  match floorTime, expiry with
  | some f, some e => e ≤ f
  | _, _ => false

/-- The loaded program is none or differs in number or revision (R66, R70). -/
def loadMismatch (c : Cell) (p : ProgVals) : Bool :=
  match c.loaded with
  | none => true
  | some v => v.number != p.number || v.rev != p.rev

/-- The installed kit is none or differs (R66, R70). -/
def kitMismatch (c : Cell) (kit : Nat) : Bool := c.kit != some kit

/-- The setpoint is unknown, differs, or is not at setpoint (R66, R70). -/
def soakMismatch (c : Cell) (t : Temp) : Bool := c.setpoint != some t || !c.atSetpoint

/-- The score of a pair (R66). -/
def scoreOf (c : Cell) (siteCount : Nat) (prog : ProgVals) (kit : Nat) (t : Temp) : Nat :=
  1000 - ((if loadMismatch c prog then 400 else 0) + (if kitMismatch c kit then 300 else 0) +
    (if soakMismatch c t then 100 else 0) + 20 * (siteCount - maskCount c.enabled))

/-- The pinning rules allow a pair of group and cell (R63). -/
def pinAllows (pins : List Pin) (g c : Nat) : Bool :=
  pins.all fun p => (p.group != g || p.cell == c) && (!(p.cell == c && p.exclusive) || p.group == g)

/-- A temperature is in a cell's ability (R36). -/
def tempAble (m : TempMask) (t : Temp) : Bool := m.getLsbD t.code

/-- No setup item is pending (R70). -/
def Items.clear (i : Items) : Bool := !i.load && !i.kit && !i.soak

/-! ### Counter conditions -/

/-- A value or sample meets a counter's threshold and invert flag (R198, R199). -/
def meets (c : CounterCfg) (v : Nat) : Bool := if c.invert then v < c.threshold else c.threshold ≤ v

/-- The greatest value of a 32-bit saturating count. -/
def maxCount : Nat := 4294967295

/-- A saturating 32-bit count increased (R179, R198, R199). -/
def bump (n by_ : Nat) : Nat := min maxCount (n + by_)

end Sys2Proof.Machine
end

