-- ==== Sys2Proof/Machine/Format.lean ====
section
/-! DEFINITION. The frames the part sends, in bytes: the floor-frame header (R202), the bodies of orders,
replies and notices (R203, R205), with the fields in the order their chapters list them. -/

namespace Sys2Proof.Machine

/-- A floor-frame header with the length of its body (R202). -/
def headerBytes (h : Header) (bodyLength : Nat) : List Byte :=
  numBytes 2 h.kind.toNat ++ numBytes 1 (destCode h.dest) ++ numBytes 1 h.cell ++ numBytes 2 h.handle ++
    numBytes 1 h.inst ++ numBytes 1 h.step ++ numBytes 2 bodyLength

/-! ### Orders -/

/-- The kind code of an order (R202). -/
def Order.kind : Order → Code16
  | .loadProgram _ => Kind.loadProgram
  | .kitCall _ => Kind.kitCall
  | .soak _ => Kind.soak
  | .startRun .. => Kind.startRun
  | .stopRun _ => Kind.stopRun
  | .siteMask _ => Kind.siteMask

/-- The body of an order (R70, R74, R48, R55): the lot's handle, number and step stand in the frame header alone, for
START_RUN too (R74; log entry 40). -/
def Order.bytes : Order → List Byte
  | .loadProgram v => progBytes v
  | .kitCall k => numBytes 1 k
  | .soak t => numBytes 1 t.code
  | .startRun p m u => numBytes 1 p.code ++ maskBytes 2 m ++ numBytes 4 u
  | .stopRun r => numBytes 1 r.code
  | .siteMask m => maskBytes 2 m

/-! ### Fields of lots -/

/-- A lot name: a length byte, then the characters (R203). -/
def nameBytes (n : List Byte) : List Byte := BitVec.ofNat 8 n.length :: n

/-- A trip entry: kind byte, then bin or site byte (R203). -/
def tripBytes (t : Trip) : List Byte := numBytes 1 t.code ++ numBytes 1 t.operand

/-- Whether a reason's entries carry a trip set (R130). -/
def HoldReason.hasTrips : HoldReason → Bool
  | .guard | .site => true
  | .equipment | .quantity | .engineering | .family | .interrupted => false

/-- A hold entry: the fields of R130; the trip set is a field present for GUARD and SITE only, the note
code a field that may be absent. -/
def holdBytes (e : HoldEntry) : List Byte :=
  numBytes 1 e.reason.code ++ numBytes 4 e.placed ++ numBytes 1 e.placedBy.code ++
    optBytes (listBytes tripBytes) (if e.reason.hasTrips then some e.trips else none) ++
    numBytes 1 e.repeats ++ optBytes (numBytes 2) e.note

/-- The saved return target in a message about a lot just held, whose list is not empty: never absent (R131, R132, R136), so
without a presence byte (R203). -/
def heldTarget (t : Option Target) : List Byte := t.elim [] fun x => numBytes 1 x.code

/-- A segment (R95). -/
def segmentBytes (g : Segment) : List Byte :=
  numBytes 1 g.cell ++ numBytes 2 g.number ++ numBytes 1 g.rev ++ numBytes 4 g.openAt ++
    optBytes (numBytes 4) (g.closed.map Prod.fst) ++ optBytes (fun c => numBytes 1 (CloseCause.code c)) (g.closed.map Prod.snd)

/-- A summary (R121), with its trip set or, for LOT_SCRAPPED, without it (R127). -/
def summaryBytes (withTrips : Bool) (m : Summary) : List Byte :=
  numBytes 1 m.step ++ numBytes 1 m.kind.code ++ numBytes 1 m.temp.code ++ numBytes 4 m.entering ++ numBytes 4 m.unitsIn ++
    numBytes 4 m.tested1 ++ numBytes 4 m.good1 ++ numBytes 4 m.retestable1 ++ numBytes 4 m.tested2 ++ numBytes 4 m.good2 ++
    numBytes 4 m.finalGood ++ numBytes 4 m.carried ++ optBytes (numBytes 2) (yieldPermille m.finalGood m.unitsIn) ++
    flagByte m.retestUsed ++ listBytes segmentBytes m.segments ++
    (if withTrips then listBytes tripBytes m.trips else []) ++ flagByte m.waived ++ flagByte m.reconciled

/-- Site statistics with the site's frozen state (R109, R177). -/
def siteBytes (v : Vector SiteStat 16) (frozen : Mask16) (i : Nat) : List Byte :=
  let s := vget v SiteStat.zero i
  numBytes 4 s.tested ++ numBytes 4 s.good ++ numBytes 1 s.consec ++ numBytes 4 s.frozen ++ flagByte (frozen.getLsbD i)

/-- The window as a LOT reply reports it: its member count and its PASS count (R177). -/
def windowCounts (a : Acc) : List Byte := numBytes 2 a.window.length ++ numBytes 2 a.winPass

/-- The window whole: its classes, oldest first, and its PASS count (R107, R127). Up to 256 classes stand behind a count of
2 bytes (log entry 39). -/
def windowBytes (a : Acc) : List Byte :=
  numBytes 2 a.window.length ++ a.window.flatMap (fun c => numBytes 1 c.code) ++ numBytes 2 a.winPass

/-- The accumulators in the order of R107, the 16 hard-bin counts and the 16 sites without a count byte (log entry 37). The
message decides how the per-site statistics and the window stand in it: `sites` is empty where R127 leaves them out. -/
def accBytes (a : Acc) (sites window : List Byte) : List Byte :=
  numBytes 4 a.entering ++ numBytes 4 a.unitsIn ++ numBytes 4 a.tested1 ++ numBytes 4 a.good1 ++ numBytes 4 a.retestable1 ++
    numBytes 4 a.tested2 ++ numBytes 4 a.good2 ++ a.hardBins.toList.flatMap (numBytes 4) ++ numBytes 2 a.mismatch ++
    numBytes 2 a.unmapped ++ sites ++ window ++ listBytes tripBytes a.trips ++
    listBytes tripBytes a.waived ++ flagByte a.retestUsed ++ flagByte a.qtyMark ++ optBytes (numBytes 4) a.fed1 ++
    optBytes (numBytes 4) a.fed2

/-- The running first-pass and retest yields of a LOT query (R107, R124). -/
def runningYields (a : Acc) : List Byte :=
  optBytes (numBytes 2) (yieldPermille a.good1 a.tested1) ++ optBytes (numBytes 2) (yieldPermille a.good2 a.tested2)

/-- The LOT query's reply body (R177): the ship quantity and the cumulative yield are two fields, each of which may be absent
(R203); the rework used flags stand without a count (log entry 16). -/
def lotReportBytes (r : LotReport) : List Byte :=
  let l := r.lot
  numBytes 1 l.state.code ++ nameBytes l.name ++ numBytes 1 l.route ++ numBytes 1 l.cls ++ numBytes 4 l.qty ++
    optBytes (numBytes 2) l.note ++ numBytes 1 l.step ++ numBytes 1 l.pass.code ++ numBytes 1 l.setupFails ++
    numBytes 4 l.arrival ++ flagByte l.mark ++ optBytes (numBytes 4) l.completion ++ flagByte l.relPending ++
    optBytes (numBytes 4) (r.ship.map Prod.fst) ++ optBytes (numBytes 2) (r.ship.map Prod.snd) ++ listBytes holdBytes l.holds ++
    optBytes (fun t => numBytes 1 (Target.code t)) l.target ++ l.reworked.toList.flatMap flagByte ++
    accBytes l.acc ((List.range 16).flatMap (siteBytes l.acc.sites r.frozen)) (windowCounts l.acc) ++ runningYields l.acc ++
    listBytes segmentBytes l.segments ++ numBytes 1 l.summaries.length ++ listBytes (summaryBytes true) r.page ++ flagByte r.more

/-! ### Cells -/

/-- A run with its marks (R84, R177). -/
def runBytes (r : Run) : List Byte :=
  numBytes 2 r.handle ++ numBytes 1 r.inst ++ numBytes 1 r.step ++ numBytes 1 r.pass.code ++ flagByte r.segOpen ++
    flagByte r.awaiting ++ optBytes (fun x : Pass × Nat => numBytes 1 x.1.code ++ numBytes 4 x.2) r.stopped

def ctxBytes (c : Ctx) : List Byte :=
  numBytes 2 c.handle ++ numBytes 1 c.inst ++ numBytes 1 c.step ++ numBytes 1 c.pass.code

/-- The pending setup items as a set: bit 0 LOAD, bit 1 KIT, bit 2 SOAK (R38, R203). -/
def itemsNum (i : Items) : Nat := (if i.load then 1 else 0) + (if i.kit then 2 else 0) + (if i.soak then 4 else 0)

/-- The seven timers: idle, or running with the remaining seconds (R58). -/
def timersBytes (t : Timers) : List Byte :=
  optBytes (numBytes 2) t.silence ++ optBytes (numBytes 2) t.load ++ optBytes (numBytes 2) t.kit ++
    optBytes (numBytes 2) t.soak ++ optBytes (numBytes 2) t.start ++ optBytes (numBytes 2) t.stop ++ optBytes (numBytes 2) t.jam

/-- The CELL query's reply body: the fields of R38 with the stack bottom first, then the registration, the
outstanding load order with its current-setup mark (R71; log entry 36), and the drop count with the latest reason, 255
for none (R177, R204). The run stack, incoming run, timers and stream context, which R177 names beside the fields of R38,
are sent once, at their places among them (log entry 50). -/
def cellReportBytes (c : Cell) (reg : Option Registration) : List Byte :=
  numBytes 1 c.state.code ++ optBytes (fun x => numBytes 1 (FaultCause.code x)) c.cause ++ optBytes flagByte c.testerReady ++
    optBytes (fun x => numBytes 1 (Handler.code x)) c.handler ++ optBytes (numBytes 1) c.kit ++ optBytes progBytes c.loaded ++
    optBytes (fun t => numBytes 1 (Temp.code t) ++ flagByte c.atSetpoint) c.setpoint ++ optBytes (numBytes 4) c.expiry ++
    maskBytes 2 c.enabled ++ maskBytes 2 c.confirmed ++ flagByte c.reportPending ++ listBytes runBytes c.stack.reverse ++
    optBytes runBytes c.incoming ++ optBytes ctxBytes c.ctx ++ numBytes 1 (itemsNum c.items) ++
    optBytes (fun x => numBytes 1 (StopReason.code x)) c.stopReason ++ timersBytes c.timers ++
    (match reg with
     | none => [0]
     | some r => 1 :: registrationBytes r) ++
    optBytes (fun v => progBytes v ++ flagByte c.orderCurrent) c.order ++ numBytes 2 c.drops ++ numBytes 1 ((c.lastDrop.map Drop.code).getD 255)

/-! ### Release records -/

/-- A step entry of a release record (R154). -/
def recordStepBytes (x : RecordStep) : List Byte :=
  numBytes 1 x.kind.code ++ numBytes 1 x.temp.code ++ numBytes 4 x.unitsIn ++ numBytes 4 x.finalGood ++
    optBytes (numBytes 2) (yieldPermille x.finalGood x.unitsIn) ++ flagByte x.retestUsed ++
    listBytes (fun g : Segment => numBytes 1 g.cell ++ numBytes 2 g.number ++ numBytes 1 g.rev) x.segments

/-- A release record (R154). -/
def recordBytes (r : Record) : List Byte :=
  numBytes 2 r.handle ++ numBytes 1 r.inst ++ nameBytes r.name ++ numBytes 1 r.group ++ numBytes 2 r.family ++
    numBytes 1 r.route ++ numBytes 4 r.qty ++ numBytes 4 r.shipQty ++ numBytes 2 r.cumYield ++ numBytes 4 r.releaseTime ++
    flagByte r.waived ++ flagByte r.reworked ++ listBytes recordStepBytes r.steps

/-! ### Replies -/

/-- A named value of two, numbered in the order its table lists them: 0 for the first (R203). -/
def firstOfTwo (first : Bool) : List Byte := numBytes 1 (if first then 0 else 1)

/-- The part report of the PART query (R179): the inhibit line is asserted (0) or released (1), READY high (0) or low (1), in
the order R179 lists them; the counts of a port stand without a count byte (log entry 37). -/
def partReportBytes (r : PartReport) : List Byte :=
  numBytes 1 r.mode.code ++ optBytes (numBytes 4) r.floorTime ++ numBytes 4 r.timeRejected ++ maskBytes 6 r.address ++
    firstOfTwo r.inhibited ++ numBytes 1 (levelCode r.level) ++ firstOfTwo r.ready ++
    (match r.storeBusy with
     | none => [0]
     | some (t, e) => 1 :: (numBytes 1 t ++ numBytes 1 e)) ++
    numBytes 1 r.check.code ++ numBytes 2 r.floorDepth ++ numBytes 2 r.plantDepth ++ r.floorCounts.flatMap (numBytes 4) ++
    r.plantCounts.flatMap (numBytes 4) ++ numBytes 2 r.noticeSeq ++ numBytes 4 r.discards

def writeNoteBytes : WriteNote → List Byte
  | .none => []
  | .exchanged n => numBytes 1 n
  | .window f w => flagByte f ++ numBytes 2 w

def readNoteBytes : ReadNote → List Byte
  | .none => []
  | .useCount n => numBytes 2 n
  | .inUse b => flagByte b
  | .group s p u => numBytes 1 s.code ++ flagByte p ++ flagByte u
  | .factory b => flagByte b

/-- The reply body that follows the reply header (R205). Floor time is set after every TIME that is taken (R193), so the TIME
reply carries it without a presence byte. The rows of COUNTERS stand without a count byte, and a row's source and mode share
one presence byte (log entries 37 and 38). The saved return target may be absent of a RELEASE reply (R140), not of a HOLD reply. -/
def ReplyBody.bytes : ReplyBody → List Byte
  | .empty => []
  | .lotOrder h i c => numBytes 2 h ++ numBytes 1 i ++ numBytes 1 c
  | .sweep l => listBytes (fun x : Nat × Nat × LotState => numBytes 2 x.1 ++ numBytes 1 x.2.1 ++ numBytes 1 x.2.2.code) l
  | .tableRef t n e => numBytes 1 t ++ numBytes 1 n ++ numBytes 1 e
  | .tableWrite t n e w => numBytes 1 t ++ numBytes 1 n ++ numBytes 1 e ++ writeNoteBytes w
  | .tableRead t n e c w => numBytes 1 t ++ numBytes 1 n ++ numBytes 1 e ++ areaBytes e c ++ readNoteBytes w
  | .hold s r n t => numBytes 1 s.code ++ numBytes 1 r ++ numBytes 1 n ++ heldTarget t
  | .release s n t => numBytes 1 s.code ++ numBytes 1 n ++ optBytes (fun x => numBytes 1 (Target.code x)) t
  | .scrap h i => numBytes 2 h ++ numBytes 1 i
  | .groupHold n => numBytes 1 n
  | .groupRelease r e => numBytes 1 r ++ numBytes 1 e
  | .shipConfirm h i n d => numBytes 2 h ++ numBytes 1 i ++ numBytes 1 n ++ numBytes 1 d
  | .lot r => lotReportBytes r
  | .cell c r => cellReportBytes c r
  | .queue n p m => numBytes 2 n ++ numBytes 2 p.length ++ p.flatMap (fun x => numBytes 2 x.1 ++ numBytes 1 x.2) ++ flagByte m
  | .ship d p m q mp n => numBytes 1 d ++ listBytes recordBytes p ++ flagByte m ++
      listBytes (fun x : PendMember => numBytes 2 x.handle ++ numBytes 1 x.inst ++ numBytes 4 x.completion) q ++ flagByte mp ++
      numBytes 2 n
  | .counters l => l.flatMap fun x => numBytes 4 x.1 ++
      optBytes (fun y : Source × CounterMode => numBytes 1 y.1.code ++ numBytes 1 y.2.code) x.2
  | .part r => partReportBytes r
  | .time f j => numBytes 4 (f.getD 0) ++ flagByte j
  | .restart m => numBytes 1 m.code

/-- The body of a REPLY: the 5-byte reply header and the reply body (R205). -/
def Reply.bytes (r : Reply) : List Byte :=
  numBytes 2 r.kind.toNat ++ numBytes 2 r.tag ++ numBytes 1 r.code.code ++ r.body.bytes

/-! ### Notices -/

def lotRefBytes (l : LotRef) : List Byte :=
  numBytes 2 l.handle ++ numBytes 1 l.inst ++ nameBytes l.name ++ numBytes 1 l.group

/-- The contents of a notice (R91, R127, R131, R143, R148, R157, R45, R55, R169, R186). The handle and the instance of a
CELL_FAULT are two fields, each of which may be absent (R45, R203). PART_STARTED has one layout, that of R186, at a RESTART too (log
entry 53). -/
def NoticeBody.bytes : NoticeBody → List Byte
  | .partStarted k m c f a => numBytes 1 k.code ++ numBytes 1 m.code ++ numBytes 1 c.code ++ optBytes (numBytes 4) f ++
      maskBytes 6 a
  | .storedImageBad c => numBytes 1 c.code
  | .lotHeld l f e s t => lotRefBytes l ++ numBytes 2 f ++ numBytes 1 e.reason.code ++ numBytes 1 e.placedBy.code ++
      optBytes (listBytes tripBytes) (if e.reason.hasTrips then some e.trips else none) ++ optBytes (numBytes 2) e.note ++
      numBytes 1 s.code ++ heldTarget t
  | .lotStepDone l s c m f1 f2 => lotRefBytes l ++ numBytes 1 s ++ numBytes 1 c ++ summaryBytes true m ++
      optBytes (numBytes 4) f1 ++ optBytes (numBytes 4) f2
  | .lotComplete l r q t s y => lotRefBytes l ++ numBytes 1 r ++ numBytes 4 q ++ numBytes 4 t ++ numBytes 4 s ++ numBytes 2 y
  | .shipReady r => recordBytes r
  | .lotScrapped l f es ms a => lotRefBytes l ++ numBytes 2 f ++ listBytes holdBytes es ++ listBytes (summaryBytes false) ms ++
      accBytes a [] (windowBytes a) ++ optBytes (numBytes 2) (yieldPermille a.finalGood a.unitsIn)
  | .cellFault c x l => numBytes 1 c ++ numBytes 1 x.code ++
      optBytes (numBytes 2) (l.map Prod.fst) ++ optBytes (numBytes 1) (l.map Prod.snd)
  | .siteDemoted c s m h i => numBytes 1 c ++ numBytes 1 s ++ maskBytes 2 m ++ numBytes 2 h ++ numBytes 1 i
  | .interlock k c h i s a => numBytes 2 k.toNat ++ numBytes 1 c ++ numBytes 2 h ++ numBytes 1 i ++ numBytes 1 s ++ maskBytes 6 a

/-- The body of a NOTICE: the 8-byte notice header and the contents (R205). -/
def Notice.bytes (n : Notice) : List Byte :=
  numBytes 1 n.body.code ++ numBytes 2 n.seq ++ flagByte n.floorTime.isSome ++ numBytes 4 (n.floorTime.getD 0) ++ n.body.bytes

/-- The frame-header fields of a notice: the lot and the cell it concerns, 255, 65,535, 0 and 255 for what it
does not fill in (R205). -/
def noticeHeader (b : NoticeBody) : Header :=
  let lot (r : LotRef) (step : Nat) : Header := ⟨Kind.notice, .plant, 255, r.handle, r.inst, step⟩
  match b with
  | .partStarted .. => ⟨Kind.notice, .plant, 255, 65535, 0, 255⟩
  | .storedImageBad _ => ⟨Kind.notice, .plant, 255, 65535, 0, 255⟩
  | .lotHeld l .. => lot l 255
  | .lotStepDone l s .. => lot l s
  | .lotComplete l .. => lot l 255
  | .shipReady r => ⟨Kind.notice, .plant, 255, r.handle, r.inst, 255⟩
  | .lotScrapped l .. => lot l 255
  | .cellFault c _ (some (h, i)) => ⟨Kind.notice, .plant, c, h, i, 255⟩
  | .cellFault c _ none => ⟨Kind.notice, .plant, c, 65535, 0, 255⟩
  | .siteDemoted c _ _ h i => ⟨Kind.notice, .plant, c, h, i, 255⟩
  | .interlock _ c h i s _ => ⟨Kind.notice, .plant, c, h, i, s⟩

/-! ### Frames -/

/-- The data of a frame as it is sent (R202). -/
def Payload.bytes : Payload → List Byte
  | .foreign d => d
  | .forwarded h b p => headerBytes h b.length ++ b ++ p
  | .order h o => headerBytes h o.bytes.length ++ o.bytes
  | .reply h r => headerBytes h r.bytes.length ++ r.bytes
  | .notice h n => headerBytes h n.bytes.length ++ n.bytes

/-- A frame as its port sends it. -/
def Frame.wire (f : Frame) : RawFrame := ⟨f.dst, f.src, f.etype, f.payload.bytes⟩

end Sys2Proof.Machine
end

