-- ==== Sys2Proof/Machine/Ops.lean ====
section
/-! DEFINITION. The named operations every rule is written over: reading and changing one lot, one cell, one
table entry; counter events (R198); the forwarding queues (R170); orders, replies and notices (R173,
R181, R202); timers (R58); the dispatch queue (R60, R61). -/

namespace Sys2Proof.Machine

/-! ### Slots and lots -/

/-- A slot outside the 512: never live (R1). -/
def Slot.none : Slot := ⟨0, Option.none⟩

def State.slot (s : State) (h : Nat) : Slot := vget s.ldr.slots Slot.none h

/-- The lot in the slot of a handle, `none` while FREE (R2). -/
def State.lot? (s : State) (h : Nat) : Option Lot := (s.slot h).lot

def State.modSlot (s : State) (h : Nat) (f : Slot → Slot) : State :=
  { s with ldr := { s.ldr with slots := vmod s.ldr.slots h f } }

/-- The lot of a handle changed; nothing happens to a FREE slot. -/
def State.modLot (s : State) (h : Nat) (f : Lot → Lot) : State :=
  s.modSlot h fun x => { x with lot := x.lot.map f }

def State.modAcc (s : State) (h : Nat) (f : Acc → Acc) : State := s.modLot h fun l => { l with acc := f l.acc }

/-- The group of a handle (R1). -/
def groupOf (h : Nat) : Nat := h / 16

/-! ### Tables -/

/-- A group directory entry; a group above 31 has none and is treated as UNBOUND (R1). -/
def State.group (s : State) (g : Nat) : GroupEntry := vget s.tst.groups GroupEntry.empty g

def State.modGroup (s : State) (g : Nat) (f : GroupEntry → GroupEntry) : State :=
  { s with tst := { s.tst with groups := vmod s.tst.groups g f } }

def State.route? (s : State) (r : Nat) : Option Route := vget s.tst.routes none r
def State.program? (s : State) (p : Nat) : Option Program := vget s.tst.programs none p
def State.binMap? (s : State) (m : Nat) : Option (List BinRange) := vget s.tst.binMaps none m
def State.profile? (s : State) (p : Nat) : Option Profile := vget s.tst.profiles none p
def State.reg? (s : State) (c : Nat) : Option Registration := vget s.tst.regs none c

/-- A step no table names: a lot's route and every entry its steps name are filled while the lot lives (R15),
so this stands for no reachable step. -/
def RouteStep.none : RouteStep := ⟨.test, .cold, 0, 0, 0, 0, false, Option.none⟩

/-- Step `i` of a route entry (R23). -/
def State.routeStep (s : State) (route i : Nat) : RouteStep :=
  match s.route? route with
  | some r => r.steps.getD i RouteStep.none
  | Option.none => RouteStep.none

/-- The number of steps of a route entry (R22). -/
def State.stepCount (s : State) (route : Nat) : Nat :=
  match s.route? route with
  | some r => r.steps.length
  | Option.none => 0

/-- The step a lot stands at. -/
def State.lotStep (s : State) (l : Lot) : RouteStep := s.routeStep l.route l.step

/-- A profile no table names (see `RouteStep.none`). -/
def Profile.none : Profile := ⟨1, 0, Vector.replicate 16 1000, 16, 0, 0, 1, 0, 1, 0, 1000, 255⟩

def State.profileOf (s : State) (x : RouteStep) : Profile := (s.profile? x.profile).getD Profile.none

/-- A program no table names (see `RouteStep.none`). -/
def Program.none : Program := ⟨⟨0, 0, 0⟩, 0, 100⟩

def State.programOf (s : State) (x : RouteStep) : Program := (s.program? x.program).getD Program.none

def State.binMapOf (s : State) (x : RouteStep) : List BinRange := (s.binMap? x.binMap).getD []

/-! ### Cells -/

/-- A cell number above 47 names no record. -/
def State.cell (s : State) (c : Nat) : Cell := vget s.ctr (Cell.reset 0) c

def State.modCell (s : State) (c : Nat) (f : Cell → Cell) : State := { s with ctr := vmod s.ctr c f }

def State.modTimers (s : State) (c : Nat) (f : Timers → Timers) : State :=
  s.modCell c fun x => { x with timers := f x.timers }

/-- The top run of a cell (R38). -/
def State.top? (s : State) (c : Nat) : Option Run := (s.cell c).stack.head?

/-- The top run changed. -/
def State.modTop (s : State) (c : Nat) (f : Run → Run) : State :=
  s.modCell c fun x => { x with stack := match x.stack with
    | [] => []
    | r :: rest => f r :: rest }

/-- The site count of a cell, 0 while it is not registered (R36). -/
def State.siteCount (s : State) (c : Nat) : Nat := match s.reg? c with
  | some r => r.siteCount
  | Option.none => 0

/-- The cell whose record meets a test, the lowest number first. -/
def State.findCell (s : State) (p : Cell → Bool) : Option Nat := (List.range 48).find? fun c => p (s.cell c)

/-- The cell whose top run is the lot's. -/
def State.cellOfTop (s : State) (h : Nat) : Option Nat :=
  s.findCell fun x => (x.stack.head?.map Run.handle) == some h

/-- The cell whose lower run is the lot's. -/
def State.cellOfLower (s : State) (h : Nat) : Option Nat :=
  s.findCell fun x => x.stack.tail.any fun r => r.handle == h

/-- The cell whose incoming run is the lot's. -/
def State.cellOfIncoming (s : State) (h : Nat) : Option Nat :=
  s.findCell fun x => (x.incoming.map Run.handle) == some h

/-- The stream context cleared (R103). -/
def State.clearCtx (s : State) (c : Nat) : State := s.modCell c fun x => { x with ctx := none }

/-! ### Floor time -/

/-- Floor time, 0 while it is unset (R2, R61, R130). -/
def State.now (s : State) : Nat := s.tbs.floorTime.getD 0

/-! ### Floor counters -/

/-- One counter's value after an event: it counts when the counter's entry holds the source and the value meets
threshold and invert, saturating (R198). -/
def counted (cfg : Option CounterCfg) (e : EventSource) (v n : Nat) : Nat :=
  match cfg with
  | some c => if c.source = .event e ∧ meets c v then bump n 1 else n
  | none => n

/-- An event of a source reaches each counter (R198). -/
def State.event (s : State) (e : EventSource) (v : Nat) : State :=
  { s with fcn := { s.fcn with
    values := Vector.ofFn fun i => counted (vget s.tst.counters none i.val) e v (vget s.fcn.values 0 i.val) } }

/-! ### Forwarding queues, orders, replies, notices -/

/-- The capacity of a forwarding queue (R170). -/
def queueCapacity : Nat := 256

/-- A frame offered to the queue of a port; a full queue drops it, counts it and draws a PORT_DROP event
(R170). -/
def State.enqueue (s : State) (port : Port) (f : Frame) : State :=
  match port with
  | .floor =>
    if s.pcl.floorQ.length < queueCapacity then { s with pcl := { s.pcl with floorQ := s.pcl.floorQ ++ [f] } }
    else ({ s with pcl := { s.pcl with floorDrops := bump s.pcl.floorDrops 1 } } : State).event .portDrop (portCode .floor)
  | .plant =>
    if s.pcl.plantQ.length < queueCapacity then { s with pcl := { s.pcl with plantQ := s.pcl.plantQ ++ [f] } }
    else ({ s with pcl := { s.pcl with plantDrops := bump s.pcl.plantDrops 1 } } : State).event .portDrop (portCode .plant)

/-- A floor frame as it is passed on, with the addresses, type, header and padding it arrived with (R165). -/
def forwardedFrame (s : State) (kind : Code16) (m : Msg) (body : List Byte) : Frame where
  dst     := m.dst
  src     := m.src
  etype   := s.tst.settings.frameType
  payload := .forwarded ⟨kind, m.dest, m.cell.toNat, m.handle.toNat, m.inst.toNat, m.step.toNat⟩ body m.pad

/-- A message from the floor port forwarded to the plant port (R165). -/
def State.forward (s : State) (kind : Code16) (m : Msg) (body : List Byte) : State :=
  s.enqueue .plant (forwardedFrame s kind m body)

/-- The lot, slot number and step an order names; an order that names no lot carries 65,535, 0 and 255
(R202). -/
def orderHeader (kind : Code16) (c : Nat) : Option Run → Header
  | some r => ⟨kind, .cell, c, r.handle, r.inst, r.step⟩
  | none => ⟨kind, .cell, c, 65535, 0, 255⟩

/-- An order to a cell, into the floor-bound queue (R70, R202). -/
def State.order (s : State) (c : Nat) (run : Option Run) (o : Order) : State :=
  s.enqueue .floor ⟨((s.reg? c).map Registration.addr).getD 0, Config.stationAddress, s.tst.settings.frameType,
    .order (orderHeader o.kind c run) o⟩

/-- A notice is produced: it takes the next sequence number, and is queued, or discarded and counted (R181). -/
def State.notice (s : State) (b : NoticeBody) : State :=
  let n : Notice := ⟨s.pcl.noticeSeq, s.tbs.floorTime, b⟩
  let f : Frame := ⟨s.tst.settings.mgmtAddr, Config.stationAddress, s.tst.settings.frameType, .notice (noticeHeader b) n⟩
  let s := { s with pcl := { s.pcl with noticeSeq := (s.pcl.noticeSeq + 1) % 65536 } }
  if s.tst.settings.mgmtAddr = 0 ∨ s.pcl.plantLink = false then
    { s with pcl := { s.pcl with discards := bump s.pcl.discards 1 } }
  else s.enqueue .plant f

/-- The request reference of a management request, with its tag (R172, R173). -/
def reqRef (m : Msg) (tag : Nat) : ReqRef := ⟨m.src, m.cell.toNat, m.handle.toNat, m.inst.toNat, m.step.toNat, tag⟩

/-- A REPLY, of the given frame type, to the source of its request (R173, R202, R205). -/
def State.replyAs (s : State) (etype : Code16) (kind : Code16) (ref : ReqRef) (code : ReplyCode) (body : ReplyBody) : State :=
  s.enqueue .plant ⟨ref.src, Config.stationAddress, etype,
    .reply ⟨Kind.reply, .plant, ref.cell, ref.handle, ref.inst, ref.step⟩ ⟨kind, ref.tag, code, body⟩⟩

/-- A REPLY of the frame type in force (R202). -/
def State.reply (s : State) (kind : Code16) (ref : ReqRef) (code : ReplyCode) (body : ReplyBody) : State :=
  s.replyAs s.tst.settings.frameType kind ref code body

/-! ### Dispatch passes and the dispatch queue -/

/-- A dispatch pass is started (R67); it is taken when the step's other work is done (log entry 10). -/
def State.startPass (s : State) : State := { s with dar := { s.dar with passDue := true } }

/-- The place of one member before another: class, arrival time, handle (R60). -/
def Member.before (a b : Member) : Bool :=
  a.cls < b.cls || (a.cls == b.cls && (a.arrival < b.arrival || (a.arrival == b.arrival && a.handle < b.handle)))

/-- A member joining takes the place its fields give it (R60). -/
def joinMember (x : Member) : List Member → List Member
  | [] => [x]
  | y :: r => if x.before y then x :: y :: r else y :: joinMember x r

/-- A lot becomes WAITING and joins the queue, with a new arrival time or keeping its own; a pass is started
(R61, R67). -/
def State.joinQueue (s : State) (h : Nat) (newArrival : Bool) : State :=
  let s := s.modLot h fun l => { l with state := .waiting, arrival := if newArrival then s.now else l.arrival }
  match s.lot? h with
  | some l => ({ s with dar := { s.dar with
      queue := joinMember ⟨h, (s.slot h).inst, l.cls, l.arrival, l.pass⟩ s.dar.queue } } : State).startPass
  | none => s

/-- A lot leaves the queue; the gap closes (R60). -/
def State.leaveQueue (s : State) (h : Nat) : State :=
  { s with dar := { s.dar with queue := s.dar.queue.filter fun m => m.handle != h } }

/-- A lot takes a state. -/
def State.setLotState (s : State) (h : Nat) (st : LotState) : State := s.modLot h fun l => { l with state := st }

/-! ### Cell states and timers -/

/-- A cell enters a state. What belongs to the state it leaves goes with it: the start timer outside STARTING,
the stop timer and stop reason outside STOPPING, the jam timer outside PAUSED, the cause outside FAULT, the
pending setup items and their timers outside SETUP (R38, R45, R58). -/
def Cell.enter (x : Cell) (st : CellState) : Cell :=
  { x with
    state      := st
    cause      := if st = .fault then x.cause else none
    stopReason := if st = .stopping then x.stopReason else none
    items      := if st = .setup then x.items else Items.none
    timers     := { x.timers with
      load  := if st = .setup then x.timers.load else none
      kit   := if st = .setup then x.timers.kit else none
      soak  := if st = .setup then x.timers.soak else none
      start := if st = .starting then x.timers.start else none
      stop  := if st = .stopping then x.timers.stop else none
      jam   := if st = .paused then x.timers.jam else none } }

/-- The outstanding load order of a cell is cleared; if the cell is IDLE a pass is started (R71). -/
def State.clearOrder (s : State) (c : Nat) : State :=
  let wasIdle := (s.cell c).state = .idle ∧ (s.cell c).order.isSome
  let s := s.modCell c fun x => { x with order := none, orderCurrent := false }
  if wasIdle then s.startPass else s

/-- A cell enters IDLE, which starts a dispatch pass (R39). -/
def State.toIdle (s : State) (c : Nat) : State := (s.modCell c fun x => x.enter .idle).startPass

/-- A cell enters RUNNING; with one run on its stack a pass is started (R67). -/
def State.toRunning (s : State) (c : Nat) : State :=
  let s := s.modCell c fun x => x.enter .running
  if (s.cell c).stack.length = 1 then s.startPass else s

/-- A cell enters OFFLINE: every timer idle, context and outstanding load order cleared (R49, R71, R103). -/
def State.toOffline (s : State) (c : Nat) : State :=
  s.modCell c fun x => { x.enter .offline with timers := Timers.idle, ctx := none, order := none, orderCurrent := false }

/-- A cell enters FAULT, or changes its cause within it: every timer but silence stops, the pending items, stop
reason, context and outstanding load order are cleared, CELL_FAULT is sent, and an unowned run is sent
STOP_RUN with reason UNOWNED (R45, R71). -/
def State.toFault (s : State) (c : Nat) (cause : FaultCause) (lot : Option (Nat × Nat)) : State :=
  let s := s.modCell c fun x => { x.enter .fault with
    cause := some cause, timers := { Timers.idle with silence := x.timers.silence }, ctx := none, order := none,
    orderCurrent := false }
  let s := s.notice (.cellFault c cause lot)
  if cause = .unownedRun then s.order c none (.stopRun .unowned) else s

/-- A stop of the cell's top run is requested (R48): in STARTING, RUNNING and PAUSED STOP_RUN is sent and the
cell enters STOPPING with the stop timer started; in STOPPING nothing more is sent. -/
def State.requestStop (s : State) (c : Nat) (reason : StopReason) : State :=
  match (s.cell c).state, s.top? c with
  | .starting, some r | .running, some r | .paused, some r =>
    (s.modCell c fun x => { x.enter .stopping with
      stopReason := some reason,
      timers := { (x.enter .stopping).timers with stop := some s.tst.settings.stop } }).order c (some r) (.stopRun reason)
  | _, _ => s

/-- The top run leaves the stack: a run change, which clears the context, and the current-setup mark with it
(R71, R84). -/
def State.popTop (s : State) (c : Nat) : State :=
  s.modCell c fun x => { x with stack := x.stack.tail, ctx := none, orderCurrent := false }

/-- A run is pushed on the stack (R69, R80, R84). -/
def State.pushRun (s : State) (c : Nat) (r : Run) : State :=
  s.modCell c fun x => { x with stack := r :: x.stack, ctx := none }

/-- A new run of a lot, without marks (R69, R84). -/
def Run.new (h inst step : Nat) (pass : Pass) : Run := ⟨h, inst, step, pass, false, false, none⟩

/-! ### Lookup (R8) -/

/-- The lookup's failures. -/
inductive Lookup where
  | unknownGroup
  | unknownLot
  | stale
  | found (l : Lot)
  deriving DecidableEq, Repr

/-- The three checks of R8, the first that fails deciding. -/
def State.lookup (s : State) (h inst : Nat) : Lookup :=
  if 32 ≤ groupOf h ∨ (s.group (groupOf h)).state = .unbound then .unknownGroup
  else match s.lot? h with
    | none => .unknownLot
    | some l => if (s.slot h).inst = inst then .found l else .stale

/-- The reply code of a failed lookup (R8). -/
def Lookup.replyCode : Lookup → ReplyCode
  | .unknownGroup => .unknownGroup
  | .unknownLot => .unknownLot
  | .stale => .stale
  | .found _ => .ok

/-- The drop reason of a failed lookup (R8, R85, R99). -/
def Lookup.drop : Lookup → Drop
  | .unknownGroup => .unknownGroup
  | .unknownLot => .unknownLot
  | .stale => .stale
  | .found _ => .counted

/-- The lot of a handle is live and its slot carries the number. -/
def State.lotRef (s : State) (h : Nat) (l : Lot) : LotRef := ⟨h, (s.slot h).inst, l.name, groupOf h⟩

/-- The cell check of R40: below 48, registered, and the frame's source is the registered address. -/
def State.cellCheck (s : State) (m : Msg) : Bool :=
  m.cell.toNat < 48 && match s.reg? m.cell.toNat with
    | some r => r.addr == m.src
    | none => false

/-- The lot numbers of a group's live lots, in ascending handle order (R1). -/
def groupHandles (g : Nat) : List Nat := (List.range 16).map fun i => g * 16 + i

/-- The group has a live lot (R5). -/
def State.groupLive (s : State) (g : Nat) : Bool := (groupHandles g).any fun h => (s.lot? h).isSome

end Sys2Proof.Machine
end

