-- ==== Sys2Proof/Machine/Holds.lean ====
section
/-! DEFINITION. The hold list (R129 to R132, R134): placing or merging an entry, the LOT_HELD notice, a lot
becoming HELD, removing an entry (R147). What a hold does to the lot's place on the floor (R133) stands in
Machine/HoldEffect.lean. -/

namespace Sys2Proof.Machine

/-- A hold as the rule that draws it hands it to the hold unit (R131). -/
structure NewHold where
  reason   : HoldReason
  placedBy : PlacedBy
  trips    : List Trip
  note     : Option Nat
  deriving DecidableEq, Repr

/-- The lot holds an entry of the reason (R129). -/
def Lot.hasHold (l : Lot) (r : HoldReason) : Bool := l.holds.any fun e => e.reason == r

/-- The entry of a reason. -/
def Lot.hold? (l : Lot) (r : HoldReason) : Option HoldEntry := l.holds.find? fun e => e.reason == r

/-- A hold merged into the entry of its reason: repeat count up to 255, trip kinds kept once, a carried note
code replacing the entry's (R131 step 1). -/
def mergeHold (e : HoldEntry) (n : NewHold) : HoldEntry :=
  { e with repeats := min 255 (e.repeats + 1), trips := addTrips e.trips n.trips, note := n.note.or e.note }

/-- The hold list after a hold is taken (R131 steps 1 and 2). -/
def placeEntry (holds : List HoldEntry) (n : NewHold) (now : Nat) : List HoldEntry :=
  if holds.any fun e => e.reason == n.reason then holds.map fun e => if e.reason == n.reason then mergeHold e n else e
  else holds ++ [⟨n.reason, now, n.placedBy, n.trips, 1, n.note⟩]

/-- The return target the first entry of a list gives a lot (R132). -/
def firstTarget : LotState → Target
  | .complete => .complete
  | .waiting | .assigned | .running | .preempted | .held | .released => .resume

/-- A hold added or merged on a lot: list, return target, activity mark and HOLD_PLACED event (R131 steps 1
to 4). -/
def State.addHold (s : State) (h : Nat) (n : NewHold) : State :=
  (s.modLot h fun l => { l with
    holds  := placeEntry l.holds n s.now
    target := if l.holds.isEmpty then some (firstTarget l.state) else l.target
    mark   := true }).event .holdPlaced n.reason.code

/-- A hold is a new entry of the lot's list, not a merge (R131). -/
def State.isNewHold (s : State) (h : Nat) (r : HoldReason) : Bool :=
  match s.lot? h with
  | some l => !l.hasHold r
  | none => false

/-- The LOT_HELD notice for the entry of a reason, with the lot state as the placement leaves it (R131 step 5). -/
def State.heldNotice (s : State) (h : Nat) (r : HoldReason) (after : LotState) : State :=
  match s.lot? h with
  | some l => match l.hold? r with
    | some e => s.notice (.lotHeld (s.lotRef h l) (s.group (groupOf h)).family e after l.target)
    | none => s
  | none => s

/-- A hold placed by a rule that itself takes the lot off its cell or out of its place: no STOP_RUN, and the
lot is HELD afterwards (R134), and LOT_HELD says so (log entry 41). -/
def State.placeQuiet (s : State) (h : Nat) (n : NewHold) : State :=
  let fresh := s.isNewHold h n.reason
  let s := s.addHold h n
  if fresh then s.heldNotice h n.reason .held else s

/-- A lot leaves the release-pending set, its flag cleared (R153). -/
def State.leavePending (s : State) (h : Nat) : State :=
  let s := { s with rlu := { s.rlu with pend := s.rlu.pend.filter fun m => m.handle != h } }
  s.modLot h fun l => { l with relPending := false }

/-- A lot becomes HELD; a COMPLETE lot leaves the release-pending set (R133, R151). -/
def State.toHeld (s : State) (h : Nat) : State := (s.leavePending h).setLotState h .held

/-- The lot has hold entries. -/
def State.hasHolds (s : State) (h : Nat) : Bool :=
  match s.lot? h with
  | some l => !l.holds.isEmpty
  | none => false

/-- An entry leaves the list: the others keep their order, HOLD_RELEASED is counted, and an empty list carries
no return target (R132, R147). -/
def State.removeEntry (s : State) (h : Nat) (r : HoldReason) : State :=
  (s.modLot h fun l =>
    let rest := l.holds.filter fun e => e.reason != r
    { l with holds := rest }).event .holdReleased r.code

/-- The saved return target is discarded (R132, R144). -/
def State.dropTarget (s : State) (h : Nat) : State := s.modLot h fun l => { l with target := none }

end Sys2Proof.Machine
end

