-- ==== Sys2Proof/Machine/Release.lean ====
section
/-! DEFINITION. Shipment release (R148 to R160): completion, release evaluation, the release record, the ship
queue and the release-pending set. -/

namespace Sys2Proof.Machine

/-- The capacity of the ship queue (R156). -/
def shipCapacity : Nat := 64

/-- The ship quantity: the carried quantity of the last step's summary (R149). -/
def Lot.shipQty (l : Lot) : Nat := (l.summaries.getLast?.map Summary.carried).getD 0

/-- The cumulative yield of a lot (R149, R124). -/
def Lot.cumYield (l : Lot) : Nat := (yieldPermille l.shipQty l.qty).getD 0

/-- The step entry of a release record made from a summary (R154, R155). -/
def recordStep (m : Summary) : RecordStep := ⟨m.kind, m.temp, m.unitsIn, m.finalGood, m.retestUsed, m.segments⟩

/-- The release record of a lot, as it and its group entry stand (R154, R155). -/
def State.recordOf (s : State) (h : Nat) (l : Lot) : Record where
  handle      := h
  inst        := (s.slot h).inst
  name        := l.name
  group       := groupOf h
  family      := (s.group (groupOf h)).family
  route       := l.route
  qty         := l.qty
  shipQty     := l.shipQty
  cumYield    := l.cumYield
  releaseTime := s.now
  waived      := l.summaries.any Summary.waived
  reworked    := l.reworked.any id
  steps       := l.summaries.map recordStep

/-- A record joins at the place its release time and handle give (R156). -/
def joinRecord (x : Record) : List Record → List Record
  | [] => [x]
  | y :: r =>
    if x.releaseTime < y.releaseTime || (x.releaseTime == y.releaseTime && x.handle < y.handle) then x :: y :: r
    else y :: joinRecord x r

/-- A lot joins the release-pending set at the place its completion time and handle give (R153). -/
def joinPend (x : PendMember) : List PendMember → List PendMember
  | [] => [x]
  | y :: r =>
    if x.completion < y.completion || (x.completion == y.completion && x.handle < y.handle) then x :: y :: r
    else y :: joinPend x r

/-- A lot is released: record, ship queue, RELEASED, SHIP_READY, LOT_RELEASED (R157). -/
def State.releaseLot (s : State) (h : Nat) : State :=
  match s.lot? h with
  | none => s
  | some l =>
    let r := s.recordOf h l
    let s := { s with rlu := { s.rlu with ship := joinRecord r s.rlu.ship } }
    let s := (s.leavePending h).setLotState h .released
    let s := s.notice (.shipReady r)
    s.event .lotReleased l.cumYield

/-- A lot that passed evaluation with the ship queue full joins the release-pending set (R151, R153). -/
def State.joinPending (s : State) (h : Nat) (l : Lot) : State :=
  let s := s.leavePending h
  let s := { s with rlu := { s.rlu with
    pend := joinPend ⟨h, (s.slot h).inst, l.completion.getD 0⟩ s.rlu.pend } }
  s.modLot h fun l => { l with relPending := true }

/-- Release evaluation of a COMPLETE lot (R149, R150, R151). -/
def State.evaluate (s : State) (h : Nat) : State :=
  match s.lot? h with
  | none => s
  | some l =>
    let floor := match s.route? l.route with
      | some r => r.releaseFloor
      | none => 0
    let low := releaseLow floor l.shipQty l.qty && !l.acc.waived.contains .releaseLow
    let open_ := l.summaries.any fun m => !m.reconciled
    if low || open_ then
      let s := if low then (s.event .guardTrip (Trip.code .releaseLow)).placeQuiet h ⟨.guard, .ygd, [.releaseLow], none⟩ else s
      let s := if open_ then s.placeQuiet h ⟨.quantity, .ygd, [], none⟩ else s
      s.toHeld h
    else if s.rlu.ship.length < shipCapacity then s.releaseLot h
    else s.joinPending h l

/-- A lot becomes COMPLETE: completion time if it has none, LOT_COMPLETE, evaluation (R148). -/
def State.complete (s : State) (h : Nat) : State :=
  let s := s.modLot h fun l => { l with state := .complete, completion := some (l.completion.getD s.now) }
  match s.lot? h with
  | none => s
  | some l =>
    (s.notice (.lotComplete (s.lotRef h l) l.route l.qty (l.completion.getD 0) l.shipQty l.cumYield)).evaluate h

/-- Pending lots are released from the front of the set while the ship queue has room (R160). -/
def State.releasePending : Nat → State → State
  | 0, s => s
  | n + 1, s =>
    match s.rlu.pend with
    | [] => s
    | m :: _ => if s.rlu.ship.length < shipCapacity then State.releasePending n (s.evaluate m.handle) else s

/-- A slot is freed: FREE, its number increased, its route's use count decreased, every other field discarded
(R9, R10). -/
def nextInst (n : Nat) : Nat := if n = 255 then 1 else n + 1

def State.freeSlot (s : State) (h : Nat) : State :=
  match s.lot? h with
  | none => s
  | some l =>
    let s := s.modSlot h fun x => ⟨nextInst x.inst, none⟩
    { s with ldr := { s.ldr with useCount := vmod s.ldr.useCount l.route fun n => n - 1 } }

end Sys2Proof.Machine
end

