-- ==== Sys2Proof/Machine/StepEnd.lean ====
section
/-! DEFINITION. Segments (R95 to R97), step end (R90, R91, R120, R121), the advance to the next step (R123)
and the settlement of a stopped pass end (R93). -/

namespace Sys2Proof.Machine

/-- The last segment closed with a cause at the lot's tested1 (R97). -/
def closeLast (l : Lot) (cause : CloseCause) : List Segment :=
  match l.segments.getLast? with
  | some g => l.segments.dropLast ++ [{ g with closed := some (l.acc.tested1, cause) }]
  | none => []

/-- The segment-open mark cleared on the lot's run at a cell. -/
def clearSegMark (h : Nat) (x : Cell) : Cell :=
  { x with stack := x.stack.map fun r => if r.handle == h then { r with segOpen := false } else r, ctx := none }

/-- A segment closes (R97). A fourth entry closed without step end draws an EQUIPMENT entry, placed by the
cell, with no STOP_RUN. -/
def State.closeSegment (s : State) (c h : Nat) (cause : CloseCause) : State :=
  let fourth := match s.lot? h with
    | some l => l.segments.length = 4
    | none => false
  let s := s.modLot h fun l => { l with segments := closeLast l cause }
  let s := s.modCell c (clearSegMark h)
  if fourth && cause != .stepEnd then s.placeQuiet h ⟨.equipment, .cell c, [], none⟩ else s

/-- The segment closed if the run has one open. -/
def State.closeIfOpen (s : State) (c : Nat) (r : Run) (cause : CloseCause) : State :=
  if r.segOpen then s.closeSegment c r.handle cause else s

/-- A segment opens for the top run: a new entry, or the fourth replaced; the per-site statistics at zero
(R96, R109). -/
def State.openSegment (s : State) (c : Nat) (r : Run) : State :=
  let v := ((s.cell c).loaded).getD ⟨0, 0, 0⟩
  let s := s.modLot r.handle fun l =>
    let g : Segment := ⟨c, v.number, v.rev, l.acc.tested1, none⟩
    { l with
      segments := (if l.segments.length < 4 then l.segments else l.segments.dropLast) ++ [g]
      acc := { l.acc with sites := Vector.replicate 16 SiteStat.zero } }
  s.modTop c fun r => { r with segOpen := true }

/-- Trips of a judgement added to the step's trip set, each drawing one GUARD_TRIP event (R117). -/
def State.recordTrips (s : State) (h : Nat) (ts : List Trip) : State :=
  ts.foldl (fun s t => s.event .guardTrip t.code) (s.modAcc h fun a => { a with trips := addTrips a.trips ts })

/-- The summary of a lot's current step (R121, R122). -/
def summaryOf (x : RouteStep) (l : Lot) : Summary where
  step        := l.step
  kind        := x.kind
  temp        := x.temp
  entering    := l.acc.entering
  unitsIn     := l.acc.unitsIn
  tested1     := l.acc.tested1
  good1       := l.acc.good1
  retestable1 := l.acc.retestable1
  tested2     := l.acc.tested2
  good2       := l.acc.good2
  carried     := carriedOf x.kind l.acc.entering l.acc.unitsIn l.acc.finalGood
  retestUsed  := l.acc.retestUsed
  segments    := l.segments
  trips       := l.acc.trips
  waived      := !l.acc.waived.isEmpty
  reconciled  := !l.acc.qtyMark

/-- The holds of the step-end checks: entries added without their notices, the quantity mark set by the
QUANTITY hold, the return target ADVANCE while any entry stands (R90 step 1, R120, R122, R132). -/
def State.stepEndHolds (s : State) (h : Nat) (fl : Bool) (q : List Trip) : State :=
  let s := s.recordTrips h ((if fl then [.finalLow] else []) ++ q)
  let s := if fl then s.addHold h ⟨.guard, .ygd, [.finalLow], none⟩ else s
  let s := if q.isEmpty then s else (s.addHold h ⟨.quantity, .ygd, [], none⟩).modAcc h fun a => { a with qtyMark := true }
  s.modLot h fun l => { l with target := if l.holds.isEmpty then l.target else some .advance }

/-- A step ends at the cell of the lot's run (R90 steps 1 to 3): step-end checks, the segment closes STEP_END
if it is still open, the step closes into its summary, LOT_STEP_DONE, then LOT_HELD for each new
entry (R91, R131). -/
def State.stepEnd (s : State) (c h : Nat) : State :=
  match s.lot? h with
  | none => s
  | some l =>
    let x := s.lotStep l
    let p := s.profileOf x
    let fl := finalLow p l.acc
    let q := quantityTrips p l.acc
    let newGuard := fl && s.isNewHold h .guard
    let newQty := !q.isEmpty && s.isNewHold h .quantity
    let s := s.stepEndHolds h fl q
    let s := if (s.top? c).any Run.segOpen then s.closeSegment c h .stepEnd else s
    match s.lot? h with
    | none => s
    | some l =>
      let m := summaryOf x l
      let s := s.modLot h fun l => { l with summaries := l.summaries ++ [m] }
      let s := s.notice (.lotStepDone (s.lotRef h l) l.step c m l.acc.fed1 l.acc.fed2)
      let s := if newGuard then s.heldNotice h .guard .held else s
      if newQty then s.heldNotice h .quantity .held else s

/-- The lot enters the next step of its route: accumulators from the carried quantity of the summary just
closed, segments emptied, pass FIRST (R108, R123). -/
def State.advance (s : State) (h : Nat) : State :=
  let s := s.modLot h fun l =>
    let entering := l.shipQty
    { l with
      step := l.step + 1
      pass := .first
      segments := []
      acc := Acc.start entering (unitsInOf (s.routeStep l.route (l.step + 1)) entering) }
  s.joinQueue h true

/-- Where a closed step sends its lot when no entry stands: the next step, or COMPLETE after the last (R90,
R144). -/
def State.passOn (s : State) (h : Nat) : State :=
  match s.lot? h with
  | none => s
  | some l => if l.step + 1 < s.stepCount l.route then s.advance h else s.complete h

/-- The fed count of a pass kept with the step (R87, R93). -/
def setFed (a : Acc) (p : Pass) (n : Nat) : Acc :=
  match p with
  | .first => { a with fed1 := some n }
  | .retest => { a with fed2 := some n }

/-- The top run's pass becomes RETEST and the step's retest used flag is set: a run change (R84, R88, R93). -/
def State.toRetest (s : State) (c h : Nat) : State :=
  let s := s.modLot h fun l => { l with pass := .retest, acc := { l.acc with retestUsed := true } }
  (s.modTop c fun r => { r with pass := .retest }).clearCtx c

/-- A stopped-pass-end mark of the top run is settled: a retest due is made pending, otherwise the step ends
(R93). The flag tells whether the step closed. -/
def State.settleStopped (s : State) (c : Nat) : State × Bool :=
  match s.top? c with
  | none => (s, false)
  | some r =>
    match r.stopped with
    | none => (s, false)
    | some (pass, fed) =>
      let s := s.modAcc r.handle fun a => setFed a pass fed
      let s := s.modTop c fun r => { r with stopped := none }
      match s.lot? r.handle with
      | none => (s, false)
      | some l =>
        if pass = .first ∧ retestDue (s.lotStep l) l.acc then (s.toRetest c r.handle, false)
        else (s.stepEnd c r.handle, true)

/-- A lot whose run has left its cell goes to HELD while entries stand, else where its closed step sends it,
else back to WAITING on its step (R51, R90, R92). -/
def State.sendLot (s : State) (h : Nat) (closed newArrival : Bool) : State :=
  if s.hasHolds h then s.toHeld h
  else if closed then s.passOn h
  else s.joinQueue h newArrival

end Sys2Proof.Machine
end

