-- ==== Sys2Proof/Machine/Setup.lean ====
section
/-! DEFINITION. Detaching a cell's runs (R51), the lapse in SETUP (R53), entry into SETUP and its items (R70,
R71, R74), the start of a run, and setup failure (R76, R77). -/

namespace Sys2Proof.Machine

/-- The step a run stands at, by its lot's route (R23). -/
def State.runStep (s : State) (r : Run) : RouteStep :=
  match s.lot? r.handle with
  | some l => s.routeStep l.route r.step
  | none => RouteStep.none

/-! ### Detach (R51) -/

/-- The top run detached: segment closed DETACHED, stopped pass end settled, the lot sent on (R51). -/
def State.detachTop (s : State) (c : Nat) : State :=
  match s.top? c with
  | none => s
  | some r =>
    let s := s.closeIfOpen c r .detached
    let (s, closed) := s.settleStopped c
    (s.popTop c).sendLot r.handle closed false

/-- A lower run, now alone on the stack, detached (R51, R76 step 4). -/
def State.detachLower (s : State) (c : Nat) : State :=
  match s.top? c with
  | none => s
  | some r => ((s.closeIfOpen c r .detached).popTop c).sendLot r.handle false false

/-- The incoming run withdrawn: a run change (R51, R81, R84). -/
def State.dropIncoming (s : State) (c : Nat) : State := s.modCell c fun x => { x with incoming := none, ctx := none }

/-- The incoming run detached (R51). -/
def State.detachIncoming (s : State) (c : Nat) : State :=
  match (s.cell c).incoming with
  | none => s
  | some r => (s.dropIncoming c).sendLot r.handle false false

/-- Every run of a cell detached, in the order top, lower, incoming; context, pending items and the six timers
other than silence cleared (R51). The rule that detaches gives the cell its state. -/
def State.detach (s : State) (c : Nat) : State :=
  let s := ((s.detachTop c).detachLower c).detachIncoming c
  s.modCell c fun x => { x with
    ctx := none, items := Items.none, timers := { Timers.idle with silence := x.timers.silence } }

/-! ### The lapse in SETUP (R53) -/

/-- The top run of an abandoned setup removed: its open segment closes CALIBRATION, its lot becomes HELD or
WAITING with a new arrival time (R53). -/
def State.abandonTop (s : State) (c : Nat) : State :=
  match s.top? c with
  | none => s
  | some r => ((s.closeIfOpen c r .calibration).popTop c).sendLot r.handle false true

/-- A setup abandoned for a lapse: every run removed, top first, and the cell IDLE; an outstanding load order
stands (R53, R71). -/
def State.abandonSetup (s : State) (c : Nat) : State := ((s.abandonTop c).abandonTop c).toIdle c

/-! ### Setup items (R70, R71, R74) -/

/-- The LOAD item pending: LOAD_PROGRAM is sent unless an outstanding load order stands, the load timer
started (R70, R71). -/
def State.startLoad (s : State) (c : Nat) (r : Run) (v : ProgVals) : State :=
  let send := (s.cell c).order.isNone
  let s := s.modCell c fun x => { x with
    items := { x.items with load := true }
    timers := { x.timers with load := some s.tst.settings.load }
    order := if send then some v else x.order
    orderCurrent := send || x.orderCurrent }
  if send then s.order c (some r) (.loadProgram v) else s

/-- The KIT item pending: KIT_CALL is sent, the kit timer started (R70). -/
def State.startKit (s : State) (c : Nat) (r : Run) (kit : Nat) : State :=
  (s.modCell c fun x => { x with
    items := { x.items with kit := true }, timers := { x.timers with kit := some s.tst.settings.kit } }).order c (some r)
    (.kitCall kit)

/-- The SOAK item pending: SOAK is sent, the soak timer started (R70). -/
def State.startSoak (s : State) (c : Nat) (r : Run) (t : Temp) : State :=
  (s.modCell c fun x => { x with
    items := { x.items with soak := true }, timers := { x.timers with soak := some s.tst.settings.soak } }).order c (some r)
    (.soak t)

/-- START_RUN for the top run: the awaiting-start mark set, the start timer started, the cell STARTING (R74,
R88). It carries the enabled site set, and the enabled site count of R54 as the number of its members (log entry 48). -/
def State.sendStart (s : State) (c : Nat) (r : Run) : State :=
  let units := match s.lot? r.handle with
    | some l => l.acc.remaining r.pass
    | none => 0
  let s := s.modCell c fun x => { x.enter .starting with
    timers := { (x.enter .starting).timers with start := some s.tst.settings.start } }
  let s := s.modTop c fun r => { r with awaiting := true }
  s.order c (some r) (.startRun r.pass (s.cell c).enabled units)

/-- The three setup mismatches of a top run judged against its cell: those that hold become pending. `standing`
tells whether an outstanding load order alone makes LOAD pending (R70 step 3), as it does at entry and not
at the judgement anew of R74. -/
def State.judgeItems (s : State) (c : Nat) (r : Run) (standing : Bool) : State :=
  let x := s.runStep r
  let v := (s.programOf x).vals
  let cell := s.cell c
  let load := (standing && cell.order.isSome) || (loadMismatch cell v && (standing || cell.order.isNone))
  let kit := kitMismatch cell x.kit
  let soak := soakMismatch cell x.temp
  let s := if load then s.startLoad c r v else s
  let s := if kit then s.startKit c r x.kit else s
  if soak then s.startSoak c r x.temp else s

/-- With no item pending the mismatches are judged again; when none holds the setup completes and the run is
started (R74). -/
def State.checkSetup (s : State) (c : Nat) : State :=
  match s.top? c with
  | none => s
  | some r =>
    if (s.cell c).items.clear then
      let s := s.judgeItems c r false
      if (s.cell c).items.clear then s.sendStart c r else s
    else s

/-- A cell enters SETUP for its top run (R70): the lot ASSIGNED, the current-setup mark cleared, then the site
check, the lapse, and the setup items. A run the sites cannot carry is removed and the cell goes on to a
lower run, or to IDLE. The fuel bounds the runs of the stack. -/
def State.enterSetupN : Nat → State → Nat → State
  | 0, s, c => s.toIdle c
  | n + 1, s, c =>
    match s.top? c with
    | none => s.toIdle c
    | some r =>
      let s := s.setLotState r.handle .assigned
      let s := s.modCell c fun x => { x.enter .setup with
        items := Items.none
        timers := { (x.enter .setup).timers with load := none, kit := none, soak := none }
        orderCurrent := false }
      if maskCount (s.cell c).enabled < (s.profileOf (s.runStep r)).minSites then
        let s := s.detachTop c
        if (s.cell c).stack.isEmpty then s.toIdle c else State.enterSetupN n s c
      else if lapsed s.tbs.floorTime (s.cell c).expiry then s.abandonSetup c
      else (s.judgeItems c r true).checkSetup c

/-- A cell enters SETUP; a stack holds at most two runs (R38). -/
def State.enterSetup (s : State) (c : Nat) : State := State.enterSetupN 2 s c

/-- After a top run has left the stack: SETUP for a lower run if one stands, otherwise IDLE (R82). -/
def State.afterTop (s : State) (c : Nat) : State :=
  if (s.cell c).stack.isEmpty then s.toIdle c else s.enterSetup c

/-! ### Setup failure (R76, R77) -/

/-- The setup-fail count raised to at most 3; at 3 an EQUIPMENT entry, placed by the cell (R77). -/
def State.countFailure (s : State) (c h : Nat) : State :=
  let s := s.modLot h fun l => { l with setupFails := min 3 (l.setupFails + 1) }
  match s.lot? h with
  | some l => if l.setupFails = 3 then s.placeQuiet h ⟨.equipment, .cell c, [], none⟩ else s
  | none => s

/-- A setup fails: the top run is removed with its segment closed FAULT, its lot counted and sent back, a lower
run detached, and the cell enters FAULT with the cause (R76). -/
def State.setupFailure (s : State) (c : Nat) (cause : FaultCause) : State :=
  match s.top? c with
  | none => s
  | some r =>
    let s := s.closeIfOpen c r .fault
    let s := s.popTop c
    let s := s.countFailure c r.handle
    let s := s.sendLot r.handle false false
    let s := s.detachLower c
    s.toFault c cause (some (r.handle, r.inst))

end Sys2Proof.Machine
end

