-- ==== Sys2Proof/Machine/HoldEffect.lean ====
section
/-! DEFINITION. What a hold does to its lot's place on the floor (R133), a hold taken whole (R131), and a lot
leaving its hold (R144). -/

namespace Sys2Proof.Machine

/-- The stop reason of a hold's stop: QUANTITY for a QUANTITY entry, HOLD for any other (R133). -/
def stopReasonOf : HoldReason → StopReason
  | .quantity => .quantity
  | .guard | .site | .equipment | .engineering | .family | .interrupted => .hold

/-- The top run of a cell in SETUP removed for a hold: an open segment closes HOLD, an outstanding load order
stands, and the cell goes on to a lower run or IDLE (R133). -/
def State.holdInSetup (s : State) (c h : Nat) : State :=
  match s.top? c with
  | none => s
  | some r => (((s.closeIfOpen c r .hold).popTop c).toHeld h).afterTop c

/-- A stack without the lower run of a lot. -/
def dropLower (h : Nat) : List Run → List Run
  | [] => []
  | r :: rest => r :: rest.filter fun x => x.handle != h

/-- A PREEMPTED lot's run removed from beneath the incoming lot's: its segment closes HOLD, the cell keeps its
state (R133). -/
def State.holdLower (s : State) (c h : Nat) : State :=
  let s := if (s.cell c).stack.tail.any fun r => r.handle == h && r.segOpen then s.closeSegment c h .hold else s
  (s.modCell c fun x => { x with stack := dropLower h x.stack, ctx := none }).toHeld h

/-- The effect of a hold on a lot ASSIGNED: removed from SETUP, a stop requested in STARTING, nothing more in
STOPPING, or withdrawn as the incoming run (R133). -/
def State.holdAssigned (s : State) (h : Nat) (r : HoldReason) : State :=
  match s.cellOfTop h with
  | some c =>
    if (s.cell c).state = .setup then s.holdInSetup c h else s.requestStop c (stopReasonOf r)
  | none => match s.cellOfIncoming h with
    | some c => (s.dropIncoming c).toHeld h
    | none => s

/-- What a hold does by the lot's state (R133). -/
def State.holdEffect (s : State) (h : Nat) (r : HoldReason) : State :=
  match s.lot? h with
  | none => s
  | some l =>
    match l.state with
    | .waiting => (s.leaveQueue h).toHeld h
    | .assigned => s.holdAssigned h r
    | .running => match s.cellOfTop h with
      | some c => s.requestStop c (stopReasonOf r)
      | none => s
    | .preempted => match s.cellOfLower h with
      | some c => s.holdLower c h
      | none => s
    | .complete => s.toHeld h
    | .held => s
    | .released => s

/-- The lot state as a hold of R133 leaves it, for its LOT_HELD notice (R131 step 5). -/
def State.stateAfterHold (s : State) (h : Nat) : LotState :=
  match s.lot? h with
  | none => .held
  | some l =>
    match l.state with
    | .running => .running
    | .assigned => match s.cellOfTop h with
      | some c => if (s.cell c).state = .setup then .held else .assigned
      | none => .held
    | .released => .released
    | .waiting | .preempted | .held | .complete => .held

/-- A hold taken whole: entry, return target, mark, event, notice for a new entry, and the effect of R133
(R131). -/
def State.placeHold (s : State) (h : Nat) (n : NewHold) : State :=
  let fresh := s.isNewHold h n.reason
  let after := s.stateAfterHold h
  let s := s.addHold h n
  let s := if fresh then s.heldNotice h n.reason after else s
  s.holdEffect h n.reason

/-- A lot whose last entry has been removed leaves HELD for its saved return target, which is discarded; a lot
whose stop is pending keeps its state and carries no target (R132, R144). -/
def State.leaveHold (s : State) (h : Nat) : State :=
  match s.lot? h with
  | none => s
  | some l =>
    if l.holds.isEmpty then
      let s := s.dropTarget h
      if l.state = .held then
        match l.target with
        | some .advance => s.passOn h
        | some .complete => s.complete h
        | some .resume | none => s.joinQueue h true
      else s
    else s

end Sys2Proof.Machine
end

