-- ==== Sys2Proof/Machine/Operands.lean ====
section
/-! DEFINITION. The bodies of the messages the part takes, read from their bytes in the coding of R203 and
R204: cell messages (R41, R72, R85, R98, R104) and management requests (R11, R17, R136 to R140, R172 to
R176, R193). `none` is a body that is not of its kind's length or content. -/

namespace Sys2Proof.Machine

/-! ### Cell messages -/

/-- The fields of a STATUS (R41). -/
structure StatusBody where
  ready       : Bool
  handler     : Handler
  kit         : Option Nat
  loaded      : Option ProgVals
  setpoint    : Temp
  atSetpoint  : Bool
  sites       : Mask16
  expiry      : Option Nat
  runActive   : Bool
  restarted   : Bool
  maintClear  : Bool
  siteRestore : Bool
  deriving DecidableEq, Repr

def readHandler : Nat → Option Handler
  | 0 => some .running
  | 1 => some .jammed
  | 2 => some .idle
  | _ => none

/-- Program number, revision and image check value. -/
def readProgVals (b : List Byte) : Option (ProgVals × List Byte) := do
  let (number, b) ← readNum 2 b
  let (rev, b) ← readNum 1 b
  let (check, b) ← readNum 4 b
  some (⟨number, rev, check⟩, b)

/-- A kit type 0 to 31 (R41). -/
def readKit (b : List Byte) : Option (Nat × List Byte) := do
  let (k, b) ← readNum 1 b
  let k ← within 0 31 k
  some (k, b)

/-- The body of a STATUS; `none` is a STATUS dropped MALFORMED (R41). Only the installed kit, the loaded
program and the calibration expiry carry a presence byte (log entry 5). -/
def readStatus (b : List Byte) : Option StatusBody := do
  let (ready, b) ← readFlag b
  let (h, b) ← readNum 1 b
  let handler ← readHandler h
  let (kit, b) ← readOpt readKit b
  let (loaded, b) ← readOpt readProgVals b
  let (t, b) ← readNum 1 b
  let setpoint ← readTemp t
  let (atSetpoint, b) ← readFlag b
  let (sites, b) ← readNum 2 b
  let (expiry, b) ← readOpt (readNum 4) b
  let (runActive, b) ← readFlag b
  let (restarted, b) ← readFlag b
  let (maintClear, b) ← readFlag b
  let (siteRestore, b) ← readFlag b
  atEnd ⟨ready, handler, kit, loaded, setpoint, atSetpoint, BitVec.ofNat 16 sites, expiry, runActive, restarted, maintClear,
    siteRestore⟩ b

/-- The body of a LOAD_DONE: whether the result is OK, and the values reported (R72). -/
def readLoadDone (b : List Byte) : Option (Bool × ProgVals) := do
  let (r, b) ← readNum 1 b
  let result ← readBool r
  let (v, b) ← readProgVals b
  atEnd (!result, v) b

/-- The body of a PASS_END: its pass and the handler fed count (R85). -/
def readPassEnd (b : List Byte) : Option (Pass × Nat) := do
  let (p, b) ← readNum 1 b
  let pass ← readPass p
  let (fed, b) ← readNum 4 b
  atEnd (pass, fed) b

/-- The fields of a full BIN the part reads (R98). -/
structure BinBody where
  pass   : Pass
  site   : Nat
  soft   : Nat
  hard   : Nat
  stream : Bool
  deriving DecidableEq, Repr

/-- The body of a full BIN, `none` MALFORMED: exactly 7 bytes, a pass of 0 or 1, site and tester hard bin at
most 15 (R98, R204). -/
def readBin (b : List Byte) : Option BinBody :=
  match b with
  | [p, site, soft, hard, stream, _, _] =>
    match readPass p.toNat with
    | some pass =>
      if site.toNat ≤ 15 ∧ hard.toNat ≤ 15 then some ⟨pass, site.toNat, soft.toNat, hard.toNat, stream != 0⟩ else none
    | none => none
  | _ => none

/-- One compact record (R104, R204). -/
structure CompactRec where
  site : Byte
  soft : Byte
  hard : Byte
  stay : Byte
  deriving DecidableEq, Repr

/-- The six bytes of a compact record. -/
def readCompactRec (b : List Byte) : Option (CompactRec × List Byte) :=
  match b with
  | site :: soft :: hard :: stay :: _ :: _ :: r => some (⟨site, soft, hard, stay⟩, r)
  | _ => none

/-- The records of a BIN_COMPACT body; `none` for a record count of 0 or above 16, or a body that is not of
the length the count gives (R104). -/
def readCompact (b : List Byte) : Option (List CompactRec) := do
  let (n, b) ← readNum 1 b
  let n ← within 1 16 n
  let (l, b) ← readMany readCompactRec n b
  atEnd l b

/-! ### Management requests -/

/-- The request tag, the first two bytes of a request's body (R172). -/
def readTag (b : List Byte) : Option (Nat × List Byte) := readNum 2 b

/-- A printable character: codes 0x20 to 0x7E (R11). -/
def printable (c : Byte) : Bool := 0x20 ≤ c.toNat && c.toNat ≤ 0x7E

/-- The fields of a LOT_ORDER (R11). -/
structure OrderBody where
  name  : List Byte
  group : Nat
  route : Nat
  qty   : Nat
  cls   : Nat
  note  : Option Nat
  deriving DecidableEq, Repr

/-- The body of a LOT_ORDER after its tag: a name of 1 to 16 printable characters (R11). -/
def readLotOrder (b : List Byte) : Option OrderBody := do
  let (n, b) ← readNum 1 b
  let n ← within 1 16 n
  let (name, b) ← (if n ≤ b.length then some (b.take n, b.drop n) else none)
  let (group, b) ← readNum 1 b
  let (route, b) ← readNum 1 b
  let (qty, b) ← readNum 4 b
  let (cls, b) ← readNum 1 b
  let (note, b) ← readOpt (readNum 2) b
  if name.all printable then atEnd ⟨name, group, route, qty, cls, note⟩ b else none

/-- A body of one byte after the tag: the group of a SWEEP or a group request (R17, R137). -/
def readGroupArg (b : List Byte) : Option Nat := do
  let (g, b) ← readNum 1 b
  atEnd g b

/-- The body of a HOLD after its tag: an optional note code (R136). -/
def readHold (b : List Byte) : Option (Option Nat) := do
  let (note, b) ← readOpt (readNum 2) b
  atEnd note b

def readReason : Nat → Option HoldReason
  | 0 => some .guard
  | 1 => some .site
  | 2 => some .equipment
  | 3 => some .quantity
  | 4 => some .engineering
  | 5 => some .family
  | 6 => some .interrupted
  | _ => none

def readDisposition : Nat → Option Disposition
  | 0 => some .continue_
  | 1 => some .rework
  | 2 => some .scrap
  | _ => none

/-- The body of a RELEASE after its tag: a reason and a disposition (R140). -/
def readRelease (b : List Byte) : Option (HoldReason × Disposition) := do
  let (r, b) ← readNum 1 b
  let (d, b) ← readNum 1 b
  let reason ← readReason r
  let disp ← readDisposition d
  atEnd (reason, disp) b

/-- The body of a TABLE_WRITE after its tag, less its contents' own reading (R174). -/
structure WriteBody where
  target   : Nat
  table    : Nat
  entry    : Nat
  empty    : Bool
  contents : List Byte
  deriving DecidableEq, Repr

/-- The fixed fields of a TABLE_WRITE; a target other than ACTIVE (0) and STORED (1) is MALFORMED (R29). So is a body without
one of them, or with an empty flag above 1, whatever its table number (log entry 44). -/
def readTableWrite (b : List Byte) : Option WriteBody := do
  let (target, b) ← readNum 1 b
  let target ← within 0 1 target
  let (table, b) ← readNum 1 b
  let (entry, b) ← readNum 1 b
  let (empty, b) ← readFlag b
  some ⟨target, table, entry, empty, b⟩

/-- The body of a TABLE_READ after its tag: target, table number, entry number (R33, R175). -/
def readTableRead (b : List Byte) : Option (Nat × Nat × Nat) := do
  let (target, b) ← readNum 1 b
  let target ← within 0 1 target
  let (table, b) ← readNum 1 b
  let (entry, b) ← readNum 1 b
  atEnd (target, table, entry) b

/-- A query kind and its arguments (R176). -/
inductive QueryBody where
  | lot (start : Nat)
  | cell (c : Nat)
  | queue (start : Nat)
  | ship (recStart pendStart : Nat)
  | counters (clear : Bool)
  | part
  deriving DecidableEq, Repr

/-- The body of a QUERY after its tag; a kind outside the six or arguments of another length are MALFORMED
(R176). -/
def readQuery (b : List Byte) : Option QueryBody :=
  match b with
  | [] => none
  | k :: r =>
    match k.toNat with
    | 0 => do let (n, r) ← readNum 1 r; atEnd (.lot n) r
    | 1 => do let (n, r) ← readNum 1 r; atEnd (.cell n) r
    | 2 => do let (n, r) ← readNum 2 r; atEnd (.queue n) r
    | 3 => do let (n, r) ← readNum 2 r; let (p, r) ← readNum 2 r; atEnd (.ship n p) r
    | 4 => do let (f, r) ← readFlag r; atEnd (.counters f) r
    | 5 => atEnd .part r
    | _ => none

/-- The body of a TIME after its tag: the value V (R193). -/
def readTime (b : List Byte) : Option Nat := do
  let (v, b) ← readNum 4 b
  atEnd v b

/-- A body of nothing beyond its tag: SHIP_CONFIRM and RESTART (R159, R191). -/
def readNothing (b : List Byte) : Option Unit := atEnd () b

end Sys2Proof.Machine
end

