-- ==== Sys2Proof/Machine/Guard.lean ====
section
/-! DEFINITION. The bin stream and the yield guard: the checks of a record (R99), counting (R110, R111), the
window (R112), trips (R117, R118), site demotion (R55), OVERCOUNT (R101), full and compact records (R103,
R104) and their annotation (R105, R204). -/

namespace Sys2Proof.Machine

/-- The top of the mismatch and unmapped counts (R107). -/
def maxMismatch : Nat := 65535

/-! ### Counting -/

/-- A class appended to the window of size `w`, the oldest member leaving when it would hold one more; the
PASS count follows (R112). -/
def pushWindow (a : Acc) (w : Nat) (cls : BinClass) : Acc :=
  let passes := a.winPass + (if cls = .pass then 1 else 0)
  if a.window.length < w then { a with window := a.window ++ [cls], winPass := passes }
  else { a with
    window := (a.window ++ [cls]).tail
    winPass := passes - (if (a.window ++ [cls]).head? = some .pass then 1 else 0) }

/-- Mismatch and unmapped counts after a record (R110 step 4). -/
def countMismatch (a : Acc) (m : Mapped) (hard : Nat) : Acc :=
  { a with
    mismatch := if m.unmapped || hard != m.hard then min maxMismatch (a.mismatch + 1) else a.mismatch
    unmapped := if m.unmapped then min maxMismatch (a.unmapped + 1) else a.unmapped }

/-- One site's statistics after a first-pass record judged for it (R110 step 5). -/
def countSite (cls : BinClass) (x : SiteStat) : SiteStat :=
  if cls = .pass then { x with tested := x.tested + 1, good := x.good + 1, consec := 0 }
  else { x with tested := x.tested + 1, consec := min 15 (x.consec + 1) }

/-- The per-site statistics after a first-pass record: updated for an enabled site, frozen and tallied in F for
another, unchanged while no segment is open (R109). -/
def countSites (v : Vector SiteStat 16) (segOpen enabled : Bool) (cls : BinClass) (site : Nat) : Vector SiteStat 16 :=
  if segOpen then
    vmod v site (if enabled then countSite cls else fun x => { x with frozen := x.frozen + 1 })
  else v

/-- The accumulators after a counted first-pass record (R110 steps 2 to 6). -/
def countFirst (a : Acc) (p : Profile) (m : Mapped) (site hard : Nat) (segOpen enabled : Bool) : Acc :=
  let a := { a with
    tested1 := a.tested1 + 1
    good1 := a.good1 + (if m.cls = .pass then 1 else 0)
    retestable1 := a.retestable1 + (if m.cls = .retestable then 1 else 0)
    hardBins := vmod a.hardBins m.hard fun n => n + 1 }
  let a := countMismatch a m hard
  pushWindow { a with sites := countSites a.sites segOpen enabled m.cls site } p.window m.cls

/-- The accumulators after a counted retest record (R111). -/
def countRetest (a : Acc) (m : Mapped) (hard : Nat) : Acc :=
  countMismatch { a with tested2 := a.tested2 + 1, good2 := a.good2 + (if m.cls = .pass then 1 else 0) } m hard

/-! ### Trips -/

/-- A site demotion request: an enabled site leaves the set, SITE_MASK and SITE_DEMOTED are sent, and the
counters take the event; a site already removed has no effect (R55). -/
def State.demote (s : State) (c site h inst : Nat) : State :=
  if (s.cell c).enabled.getLsbD site then
    let s := s.modCell c fun x => { x with enabled := maskRemove x.enabled site, reportPending := true }
    let s := s.order c none (.siteMask (s.cell c).enabled)
    let s := s.notice (.siteDemoted c site (s.cell c).enabled h inst)
    s.event .siteDemoted c
  else s

/-- A site trip: one demotion request when enough sites would remain, otherwise a SITE hold (R118). -/
def State.siteTrip (s : State) (c : Nat) (r : Run) (p : Profile) (site : Nat) (kinds : List Trip) : State :=
  if kinds.isEmpty then s
  else if p.minSites + 1 ≤ maskCount (s.cell c).enabled then s.demote c site r.handle r.inst
  else s.placeHold r.handle ⟨.site, .ygd, kinds, none⟩

/-- The trips of one record handed on together: the trip set and events, one GUARD hold, then the site kinds
(R117, R118). The GUARD hold's stop goes before the demotion, of the two orders R118 allows (log entry 46). -/
def State.handTrips (s : State) (c : Nat) (r : Run) (p : Profile) (site : Nat) (guard sites : List Trip) : State :=
  let s := s.recordTrips r.handle (guard ++ sites)
  let s := if guard.isEmpty then s else s.placeHold r.handle ⟨.guard, .ygd, guard, none⟩
  s.siteTrip c r p site sites

/-- A COUNTED record of the top run counted and judged (R100 step 1, R110, R111, R115, R116). -/
def State.guardRecord (s : State) (c : Nat) (r : Run) (site soft hard : Nat) : State :=
  let x := s.runStep r
  let p := s.profileOf x
  let m := mapBin (s.binMapOf x) soft
  match r.pass with
  | .first =>
    let enabled := (s.cell c).enabled.getLsbD site
    let s := s.modAcc r.handle fun a => countFirst a p m site hard r.segOpen enabled
    match s.lot? r.handle with
    | none => s
    | some l => s.handTrips c r p site (lotWideTrips p l.acc)
        (if r.segOpen && enabled then siteTrips p l.acc m.cls site else [])
  | .retest =>
    let s := s.modAcc r.handle fun a => countRetest a m hard
    match s.lot? r.handle with
    | none => s
    | some l => s.handTrips c r p site (retestTrips p l.acc) []

/-- A counted record's effects: the yield guard's, the activity mark, BIN_COUNTED (R100). -/
def State.countRecord (s : State) (c : Nat) (r : Run) (site soft hard : Nat) : State :=
  let s := s.guardRecord c r site soft hard
  let s := s.modLot r.handle fun l => { l with mark := true }
  s.event .binCounted site

/-- A record refused OVERCOUNT: a QUANTITY hold, placed by the yield guard, and the step's quantity mark (R101,
R119). -/
def State.overcount (s : State) (h : Nat) : State :=
  (s.modAcc h fun a => { a with qtyMark := true }).placeHold h ⟨.quantity, .ygd, [], none⟩

/-! ### The checks of a record -/

/-- The states in which a cell's records are counted (R99 check 6). -/
def countsIn : CellState → Bool
  | .starting | .running | .paused | .stopping => true
  | .offline | .idle | .setup | .fault => false

/-- The pass already holds all its units (R99 check 10, R101). -/
def passFull (a : Acc) : Pass → Bool
  | .first => a.tested1 == a.unitsIn
  | .retest => a.tested2 == a.retestable1

/-- Checks 6 to 10 of R99, for a record of the given lot, step, pass and site at a cell. -/
def State.runChecks (s : State) (c : Nat) (x : Ctx) (site : Nat) : Drop :=
  match s.top? c with
  | none => .notRunning
  | some r =>
    if !countsIn (s.cell c).state || r.handle != x.handle || r.inst != x.inst then .notRunning
    else if r.step ≠ x.step then .wrongStep
    else if r.pass ≠ x.pass then .wrongPass
    else if !siteAccepted (s.siteCount c) (s.cell c) site then .siteDisabled
    else match s.lot? r.handle with
      | none => .notRunning
      | some l => if passFull l.acc r.pass then .overcount else .counted

/-- The effect of a record's judgement at its cell's top run: counted, OVERCOUNT, or refused, with its counter
event (R100, R101). -/
def State.settleRecord (s : State) (c : Nat) (d : Drop) (site soft hard : Nat) : State :=
  match d, s.top? c with
  | .counted, some r => s.countRecord c r site soft hard
  | .overcount, some r => (s.overcount r.handle).event .binDropped (Drop.code .overcount)
  | d, _ => s.event .binDropped d.code

/-! ### Annotation (R105, R204) -/

/-- Outcomes whose records carry the mapping of the top run's bin map (R105). -/
def isMapped : Drop → Bool
  | .counted | .siteDisabled | .overcount => true
  | .malformed | .unknownCell | .unknownGroup | .unknownLot | .stale | .notRunning | .wrongStep | .wrongPass | .noContext
  | .afterStreamEnd | .unexpected | .unsolicited => false

/-- The two annotation bytes: class in bits 7 to 4 and hard bin in bits 3 to 0, then the outcome (R204). -/
def State.annotation (s : State) (c : Nat) (d : Drop) (soft : Nat) : List Byte :=
  match isMapped d, s.top? c with
  | true, some r =>
    let m := mapBin (s.binMapOf (s.runStep r)) soft
    [BitVec.ofNat 8 (m.cls.code * 16 + m.hard), BitVec.ofNat 8 d.code]
  | _, _ => [0, BitVec.ofNat 8 d.code]

/-! ### Full records -/

/-- The ordered checks of a full BIN after MALFORMED (R99 checks 2 to 10). -/
def State.binChecks (s : State) (m : Msg) (b : BinBody) : Drop :=
  if !s.cellCheck m then .unknownCell
  else match s.lookup m.handle.toNat m.inst.toNat with
    | .found _ => s.runChecks m.cell.toNat ⟨m.handle.toNat, m.inst.toNat, m.step.toNat, b.pass⟩ b.site
    | x => x.drop

/-- The stream context after a full BIN that passed the cell check: cleared by a clear stream flag, bound by a
counted record with the flag set (R103). -/
def State.stream (s : State) (m : Msg) (b : BinBody) (d : Drop) : State :=
  if !b.stream then s.clearCtx m.cell.toNat
  else if d = .counted then
    s.modCell m.cell.toNat fun x => { x with ctx := some ⟨m.handle.toNat, m.inst.toNat, m.step.toNat, b.pass⟩ }
  else s

/-- A full BIN judged, counted when it passes, annotated and forwarded (R99, R100, R103, R105). -/
def State.takeBin (s : State) (m : Msg) : State :=
  match readBin m.body with
  | none =>
    let body := if m.body.length = 7 then m.body.take 5 ++ [0, BitVec.ofNat 8 (Drop.code .malformed)] else m.body
    (s.event .binDropped (Drop.code .malformed)).forward Kind.bin m body
  | some b =>
    let d := s.binChecks m b
    let note := s.annotation m.cell.toNat d b.soft
    let s := s.settleRecord m.cell.toNat d b.site b.soft b.hard
    let s := if d = .unknownCell then s else s.stream m b d
    s.forward Kind.bin m (m.body.take 5 ++ note)

/-! ### Compact records -/

/-- The bytes of a compact record as forwarded (R204). -/
def CompactRec.bytes (x : CompactRec) (note : List Byte) : List Byte := [x.site, x.soft, x.hard, x.stay] ++ note

/-- The judgement of one compact record: MALFORMED, without a context, or checks 6 to 10 with the context's
fields. `ended` tells whether an earlier record of the frame cleared the context by its stay flag (R104
step 3). -/
def State.compactCheck (s : State) (c : Nat) (x : CompactRec) (ended : Bool) : Drop :=
  if 15 < x.site.toNat ∨ 15 < x.hard.toNat then .malformed
  else match (s.cell c).ctx with
    | none => if ended then .afterStreamEnd else .noContext
    | some k => s.runChecks c k x.site.toNat

/-- The records of a frame in order, with the bytes they are forwarded with (R104 steps 3 and 4). -/
def State.compactRecords (s : State) (c : Nat) (ended : Bool) : List CompactRec → State × List Byte
  | [] => (s, [])
  | x :: rest =>
    let d := s.compactCheck c x ended
    let note := s.annotation c d x.soft.toNat
    let s := s.settleRecord c d x.site.toNat x.soft.toNat x.hard.toNat
    let stops := d ≠ .malformed ∧ x.stay = 0
    let ended := ended || (decide stops && (s.cell c).ctx.isSome)
    let s := if stops then s.clearCtx c else s
    let (s, bytes) := s.compactRecords c ended rest
    (s, x.bytes note ++ bytes)

/-- A BIN_COMPACT frame taken as one event and forwarded as one frame (R104, R105). -/
def State.takeCompact (s : State) (m : Msg) : State :=
  match readCompact m.body with
  | none => (s.event .binDropped (Drop.code .malformed)).forward Kind.binCompact m m.body
  | some l =>
    let count := m.body.take 1
    if s.cellCheck m then
      let (s, bytes) := s.compactRecords m.cell.toNat false l
      s.forward Kind.binCompact m (count ++ bytes)
    else
      let s := l.foldl (fun s _ => s.event .binDropped (Drop.code .unknownCell)) s
      s.forward Kind.binCompact m (count ++ l.flatMap fun x => x.bytes [0, BitVec.ofNat 8 (Drop.code .unknownCell)])

end Sys2Proof.Machine
end

