-- ==== Sys2Proof/Machine/Pass.lean ====
section
/-! DEFINITION. Eligibility (R63, R64), dispatch passes (R67, R68), pairing (R69), preemption (R78, R79) and
the lapse judged for a cell (R52, R53). -/

namespace Sys2Proof.Machine

/-- The nonempty pinning entries. -/
def State.pinList (s : State) : List Pin := s.tst.pins.toList.filterMap id

/-- Conditions 2 to 8 of R64 for a lot at its step and pass and a cell. -/
def State.pairOk (s : State) (h : Nat) (l : Lot) (c : Nat) : Bool :=
  match s.reg? c, s.tbs.floorTime, (s.cell c).expiry with
  | some r, some now, some expiry =>
    let x := s.lotStep l
    let p := s.programOf x
    let e := maskCount (s.cell c).enabled
    (s.group (groupOf h)).authority.getLsbD c && pinAllows s.pinList (groupOf h) c && maskSubset p.caps r.caps &&
      tempAble r.temps x.temp && (s.profileOf x).minSites ≤ e && now < expiry &&
      estimate (l.acc.remaining l.pass) e p.indexTime + s.tst.settings.calMargin ≤ expiry - now
  | _, _, _ => false

/-- A pair of lot and cell is eligible (R64). -/
def State.eligible (s : State) (h : Nat) (l : Lot) (c : Nat) : Bool :=
  (s.cell c).state == .idle && (s.cell c).order.isNone && s.pairOk h l c

/-- The score of a pair (R66). -/
def State.score (s : State) (l : Lot) (c : Nat) : Nat :=
  let x := s.lotStep l
  scoreOf (s.cell c) (s.siteCount c) (s.programOf x).vals x.kit x.temp

/-- Of two candidates with their keys the better: a higher key, and the earlier one among equals. -/
def better (best : Option (Nat × Nat)) (c key : Nat) : Option (Nat × Nat) :=
  match best with
  | none => some (c, key)
  | some (b, k) => if k < key then some (c, key) else some (b, k)

/-- The candidate cell of the highest key, the lowest cell number among equals (R68, R78). -/
def bestCell (ok : Nat → Bool) (key : Nat → Nat) : Option Nat :=
  ((List.range 48).foldl (fun best c => if ok c then better best c (key c) else best) none).map Prod.fst

/-- The class of the lot of a cell's top run. -/
def State.topClass (s : State) (c : Nat) : Nat :=
  match s.top? c with
  | some r => ((s.lot? r.handle).map Lot.cls).getD 0
  | none => 0

/-- A cell is a preemption victim for a class-0 lot (R78). -/
def State.isVictim (s : State) (h : Nat) (l : Lot) (c : Nat) : Bool :=
  ((s.cell c).state == .running || (s.cell c).state == .paused) && (s.cell c).stack.length == 1 &&
    (s.topClass c == 2 || s.topClass c == 3) && s.pairOk h l c

/-- Pairing: the lot leaves the queue ASSIGNED, a run is pushed, the cell enters SETUP, PAIRED is counted with
the score (R69). -/
def State.pair (s : State) (h : Nat) (l : Lot) (c : Nat) : State :=
  let score := s.score l c
  let s := (s.leaveQueue h).setLotState h .assigned
  let s := s.pushRun c (Run.new h (s.slot h).inst l.step l.pass)
  let s := s.enterSetup c
  s.event .paired score

/-- A victim chosen: the lot becomes its incoming run, a stop with reason PREEMPT is requested, PREEMPTED and
PAIRED are counted (R79). -/
def State.preempt (s : State) (h : Nat) (l : Lot) (c : Nat) : State :=
  let score := s.score l c
  let cls := s.topClass c
  let s := (s.leaveQueue h).setLotState h .assigned
  let s := s.modCell c fun x => { x with incoming := some (Run.new h (s.slot h).inst l.step l.pass) }
  let s := s.requestStop c .preempt
  (s.event .preempted cls).event .paired score

/-- One member of the walk: paired with its best eligible cell, or given a victim, or left in place. `used`
holds the cells paired or chosen earlier in the pass (R68). -/
def State.walkMember (s : State) (used : List Nat) (m : Member) : State × List Nat :=
  match s.lot? m.handle with
  | none => (s, used)
  | some l =>
    match bestCell (fun c => !used.contains c && s.eligible m.handle l c) (s.score l) with
    | some c => (s.pair m.handle l c, c :: used)
    | none =>
      if l.cls = 0 then
        match bestCell (fun c => !used.contains c && s.isVictim m.handle l c) (fun c => s.topClass c * 1001 + s.score l c) with
        | some c => (s.preempt m.handle l c, c :: used)
        | none => (s, used)
      else (s, used)

/-- A pass is barred while the inhibit line is asserted, in SAFE, or while floor time is unset (R67). -/
def State.passBarred (s : State) : Bool := s.tbs.inhibited || s.tbs.mode == .safe || s.tbs.floorTime.isNone

/-- The walk over the queue's members, first to last (R68). -/
def State.walk (s : State) (used : List Nat) : List Member → State
  | [] => s
  | m :: rest => (s.walkMember used m).1.walk (s.walkMember used m).2 rest

/-- One dispatch pass (R67, R68). -/
def State.dispatchPass (s : State) : State := if s.passBarred then s else s.walk [] s.dar.queue

/-- The pass a step's events started is taken when the step's own work is done, once: a second walk over the queue
finds nothing the first left (R67; log entry 10). -/
def State.settle (s : State) : State :=
  if s.dar.passDue then
    let s := s.dispatchPass
    { s with dar := { s.dar with passDue := false } }
  else s

/-- The outcome of a command: its effect, then the dispatch pass it started. -/
def done (s : State) : Host.Outcome State Fault Refusal := .next s.settle

/-- A lapse judged for a cell: a stop with reason CALIBRATION, a setup abandoned, or nothing (R52, R53). -/
def State.judgeLapse (s : State) (c : Nat) : State :=
  if lapsed s.tbs.floorTime (s.cell c).expiry then
    match (s.cell c).state with
    | .starting | .running | .paused => s.requestStop c .calibration
    | .setup => s.abandonSetup c
    | .stopping | .offline | .idle | .fault => s
  else s

/-- The lapse judged for every cell at a change of floor time, in cell order (R52; log entry 11). -/
def State.judgeLapses (s : State) : State := (List.range 48).foldl (fun s c => s.judgeLapse c) s

end Sys2Proof.Machine
end

