-- ==== Sys2Proof/Machine/CellMsgs.lean ====
section
/-! DEFINITION. The messages of the cells: STATUS (R41 to R50, R52, R56, R57, R73), LOAD_DONE (R72), the
bin frames (R98 to R105), and the forwarding every one of them ends in (R165). -/

namespace Sys2Proof.Machine

/-- The mode is STARTING, in which no floor message is taken (R165, R167, R185). -/
def State.isStarting (s : State) : Bool := s.tbs.mode == .starting

/-- A frame arrives: while the reset input is asserted it is lost without count; otherwise it has its
effect, and the dispatch pass it started is taken (R186, R67). -/
def arrival (s : State) (take : State → State) : Host.Outcome State Fault Refusal :=
  if s.tbs.resetIn then .next s else done (take s)

/-- A cell message arrives on the floor port: forwarded untaken in STARTING; otherwise taken by its owner and
then forwarded unchanged (R165, R166). -/
def fromCell (kind : Code16) (m : Msg) (take : State → State) (s : State) : Host.Outcome State Fault Refusal :=
  arrival s fun s => (if s.isStarting then s else take s).forward kind m m.body

/-- A bin frame arrives on the floor port: forwarded untaken and unannotated in STARTING; otherwise judged,
annotated and forwarded (R165, R204). -/
def binFrame (kind : Code16) (m : Msg) (take : State → State) (s : State) : Host.Outcome State Fault Refusal :=
  arrival s fun s => if s.isStarting then s.forward kind m m.body else take s

/-! ### STATUS -/

/-- Whether a STATUS finds its cell with a program recorded from it (R43). -/
def takesLoaded : CellState → Bool
  | .offline | .idle | .fault => true
  | .setup | .starting | .running | .paused | .stopping => false

/-- Whether a STATUS finds its cell with a kit recorded from it (R43). -/
def takesKit : CellState → Bool
  | .offline | .idle | .setup | .fault => true
  | .starting | .running | .paused | .stopping => false

/-- The equipment values recorded (R41, R43), by the state the STATUS arrived in. The run-active flag is recorded without
effect, in STARTING and STOPPING as R42 says and in every other state with the handler state (log entry 45). -/
def recordEquipment (b : StatusBody) (arrived : CellState) (restart : Bool) (x : Cell) : Cell :=
  { x with
    testerReady := some b.ready
    handler     := some b.handler
    runActive   := some b.runActive
    loaded      := if restart || takesLoaded arrived then b.loaded else x.loaded
    kit         := if restart || takesKit arrived then b.kit else x.kit
    setpoint    := some b.setpoint
    atSetpoint  := b.atSetpoint }

/-- How a notice names the lot of a cell's top run (R45). -/
def State.topRef (s : State) (c : Nat) : Option (Nat × Nat) := (s.top? c).map fun r => (r.handle, r.inst)

/-- A cell whose lots are gone and no run is active: IDLE when its tester is ready, otherwise OFFLINE (R44, R46,
R50). -/
def State.toReady (s : State) (c : Nat) (ready : Bool) : State := if ready then s.toIdle c else s.toOffline c

/-- An equipment restart (R50): INTERRUPTED on the top run's lot of a started or stopping cell, every run
detached, then FAULT, IDLE or OFFLINE. The equipment values are recorded by step 3 of R42. -/
def State.equipmentRestart (s : State) (c : Nat) (b : StatusBody) : State :=
  let named := s.topRef c
  let s := match (s.cell c).state, s.top? c with
    | .starting, some r | .running, some r | .paused, some r | .stopping, some r =>
      s.placeQuiet r.handle ⟨.interrupted, .cell c, [], none⟩
    | _, _ => s
  let s := s.detach c
  if b.runActive then s.toFault c .unownedRun named else s.toReady c b.ready

/-- The state handling of a STATUS in FAULT (R46). -/
def State.statusInFault (s : State) (c : Nat) (b : StatusBody) : State :=
  if b.runActive then
    if (s.cell c).cause = some .unownedRun then s.order c none (.stopRun .unowned) else s.toFault c .unownedRun none
  else if b.maintClear then s.toReady c b.ready
  else s

/-- The state handling of a STATUS that is no equipment restart (R42 step 2): R44, R46 and R47. -/
def State.statusState (s : State) (c : Nat) (b : StatusBody) : State :=
  match (s.cell c).state with
  | .offline =>
    if b.runActive then s.toFault c .unownedRun none else if b.ready then s.toIdle c else s
  | .idle =>
    if b.runActive then s.toFault c .unownedRun none else if b.ready then s else s.toOffline c
  | .setup =>
    if b.runActive then (s.detach c).toFault c .unownedRun (s.topRef c) else s
  | .fault => s.statusInFault c b
  | .running =>
    if b.handler = .jammed then
      s.modCell c fun x => { x.enter .paused with timers := { (x.enter .paused).timers with jam := some s.tst.settings.jam } }
    else s
  | .paused => if b.handler = .running then s.toRunning c else s
  | .starting | .stopping => s

/-- KIT and SOAK judged against the values just recorded; a completed item's timer stops (R73). -/
def completeItems (x : RouteStep) (c : Cell) : Cell :=
  let kit := c.items.kit && kitMismatch c x.kit
  let soak := c.items.soak && soakMismatch c x.temp
  { c with
    items  := { c.items with kit := kit, soak := soak }
    timers := { c.timers with kit := if kit then c.timers.kit else none, soak := if soak then c.timers.soak else none } }

/-- The setup items judged at a STATUS taken in SETUP; when none is left pending the setup goes on (R73, R74). -/
def State.statusItems (s : State) (c : Nat) : State :=
  match (s.cell c).state, s.top? c with
  | .setup, some r => (s.modCell c (completeItems (s.runStep r))).checkSetup c
  | _, _ => s

/-- The calibration expiry taken from a STATUS; a change of value is a lapse judgement and starts a pass (R42
step 4, R52). -/
def State.takeExpiry (s : State) (c : Nat) (e : Option Nat) : State :=
  if (s.cell c).expiry = e then s
  else ((s.modCell c fun x => { x with expiry := e }).judgeLapse c).startPass

/-- SITE_MASK with the enabled set, and its report pending (R55 to R57). -/
def State.sendMask (s : State) (c : Nat) : State :=
  (s.modCell c fun x => { x with reportPending := true }).order c none (.siteMask (s.cell c).enabled)

/-- Site-restore (R57); a changed set starts a pass (R42). -/
def State.restoreSites (s : State) (c : Nat) : State :=
  let all := allSites (s.siteCount c)
  let changed := (s.cell c).enabled ≠ all
  let s := (s.modCell c fun x => { x with enabled := all }).sendMask c
  if changed then s.startPass else s

/-- The reported set compared with the enabled set (R56). -/
def State.compareSites (s : State) (c : Nat) (reported : Mask16) : State :=
  if reported = (s.cell c).enabled then s.modCell c fun x => { x with confirmed := x.enabled, reportPending := false }
  else s.sendMask c

/-- The silence timer after a STATUS: started anew, or idle in OFFLINE (R42 step 6). -/
def State.restartSilence (s : State) (c : Nat) : State :=
  s.modTimers c fun t => { t with
    silence := if (s.cell c).state = .offline then none else some s.tst.settings.silence }

/-- An accepted STATUS, step by step (R42). A restarted flag clears an outstanding load order (R71); R42 has no step for it, and
it is cleared before step 1, so that an IDLE cell's clearing starts a pass whatever state the STATUS then gives the cell (log
entry 52). -/
def State.acceptStatus (s : State) (c : Nat) (b : StatusBody) : State :=
  let arrived := (s.cell c).state
  let restart := b.restarted && (s.cell c).holdsRun
  let s := if b.restarted then s.clearOrder c else s
  let s := if restart then s.equipmentRestart c b else s.statusState c b
  let s := s.modCell c (recordEquipment b arrived restart)
  let s := if arrived = .setup then s.statusItems c else s
  let s := s.takeExpiry c b.expiry
  let s := if b.siteRestore then s.restoreSites c else s.compareSites c b.sites
  s.restartSilence c

/-- A STATUS: dropped when MALFORMED or of an unknown cell, otherwise accepted (R40, R41, R42). -/
def State.takeStatus (s : State) (m : Msg) : State :=
  match readStatus m.body with
  | some b => if s.cellCheck m then s.acceptStatus m.cell.toNat b else s
  | none => s

/-- STATUS (R42). -/
def execStatus (m : Msg) (s : State) : Host.Outcome State Fault Refusal :=
  fromCell Kind.status m (fun s => s.takeStatus m) s

/-! ### LOAD_DONE -/

/-- The loaded program a LOAD_DONE leaves: the values reported, or none at FAIL (R72). -/
def recordLoaded (ok : Bool) (v : ProgVals) (x : Cell) : Cell := { x with loaded := if ok then some v else none }

/-- The LOAD item completed: not pending, its timer stopped (R72). -/
def State.completeLoad (s : State) (c : Nat) : State :=
  s.modCell c fun x => { x with items := { x.items with load := false }, timers := { x.timers with load := none } }

/-- The LOAD item judged anew after the answer to an earlier order (R72). -/
def State.rejudgeLoad (s : State) (c : Nat) : State :=
  match (s.cell c).state, s.top? c with
  | .setup, some r =>
    let v := (s.programOf (s.runStep r)).vals
    if loadMismatch (s.cell c) v then s.startLoad c r v else (s.completeLoad c).checkSetup c
  | _, _ => s

/-- The answer to the order of the setup under way (R72): completion, or LOAD_FAILED. -/
def State.loadAnswer (s : State) (c : Nat) (ok : Bool) (v ordered : ProgVals) : State :=
  let s := (s.clearOrder c).modCell c (recordLoaded ok v)
  let s := s.modTimers c fun t => { t with load := none }
  if ok ∧ v = ordered then (s.completeLoad c).checkSetup c else s.setupFailure c .loadFailed

/-- A LOAD_DONE of an accepted cell, by the outstanding load order and its current-setup mark (R72). -/
def State.acceptLoadDone (s : State) (c : Nat) (ok : Bool) (v : ProgVals) : State :=
  match (s.cell c).order with
  | some ordered =>
    if (s.cell c).orderCurrent && (s.cell c).items.load then s.loadAnswer c ok v ordered
    else ((s.clearOrder c).modCell c (recordLoaded ok v)).rejudgeLoad c
  | none => if takesLoaded (s.cell c).state then s.modCell c (recordLoaded ok v) else s

/-- A LOAD_DONE: dropped when MALFORMED or of an unknown cell (R40, R203), otherwise taken. -/
def State.takeLoadDone (s : State) (m : Msg) : State :=
  match readLoadDone m.body with
  | some (ok, v) => if s.cellCheck m then s.acceptLoadDone m.cell.toNat ok v else s
  | none => s

/-- LOAD_DONE (R72). -/
def execLoadDone (m : Msg) (s : State) : Host.Outcome State Fault Refusal :=
  fromCell Kind.loadDone m (fun s => s.takeLoadDone m) s

/-! ### Bin frames -/

/-- BIN (R99). -/
def execBin (m : Msg) (s : State) : Host.Outcome State Fault Refusal := binFrame Kind.bin m (fun s => s.takeBin m) s

/-- BIN_COMPACT (R104). -/
def execBinCompact (m : Msg) (s : State) : Host.Outcome State Fault Refusal :=
  binFrame Kind.binCompact m (fun s => s.takeCompact m) s

end Sys2Proof.Machine
end

