-- ==== Sys2Proof/Machine/Timers.lean ====
section
/-! DEFINITION. The second event (R194), what it drives, and the expiries of the seven timers of a cell (R47
to R49, R58, R76). A timer counts down at each second event and is due at 0; its expiry is the command of its
own row or is listed in the second event that makes it due, and an expiry whose timer is not due changes nothing
(R58; log entry 12). -/

namespace Sys2Proof.Machine

/-! ### Occupancy samples (R199) -/

/-- The number of cells in a state. -/
def State.cellsIn (s : State) (st : CellState) : Nat := s.ctr.toList.countP fun x => x.state == st

/-- The number of lots HELD. -/
def State.lotsHeld (s : State) : Nat :=
  s.ldr.slots.toList.countP fun x => (x.lot.map Lot.state) == some .held

/-- One sample of an occupancy source (R199). -/
def State.sampleOf (s : State) : OccSource → Nat
  | .cellsRunning => s.cellsIn .running
  | .cellsSetup => s.cellsIn .setup
  | .cellsFault => s.cellsIn .fault
  | .lotsWaiting => s.dar.queue.length
  | .lotsHeld => s.lotsHeld
  | .shipDepth => s.rlu.ship.length

/-- One counter's value after a sample `v` (R199). -/
def sampledValue (c : CounterCfg) (v : Nat) (last : Option Bool) (n : Nat) : Nat :=
  match c.mode with
  | .level => if meets c v then bump n 1 else n
  | .edge => if meets c v && last == some false then bump n 1 else n
  | .accumulate => bump n v
  | .event => n

/-- One counter's last-condition record after a sample: only EDGE mode keeps one (R199). -/
def sampledLast (c : CounterCfg) (v : Nat) (last : Option Bool) : Option Bool :=
  if c.mode = .edge then some (meets c v) else last

/-- Value and record of one counter after this second's sample; only an occupancy source is sampled (R199). -/
def State.sampleCounter (s : State) (i : Nat) : Nat × Option Bool :=
  let n := vget s.fcn.values 0 i
  let last := vget s.fcn.last none i
  match vget s.tst.counters none i with
  | none => (n, last)
  | some c => match c.source with
    | .event _ => (n, last)
    | .occupancy o => (sampledValue c (s.sampleOf o) last n, sampledLast c (s.sampleOf o) last)

/-- Every counter of an occupancy source takes its sample (R199). -/
def State.sample (s : State) : State :=
  { s with fcn := ⟨Vector.ofFn fun i => (s.sampleCounter i.val).1, Vector.ofFn fun i => (s.sampleCounter i.val).2⟩ }

/-! ### The second event (R194) -/

/-- A running count one second event later; at 0 it is due and stays (R58). -/
def countDown (t : Option Nat) : Option Nat := t.map fun n => n - 1

/-- Every timer of a cell counts down (R58). -/
def Timers.tick (t : Timers) : Timers where
  silence := countDown t.silence
  load    := countDown t.load
  kit     := countDown t.kit
  soak    := countDown t.soak
  start   := countDown t.start
  stop    := countDown t.stop
  jam     := countDown t.jam

/-- The timers of the cells and of the flash device count the second event (R58, R186, R188, R189). -/
def State.tickTimers (s : State) : State :=
  { s with
    ctr := s.ctr.map fun x => { x with timers := x.timers.tick }
    scn := { s.scn with flashLeft := countDown s.scn.flashLeft } }

/-- Floor time a second later, stopping at its top (R193). -/
def nextTime (f : Nat) : Nat := if f = maxCount then f else f + 1

/-- Floor time, when set, advances, and a change of it is judged for lapses (R52, R193). -/
def State.tickTime (s : State) : State :=
  match s.tbs.floorTime with
  | none => s
  | some f =>
    let s := { s with tbs := { s.tbs with floorTime := some (nextTime f) } }
    if nextTime f = f then s else s.judgeLapses

/-! ### Expiries -/

/-- A timer stands at 0: its expiry is due (R58). -/
def isDue (t : Option Nat) : Bool := t == some 0

/-- The silence expiry: runs detached, the cell OFFLINE, no order and no notice of its own (R49). What the detach closes or
holds is told by LOT_STEP_DONE and LOT_HELD (R91, R131; log entry 49). -/
def State.fallSilent (s : State) (c : Nat) : State := (s.detach c).toOffline c

/-- The stop expiry: runs detached, then FAULT naming the top run's lot (R45, R48). -/
def State.stopExpired (s : State) (c : Nat) : State := (s.detach c).toFault c .stopTimeout (s.topRef c)

/-- The timer of a cell under its name (R58). -/
def timerOf : CellTimer → Timers → Option Nat
  | .silence => Timers.silence
  | .load => Timers.load
  | .kit => Timers.kit
  | .soak => Timers.soak
  | .start => Timers.start
  | .stop => Timers.stop
  | .jam => Timers.jam

/-- The states of a cell in which a timer runs (R58). -/
def timerRunsIn : CellTimer → CellState → Bool
  | .silence, st => st != .offline
  | .load, st | .kit, st | .soak, st => st == .setup
  | .start, st => st == .starting
  | .stop, st => st == .stopping
  | .jam, st => st == .paused

/-- What the expiry of a timer does (R47, R48, R49, R76). -/
def State.expired (s : State) (c : Nat) : CellTimer → State
  | .silence => s.fallSilent c
  | .load | .kit | .soak => s.setupFailure c .setupTimeout
  | .start => s.setupFailure c .startTimeout
  | .stop => s.stopExpired c
  | .jam => s.requestStop c .jamTimeout

/-- An expiry of a timer of a cell: it acts when the timer is due and the cell is in a state the timer runs in;
an expiry of a stopped timer does not occur (R58). -/
def State.takeTimeout (s : State) (c : Nat) (t : CellTimer) : State :=
  if isDue (timerOf t (s.cell c).timers) && timerRunsIn t (s.cell c).state then (s.expired c t).settle else s

/-- SILENCE_TIMEOUT (R49). -/
def execSilenceTimeout (c : Fin 48) (s : State) : Host.Outcome State Fault Refusal := .next (s.takeTimeout c.val .silence)

/-- LOAD_TIMEOUT (R76). -/
def execLoadTimeout (c : Fin 48) (s : State) : Host.Outcome State Fault Refusal := .next (s.takeTimeout c.val .load)

/-- KIT_TIMEOUT (R76). -/
def execKitTimeout (c : Fin 48) (s : State) : Host.Outcome State Fault Refusal := .next (s.takeTimeout c.val .kit)

/-- SOAK_TIMEOUT (R76). -/
def execSoakTimeout (c : Fin 48) (s : State) : Host.Outcome State Fault Refusal := .next (s.takeTimeout c.val .soak)

/-- START_TIMEOUT (R76). -/
def execStartTimeout (c : Fin 48) (s : State) : Host.Outcome State Fault Refusal := .next (s.takeTimeout c.val .start)

/-- STOP_TIMEOUT (R48). -/
def execStopTimeout (c : Fin 48) (s : State) : Host.Outcome State Fault Refusal := .next (s.takeTimeout c.val .stop)

/-- JAM_TIMEOUT (R47). -/
def execJamTimeout (c : Fin 48) (s : State) : Host.Outcome State Fault Refusal := .next (s.takeTimeout c.val .jam)

/-! ### The second event, taken whole (R194) -/

/-- The listed expiries, then the samples of the counters, which reflect them (R194, R199). -/
def State.sampleAfter (s : State) (taken : List (Fin 48 × CellTimer)) : State :=
  (taken.foldl (fun t x => t.takeTimeout x.1.val x.2) s).sample

/-- The second event with the counters' samples at the named moment, behind the expiries listed (R194; log
entry 11). -/
def State.second (s : State) (sampling : Sampling) : State :=
  let counted := s.tickTimers
  let sampled (t : State) : State := t.sampleAfter sampling.taken
  match sampling.moment with
  | .first => ((sampled counted).tickTime).settle
  | .afterLapse => (sampled counted.tickTime).settle
  | .last => sampled (counted.tickTime).settle

/-- SECOND_EVENT (R194): produced from the release of hard reset. -/
def execSecondEvent (sampling : Sampling) (s : State) : Host.Outcome State Fault Refusal :=
  if s.tbs.resetIn then .next s else .next (s.second sampling)

/-! ### The dispatch-inhibit input (R195) -/

/-- The line as the input and the active level in force give it (R195). -/
def State.lineAsserted (s : State) : Bool := s.tbs.inhibitIn == s.tst.settings.inhibit

/-- The line judged anew; a release starts a pass unless the mode is STARTING (R28, R195). -/
def State.judgeLine (s : State) : State :=
  let was := s.tbs.inhibited
  let s := { s with tbs := { s.tbs with inhibited := s.lineAsserted } }
  if was && !s.tbs.inhibited && !s.isStarting then s.startPass else s

/-- The line is judged from the moment the active tables are set at start-up (R195). -/
def State.judgesLine (s : State) : Bool := !s.tbs.resetIn && !(s.scn.loading == .startUp)

/-- INHIBIT_CHANGE (R195): the input's level is the outside's; it is judged only once the tables are set. -/
def execInhibitChange (level : Level) (s : State) : Host.Outcome State Fault Refusal :=
  let s := { s with tbs := { s.tbs with inhibitIn := level } }
  if s.judgesLine then done s.judgeLine else .next s

end Sys2Proof.Machine
end

