-- ==== Sys2Proof/Machine/Runs.lean ====
section
/-! DEFINITION. The run events RUN_STARTED, PASS_END and RUN_STOPPED: their ordered checks and drops (R85),
the start of a run (R75, R86), the end of a pass (R87 to R89), and the settlement of a stop (R80, R92,
R94). -/

namespace Sys2Proof.Machine

/-! ### Checks and drops (R85) -/

/-- Checks 2 to 6 of R85: the first that fails, or COUNTED for an event that passes them. `pass` is the pass
of a PASS_END. -/
def State.eventCheck (s : State) (m : Msg) (pass : Option Pass) : Drop :=
  if !s.cellCheck m then .unknownCell
  else match s.lookup m.handle.toNat m.inst.toNat with
    | .found _ => match s.top? m.cell.toNat with
      | none => .notRunning
      | some r =>
        if r.handle ≠ m.handle.toNat ∨ r.inst ≠ m.inst.toNat then .notRunning
        else if r.step ≠ m.step.toNat then .wrongStep
        else match pass with
          | some p => if r.pass = p then .counted else .wrongPass
          | none => .counted
    | x => x.drop

/-- The top of the run-event drop count (R85). -/
def maxDrops : Nat := 65535

/-- A drop by checks 3 to 7 recorded in the cell (R85). -/
def State.countDrop (s : State) (c : Nat) (d : Drop) : State :=
  s.modCell c fun x => { x with drops := min maxDrops (x.drops + 1), lastDrop := some d }

/-- A run event with a good body: dropped by the first check that fails, or taken, which sets the lot's
activity mark (R85, R16). `taken` is check 7. -/
def State.runEvent (s : State) (m : Msg) (pass : Option Pass) (taken : Cell → Run → Bool)
    (act : State → Nat → Run → State) : State :=
  let c := m.cell.toNat
  match s.eventCheck m pass, s.top? c with
  | .counted, some r =>
    if taken (s.cell c) r then act (s.modLot r.handle fun l => { l with mark := true }) c r
    else s.countDrop c .unexpected
  | .unknownCell, _ => s
  | d, _ => s.countDrop c d

/-! ### The start of a run -/

/-- RUN_STARTED taken for the top run (R75, R86): awaiting-start mark cleared, lot RUNNING, setup-fail count 0,
segment opened if it is not open; in STARTING the cell becomes RUNNING. -/
def State.startRun (s : State) (c : Nat) (r : Run) : State :=
  let s := s.modTop c fun r => { r with awaiting := false }
  let s := s.modLot r.handle fun l => { l with state := .running, setupFails := 0 }
  let s := if r.segOpen then s else s.openSegment c r
  if (s.cell c).state = .starting then s.toRunning c else s

/-- RUN_STARTED is taken in STARTING and STOPPING while the run awaits its start (R86). -/
def takesStart (x : Cell) (r : Run) : Bool := r.awaiting && (x.state == .starting || x.state == .stopping)

/-- A RUN_STARTED: its body is empty (R85). -/
def State.takeRunStarted (s : State) (m : Msg) : State :=
  match readNothing m.body with
  | some () => s.runEvent m none takesStart fun s c r => s.startRun c r
  | none => s

/-- RUN_STARTED (R86). -/
def execRunStarted (m : Msg) (s : State) : Host.Outcome State Fault Refusal :=
  fromCell Kind.runStarted m (fun s => s.takeRunStarted m) s

/-! ### The end of a pass -/

/-- PASS_END is taken in STARTING, RUNNING and PAUSED, and in STOPPING while no stopped pass end is marked (R87,
R89). -/
def takesPassEnd (x : Cell) (r : Run) : Bool :=
  match x.state with
  | .starting | .running | .paused => true
  | .stopping => r.stopped.isNone
  | .offline | .idle | .setup | .fault => false

/-- A step end at PASS_END: the step closes, the run leaves the stack, the cell goes on, and the lot goes where
its step's close sends it (R90). -/
def State.endStep (s : State) (c : Nat) (r : Run) : State :=
  (((s.stepEnd c r.handle).popTop c).afterTop c).sendLot r.handle true true

/-- The retest started on the same cell (R88). -/
def State.startRetest (s : State) (c h : Nat) : State :=
  let s := s.toRetest c h
  match s.top? c with
  | some r => s.sendStart c r
  | none => s

/-- PASS_END in STARTING, RUNNING or PAUSED (R87). -/
def State.endPass (s : State) (c : Nat) (r : Run) (pass : Pass) (fed : Nat) : State :=
  let s := if (s.cell c).state = .starting then s.startRun c r else s
  let s := (s.clearCtx c).modAcc r.handle fun a => setFed a pass fed
  match s.lot? r.handle with
  | none => s
  | some l => if pass = .first ∧ retestDue (s.lotStep l) l.acc then s.startRetest c r.handle else s.endStep c r

/-- PASS_END in STOPPING: a start implied if the run awaits it, then the stopped-pass-end mark (R89). -/
def State.markPassEnd (s : State) (c : Nat) (r : Run) (pass : Pass) (fed : Nat) : State :=
  let s := if r.awaiting then s.startRun c r else s
  s.modTop c fun r => { r with stopped := some (pass, fed) }

/-- A PASS_END (R87, R89). -/
def State.takePassEnd (s : State) (m : Msg) : State :=
  match readPassEnd m.body with
  | some (pass, fed) => s.runEvent m (some pass) takesPassEnd fun s c r =>
      if (s.cell c).state = .stopping then s.markPassEnd c r pass fed else s.endPass c r pass fed
  | none => s

/-- PASS_END (R87). -/
def execPassEnd (m : Msg) (s : State) : Host.Outcome State Fault Refusal :=
  fromCell Kind.passEnd m (fun s => s.takePassEnd m) s

/-! ### The end of a stop -/

/-- RUN_STOPPED is taken in STARTING, RUNNING, PAUSED and STOPPING (R92, R94). -/
def takesStop : CellState → Bool
  | .starting | .running | .paused | .stopping => true
  | .offline | .idle | .setup | .fault => false

/-- The close cause of a stop reason (R92). -/
def causeOf : StopReason → CloseCause
  | .calibration => .calibration
  | .jamTimeout => .jamTimeout
  | .hold | .quantity | .preempt | .unowned => .hold

/-- The segment of the top run closed if one is open. -/
def State.closeTop (s : State) (c : Nat) (cause : CloseCause) : State :=
  match s.top? c with
  | some r => s.closeIfOpen c r cause
  | none => s

/-- The settlement of a stop for any reason but PREEMPT: the segment closes if still open, the run leaves the
stack, the lot and the cell go on (R92). -/
def State.settleStop (s : State) (c h : Nat) (closed : Bool) (cause : CloseCause) : State :=
  (((s.closeTop c cause).popTop c).sendLot h closed true).afterTop c

/-- The incoming run pushed on the stack (R80 step 5). -/
def State.takeIncoming (s : State) (c : Nat) : State :=
  match (s.cell c).incoming with
  | some i => (s.modCell c fun x => { x with incoming := none }).pushRun c i
  | none => s

/-- The settlement of a stop for PREEMPT (R80). -/
def State.settlePreempt (s : State) (c h : Nat) (closed : Bool) : State :=
  let s :=
    if s.hasHolds h then ((s.closeTop c .hold).popTop c).toHeld h
    else if closed then (s.popTop c).passOn h
    else s.setLotState h .preempted
  (s.takeIncoming c).afterTop c

/-- RUN_STOPPED in STOPPING: context and awaiting-start mark cleared, the stop timer stopped, a stopped pass end
settled, then the run settled by the stop reason (R92, R93). -/
def State.endStop (s : State) (c : Nat) (r : Run) : State :=
  let reason := ((s.cell c).stopReason).getD .hold
  let s := (s.clearCtx c).modTop c fun r => { r with awaiting := false }
  let s := s.modTimers c fun t => { t with stop := none }
  let (s, closed) := s.settleStopped c
  if reason = .preempt then s.settlePreempt c r.handle closed else s.settleStop c r.handle closed (causeOf reason)

/-- RUN_STOPPED in STARTING, RUNNING or PAUSED: a stop the part did not order (R94). -/
def State.unorderedStop (s : State) (c : Nat) (r : Run) : State :=
  ((s.clearCtx c).modTop c fun r => { r with awaiting := false }).settleStop c r.handle false .fault

/-- A RUN_STOPPED: its body is empty (R85, R92, R94). -/
def State.takeRunStopped (s : State) (m : Msg) : State :=
  match readNothing m.body with
  | some () => s.runEvent m none (fun x _ => takesStop x.state) fun s c r =>
      if (s.cell c).state = .stopping then s.endStop c r else s.unorderedStop c r
  | none => s

/-- RUN_STOPPED (R92). -/
def execRunStopped (m : Msg) (s : State) : Host.Outcome State Fault Refusal :=
  fromCell Kind.runStopped m (fun s => s.takeRunStopped m) s

end Sys2Proof.Machine
end

