-- ==== Sys2Proof/Machine/Requests.lean ====
section
/-! DEFINITION. Management requests: the check of their source and the REPLY every one draws (R167, R168, R172,
R173), and the requests of the lot directory (R11 to R17), the hold unit (R136 to R144), the release unit
(R159, R160) and the time base (R193). -/

namespace Sys2Proof.Machine

/-! ### The management check -/

/-- The management check (R168). -/
def State.isManager (s : State) (m : Msg) : Bool :=
  s.tst.settings.mgmtAddr == 0 || m.src == s.tst.settings.mgmtAddr

/-- A start-up drop counted (R167). -/
def State.countStartupDrop (s : State) : State := { s with pcl := { s.pcl with startupDrops := bump s.pcl.startupDrops 1 } }

/-- A NOT_MANAGER drop counted (R168). -/
def State.countNotManager (s : State) : State := { s with pcl := { s.pcl with notManager := bump s.pcl.notManager 1 } }

/-- A frame addressed to PART arrives on the plant port: dropped and counted in STARTING, dropped and counted
when its source is no manager, answered MALFORMED with tag 0 when it is too short for its tag, and
otherwise handed to its owner with its reference and the body after the tag (R167, R168, R172). -/
def State.manage (s : State) (kind : Code16) (m : Msg) (take : ReqRef → List Byte → State → State) : State :=
  if s.isStarting then s.countStartupDrop
  else if !s.isManager m then s.countNotManager
  else match readTag m.body with
    | some (tag, rest) => take (reqRef m tag) rest s
    | none => s.reply kind (reqRef m 0) .malformed .empty

/-- A management request arrives on the plant port. -/
def request (kind : Code16) (m : Msg) (take : ReqRef → List Byte → State → State) (s : State) :
    Host.Outcome State Fault Refusal :=
  arrival s fun s => s.manage kind m take

/-! ### LOT_ORDER (R11 to R14) -/

/-- The largest lot quantity (R11). -/
def maxQuantity : Nat := 250000

/-- A route that can be ordered: filled, and every entry its steps name filled (R12 check 4). -/
def State.routeOrderable (s : State) (r : Nat) : Bool :=
  match s.route? r with
  | none => false
  | some x => x.steps.all fun y =>
      (s.program? y.program).isSome && (s.binMap? y.binMap).isSome && (s.profile? y.profile).isSome

/-- The lowest FREE handle of a group (R13). -/
def State.freeHandle (s : State) (g : Nat) : Option Nat := (groupHandles g).find? fun h => (s.lot? h).isNone

/-- The six checks of R12, the first that fails, or the handle the lot takes. -/
def State.orderCheck (s : State) (b : OrderBody) : ReplyCode × Nat :=
  let g := s.group b.group
  if s.tbs.mode = .safe then (.safeMode, 0)
  else if 32 ≤ b.group ∨ g.state = .unbound then (.unknownGroup, 0)
  else if g.state = .retired ∨ (g.state = .held ∧ g.retirePending) then (.groupRetired, 0)
  else if !s.routeOrderable b.route then (.badRoute, 0)
  else if b.qty = 0 ∨ maxQuantity < b.qty then (.badQuantity, 0)
  else match s.freeHandle b.group with
    | none => (.groupFull, 0)
    | some h => (.ok, h)

/-- The record of a new lot (R2, R13). -/
def State.newLot (s : State) (b : OrderBody) : Lot where
  state      := if (s.group b.group).state = .held then .held else .waiting
  name       := b.name
  route      := b.route
  cls        := min b.cls 3
  qty        := b.qty
  note       := b.note
  step       := 0
  pass       := .first
  summaries  := []
  acc        := Acc.start b.qty (unitsInOf (s.routeStep b.route 0) b.qty)
  segments   := []
  holds      := []
  target     := none
  setupFails := 0
  reworked   := Vector.replicate 6 false
  arrival    := s.now
  mark       := true
  completion := none
  relPending := false

/-- A FAMILY hold (R14, R137). -/
def familyHold : NewHold := ⟨.family, .plant, [], none⟩

/-- A lot created in a slot: WAITING in the queue, or HELD with a FAMILY entry in a HELD group (R13, R14). -/
def State.createLot (s : State) (b : OrderBody) (h : Nat) : State :=
  let l := s.newLot b
  let s := { s with ldr := { s.ldr with useCount := vmod s.ldr.useCount b.route fun n => n + 1 } }
  let s := s.modSlot h fun x => { x with lot := some l }
  if l.state = .held then (s.addHold h familyHold).heldNotice h .family .held
  else s.joinQueue h true

/-- A LOT_ORDER with its tag read (R11 to R13). -/
def takeLotOrder (ref : ReqRef) (rest : List Byte) (s : State) : State :=
  match readLotOrder rest with
  | none => s.reply Kind.lotOrder ref .malformed .empty
  | some b =>
    match s.orderCheck b with
    | (.ok, h) =>
      let s := s.createLot b h
      s.reply Kind.lotOrder ref .ok (.lotOrder h (s.slot h).inst (min b.cls 3))
    | (code, _) => s.reply Kind.lotOrder ref code .empty

/-- LOT_ORDER (R12). -/
def execLotOrder (m : Msg) (s : State) : Host.Outcome State Fault Refusal := request Kind.lotOrder m takeLotOrder s

/-! ### SWEEP (R17) -/

/-- The entry of a lot in a SWEEP's list: listed while live with a clear mark (R17). -/
def State.sweepEntry (s : State) (h : Nat) : Option (Nat × Nat × LotState) :=
  match s.lot? h with
  | some l => if l.mark then none else some (h, (s.slot h).inst, l.state)
  | none => none

/-- The marks of a group's live lots cleared (R17). -/
def State.clearMarks (s : State) (g : Nat) : State :=
  (groupHandles g).foldl (fun s h => s.modLot h fun l => { l with mark := false }) s

/-- A group request's checks: body, then a bound group (R17, R137 to R139). -/
def State.groupRequest (s : State) (kind : Code16) (ref : ReqRef) (rest : List Byte) (take : Nat → State → State) : State :=
  match readGroupArg rest with
  | none => s.reply kind ref .malformed .empty
  | some g =>
    if 32 ≤ g ∨ (s.group g).state = .unbound then s.reply kind ref .unknownGroup .empty else take g s

/-- A SWEEP with its tag read (R17). -/
def takeSweep (ref : ReqRef) (rest : List Byte) (s : State) : State :=
  s.groupRequest Kind.sweep ref rest fun g s =>
    let list := (groupHandles g).filterMap s.sweepEntry
    (s.clearMarks g).reply Kind.sweep ref .ok (.sweep list)

/-- SWEEP (R17). -/
def execSweep (m : Msg) (s : State) : Host.Outcome State Fault Refusal := request Kind.sweep m takeSweep s

/-! ### HOLD (R136) -/

/-- The REPLY of a HOLD (R136). -/
def State.holdReply (s : State) (ref : ReqRef) : State :=
  match s.lot? ref.handle with
  | none => s
  | some l => s.reply Kind.hold ref .ok
      (.hold l.state (((l.hold? .engineering).map HoldEntry.repeats).getD 0) l.holds.length l.target)

/-- A HOLD with its tag read (R136): the notices, then the REPLY (log entry 42). -/
def takeHold (ref : ReqRef) (rest : List Byte) (s : State) : State :=
  match readHold rest with
  | none => s.reply Kind.hold ref .malformed .empty
  | some note =>
    match s.lookup ref.handle ref.inst with
    | .found l =>
      if l.state = .released then s.reply Kind.hold ref .lotReleased .empty
      else (s.placeHold ref.handle ⟨.engineering, .plant, [], note⟩).holdReply ref
    | x => s.reply Kind.hold ref x.replyCode .empty

/-- HOLD (R136). -/
def execHold (m : Msg) (s : State) : Host.Outcome State Fault Refusal := request Kind.hold m takeHold s

/-! ### RELEASE (R140 to R144) -/

/-- The lot is the top run of a cell whose stop is pending (R140 check 3). -/
def State.stopPending (s : State) (h : Nat) : Bool :=
  match s.cellOfTop h with
  | some c => (s.cell c).state == .stopping
  | none => false

/-- Checks 3 to 6 of R140. -/
def State.releaseCheck (s : State) (h : Nat) (l : Lot) (reason : HoldReason) (d : Disposition) : ReplyCode :=
  if s.stopPending h then .busy
  else if !l.hasHold reason then .notHeld
  else if reason = .family then .familyLocked
  else if d = .rework ∧ vget l.reworked false l.step then .badDisposition
  else .ok

/-- The closed summary of a lot's current step marked waived (R121, R125, R152). -/
def markWaived (l : Lot) : List Summary :=
  l.summaries.map fun m => if m.step = l.step then { m with waived := true } else m

/-- The lot's current step has closed: its summary stands (R121). -/
def Lot.stepClosed (l : Lot) : Bool := l.summaries.any fun m => m.step == l.step

/-- What a CONTINUE of a GUARD entry accepts: the waivable kinds and RELEASE_LOW waived, with a closed step's
summary marked; the window emptied; a closed step accepted for FINAL_LOW, unless a REWORK has opened it again
(R125, R141, R142, R152; log entry 22). -/
def continueGuard (trips : List Trip) (l : Lot) : Lot :=
  let kinds := trips.filter fun t => waivable t || t == .releaseLow
  { l with
    acc       := { l.acc with waived := addTrips l.acc.waived kinds, window := [], winPass := 0 }
    summaries := if kinds.isEmpty then l.summaries else markWaived l
    target    := if trips.contains .finalLow && l.stepClosed then some .advance else l.target }

/-- What a CONTINUE of a QUANTITY entry accepts: the mark cleared, every closed summary reconciled (R122,
R141). -/
def continueQuantity (l : Lot) : Lot :=
  { l with
    acc       := { l.acc with qtyMark := false }
    summaries := l.summaries.map fun m => { m with reconciled := true } }

/-- The effect of CONTINUE beyond the entry's removal, by reason (R141). -/
def continueEffect (e : HoldEntry) (l : Lot) : Lot :=
  match e.reason with
  | .guard => continueGuard e.trips l
  | .quantity => continueQuantity l
  | .site | .equipment | .engineering | .family | .interrupted => l

/-- The restart of a lot's current step by REWORK (R126, R142). -/
def reworkLot (l : Lot) : Lot :=
  { l with
    reworked   := vmod l.reworked l.step fun _ => true
    acc        := Acc.start l.acc.entering l.acc.unitsIn
    segments   := []
    summaries  := l.summaries.filter fun m => m.step != l.step
    pass       := .first
    target     := some .resume
    completion := none }

/-- A SCRAP: every entry removed with its event, LOT_SCRAPPED, the slot freed, the REPLY (R143). -/
def State.scrapLot (s : State) (ref : ReqRef) (l : Lot) : State :=
  let named := s.lotRef ref.handle l
  let family := (s.group (groupOf ref.handle)).family
  let s := l.holds.foldl (fun s e => s.removeEntry ref.handle e.reason) s
  let s := s.notice (.lotScrapped named family l.holds l.summaries l.acc)
  (s.freeSlot ref.handle).reply Kind.release ref .ok (.scrap ref.handle named.inst)

/-- The REPLY of a CONTINUE or REWORK: the lot's state, the entries left, the target if any remain (R140). -/
def State.releaseReply (s : State) (ref : ReqRef) : State :=
  match s.lot? ref.handle with
  | none => s
  | some l => s.reply Kind.release ref .ok (.release l.state l.holds.length l.target)

/-- The entry removed, the disposition's effect on the lot made, its activity mark set, and the lot sent on when
no entry is left (R141, R142, R144, R147). -/
def State.releaseEntry (s : State) (ref : ReqRef) (reason : HoldReason) (effect : Lot → Lot) : State :=
  let s := (s.removeEntry ref.handle reason).modLot ref.handle fun l => { effect l with mark := true }
  (s.leaveHold ref.handle).releaseReply ref

/-- A RELEASE that passed its checks, by its disposition (R141 to R143). -/
def State.dispose (s : State) (ref : ReqRef) (l : Lot) (reason : HoldReason) : Disposition → State
  | .continue_ => match l.hold? reason with
    | some e => s.releaseEntry ref reason (continueEffect e)
    | none => s
  | .rework => s.releaseEntry ref reason reworkLot
  | .scrap => s.scrapLot ref l

/-- A RELEASE with its tag read (R140): the notices it draws, then the REPLY (log entry 42). -/
def takeRelease (ref : ReqRef) (rest : List Byte) (s : State) : State :=
  match readRelease rest with
  | none => s.reply Kind.release ref .malformed .empty
  | some (reason, d) =>
    match s.lookup ref.handle ref.inst with
    | .found l =>
      match s.releaseCheck ref.handle l reason d with
      | .ok => s.dispose ref l reason d
      | code => s.reply Kind.release ref code .empty
    | x => s.reply Kind.release ref x.replyCode .empty

/-- RELEASE with CONTINUE (R141). -/
def execReleaseContinue (m : Msg) (s : State) : Host.Outcome State Fault Refusal := request Kind.release m takeRelease s

/-- RELEASE with REWORK (R142). -/
def execReleaseRework (m : Msg) (s : State) : Host.Outcome State Fault Refusal := request Kind.release m takeRelease s

/-- RELEASE with SCRAP (R143). -/
def execReleaseScrap (m : Msg) (s : State) : Host.Outcome State Fault Refusal := request Kind.release m takeRelease s

/-! ### Group requests (R7, R137 to R139) -/

/-- The live lots of a group that are not RELEASED, in ascending handle order (R137). -/
def State.holdable (s : State) (g : Nat) : List Nat :=
  (groupHandles g).filter fun h => match s.lot? h with
    | some l => l.state != .released
    | none => false

/-- A GROUP_HOLD with its tag read (R137): the notices, then the REPLY (log entry 42). -/
def takeGroupHold (ref : ReqRef) (rest : List Byte) (s : State) : State :=
  s.groupRequest Kind.groupHold ref rest fun g s =>
    if (s.group g).state = .held then s.reply Kind.groupHold ref .ok (.groupHold 0)
    else
      let lots := s.holdable g
      let s := s.modGroup g fun x => { x with state := .held, retirePending := x.state == .retired }
      (lots.foldl (fun s h => s.placeHold h familyHold) s).reply Kind.groupHold ref .ok (.groupHold lots.length)

/-- GROUP_HOLD (R137). -/
def execGroupHold (m : Msg) (s : State) : Host.Outcome State Fault Refusal := request Kind.groupHold m takeGroupHold s

/-- The lots of a group that hold a FAMILY entry (R138). -/
def State.familyHeld (s : State) (g : Nat) : List Nat :=
  (groupHandles g).filter fun h => match s.lot? h with
    | some l => l.hasHold .family
    | none => false

/-- The FAMILY entry of a lot removed, and the lot sent on when its list empties (R138, R144). -/
def State.dropFamily (s : State) (h : Nat) : State := (s.removeEntry h .family).leaveHold h

/-- The lots of a list whose only entry is FAMILY: their lists empty at the group's release (R138). -/
def State.onlyFamily (s : State) (lots : List Nat) : Nat :=
  lots.countP fun h => match s.lot? h with
    | some l => l.holds.all fun e => e.reason == .family
    | none => false

/-- A GROUP_RELEASE with its tag read (R138). Retire pending, which R4 calls meaningful only in HELD and gives no value
outside it, is cleared with the hold (log entry 47). -/
def takeGroupRelease (ref : ReqRef) (rest : List Byte) (s : State) : State :=
  s.groupRequest Kind.groupRelease ref rest fun g s =>
    if (s.group g).state ≠ .held then s.reply Kind.groupRelease ref .notHeld .empty
    else
      let lots := s.familyHeld g
      let emptied := s.onlyFamily lots
      let s := s.modGroup g fun x => { x with state := if x.retirePending then .retired else .opened, retirePending := false }
      (lots.foldl State.dropFamily s).reply Kind.groupRelease ref .ok (.groupRelease lots.length emptied)

/-- GROUP_RELEASE (R138). -/
def execGroupRelease (m : Msg) (s : State) : Host.Outcome State Fault Refusal :=
  request Kind.groupRelease m takeGroupRelease s

/-- A group entry retired (R7). -/
def retireGroup (x : GroupEntry) : GroupEntry :=
  match x.state with
  | .opened => { x with state := .retired }
  | .held => { x with retirePending := true }
  | .retired | .unbound => x

/-- A GROUP_RETIRE with its tag read (R139). -/
def takeGroupRetire (ref : ReqRef) (rest : List Byte) (s : State) : State :=
  s.groupRequest Kind.groupRetire ref rest fun g s =>
    (s.modGroup g retireGroup).reply Kind.groupRetire ref .ok .empty

/-- GROUP_RETIRE (R139). -/
def execGroupRetire (m : Msg) (s : State) : Host.Outcome State Fault Refusal :=
  request Kind.groupRetire m takeGroupRetire s

/-! ### SHIP_CONFIRM (R159, R160) -/

/-- An accepted SHIP_CONFIRM: the record leaves, the slot is freed, pending lots are released, the REPLY (R159). -/
def State.confirm (s : State) (ref : ReqRef) : State :=
  let inst := (s.slot ref.handle).inst
  let s := { s with rlu := { s.rlu with ship := s.rlu.ship.filter fun r => r.handle != ref.handle } }
  let s := s.freeSlot ref.handle
  let before := s.rlu.ship.length
  let s := s.releasePending s.rlu.pend.length
  s.reply Kind.shipConfirm ref .ok (.shipConfirm ref.handle inst (s.rlu.ship.length - before) s.rlu.ship.length)

/-- A SHIP_CONFIRM with its tag read (R159). -/
def takeShipConfirm (ref : ReqRef) (rest : List Byte) (s : State) : State :=
  match readNothing rest with
  | none => s.reply Kind.shipConfirm ref .malformed .empty
  | some () =>
    match s.lookup ref.handle ref.inst with
    | .found l =>
      if l.state = .released then s.confirm ref else s.reply Kind.shipConfirm ref .notReleased .empty
    | x => s.reply Kind.shipConfirm ref x.replyCode .empty

/-- SHIP_CONFIRM (R159). -/
def execShipConfirm (m : Msg) (s : State) : Host.Outcome State Fault Refusal :=
  request Kind.shipConfirm m takeShipConfirm s

/-! ### TIME (R193) -/

/-- Floor time set to a new value, which is judged for lapses (R52, R193). -/
def State.setTime (s : State) (v : Nat) : State :=
  ({ s with tbs := { s.tbs with floorTime := some v } } : State).judgeLapses

/-- The value of a TIME taken (R193): first setting, change, repeat, or rejection with its count. -/
def State.offerTime (s : State) (v : Nat) : State :=
  match s.tbs.floorTime with
  | none => (s.setTime v).startPass
  | some f =>
    if v < f then { s with tbs := { s.tbs with timeRejected := bump s.tbs.timeRejected 1 } }
    else if v = f then s
    else s.setTime v

/-- Whether a TIME's value is rejected (R193). -/
def State.rejectsTime (s : State) (v : Nat) : Bool :=
  match s.tbs.floorTime with
  | none => false
  | some f => v < f

/-- A TIME with its tag read (R193). -/
def takeTime (ref : ReqRef) (rest : List Byte) (s : State) : State :=
  match readTime rest with
  | none => s.reply Kind.time ref .malformed .empty
  | some v =>
    let rejected := s.rejectsTime v
    let s := s.offerTime v
    s.reply Kind.time ref .ok (.time s.tbs.floorTime rejected)

/-- TIME (R193). -/
def execTime (m : Msg) (s : State) : Host.Outcome State Fault Refusal := request Kind.time m takeTime s

end Sys2Proof.Machine
end

