-- ==== Sys2Proof/Machine/Queries.lean ====
section
/-! DEFINITION. The six queries (R176 to R179): each answers from the state as it stands and changes nothing,
but for a COUNTERS query with its clear flag set. -/

namespace Sys2Proof.Machine

/-- The cell a lot's run stands on: as top, lower or incoming run (R3). -/
def State.runCell (s : State) (h : Nat) : Option Nat :=
  (s.cellOfTop h).or ((s.cellOfLower h).or (s.cellOfIncoming h))

/-- The frozen sites of a lot: those outside the enabled set of its run's cell (R109). A lot without a run has
none (log entry 21). -/
def State.frozenSites (s : State) (h : Nat) : Mask16 :=
  match s.runCell h with
  | some c => ~~~(s.cell c).enabled
  | none => 0

/-- The ship quantity and cumulative yield of a COMPLETE or RELEASED lot (R149, R177). -/
def shipReport (l : Lot) : Option (Nat × Nat) :=
  match l.state with
  | .complete | .released => some (l.shipQty, l.cumYield)
  | .waiting | .assigned | .running | .preempted | .held => none

/-- A page of a list and its more flag (R177, R178). -/
def pageOf {α : Type} (l : List α) (start size : Nat) : List α × Bool :=
  ((l.drop start).take size, start + size < l.length)

/-- The LOT query's report (R177). -/
def State.lotReport (s : State) (h : Nat) (l : Lot) (start : Nat) : LotReport :=
  let (page, more) := pageOf l.summaries start 2
  ⟨l, shipReport l, s.frozenSites h, page, more⟩

/-- The LOT query (R176, R177). -/
def State.queryLot (s : State) (ref : ReqRef) (start : Nat) : State :=
  match s.lookup ref.handle ref.inst with
  | .found l => s.reply Kind.query ref .ok (.lot (s.lotReport ref.handle l start))
  | x => s.reply Kind.query ref x.replyCode .empty

/-- The CELL query (R176, R177). -/
def State.queryCell (s : State) (ref : ReqRef) (c : Nat) : State :=
  if c < 48 then s.reply Kind.query ref .ok (.cell (s.cell c) (s.reg? c)) else s.reply Kind.query ref .badEntry .empty

/-- The QUEUE query (R178). -/
def State.queryQueue (s : State) (ref : ReqRef) (start : Nat) : State :=
  let (page, more) := pageOf s.dar.queue start 256
  s.reply Kind.query ref .ok (.queue s.dar.queue.length (page.map fun m => (m.handle, m.inst)) more)

/-- The SHIP query (R178). -/
def State.queryShip (s : State) (ref : ReqRef) (recStart pendStart : Nat) : State :=
  let (page, more) := pageOf s.rlu.ship recStart 4
  let (pend, morePend) := pageOf s.rlu.pend pendStart 64
  s.reply Kind.query ref .ok (.ship s.rlu.ship.length page more pend morePend s.rlu.pend.length)

/-- The row of a counter in the COUNTERS reply (R179, R200). -/
def State.counterRow (s : State) (i : Nat) : Nat × Option (Source × CounterMode) :=
  (vget s.fcn.values 0 i, (vget s.tst.counters none i).map fun c => (c.source, c.mode))

/-- The COUNTERS query; a set clear flag sets every value to 0 with the read, and leaves the records (R179,
R200). -/
def State.queryCounters (s : State) (ref : ReqRef) (clear : Bool) : State :=
  let rows := (List.range 8).map s.counterRow
  let s := if clear then { s with fcn := { s.fcn with values := Vector.replicate 8 0 } } else s
  s.reply Kind.query ref .ok (.counters rows)

/-- The store state: the table and entry of the stored write in flight (R179, R188). -/
def storeState (work : List StoreOp) : Option (Nat × Nat) :=
  work.findSome? fun op => match op with
    | .write _ table entry _ _ _ => some (table, entry)
    | .read .. => none

/-- The PART query's report (R179). -/
def State.partReport (s : State) : PartReport where
  mode         := s.tbs.mode
  floorTime    := s.tbs.floorTime
  timeRejected := s.tbs.timeRejected
  address      := Config.stationAddress
  inhibited    := s.tbs.inhibited
  level        := s.tst.settings.inhibit
  ready        := s.tbs.ready
  storeBusy    := storeState s.scn.work
  check        := s.scn.check
  floorDepth   := s.pcl.floorQ.length
  plantDepth   := s.pcl.plantQ.length
  floorCounts  := [s.pcl.floorDrops, s.pcl.floorMalformed, s.pcl.floorNotTaken]
  plantCounts  := [s.pcl.plantDrops, s.pcl.plantMalformed, s.pcl.notManager, s.pcl.misdirected, s.pcl.interlock,
    s.pcl.startupDrops]
  noticeSeq    := s.pcl.noticeSeq
  discards     := s.pcl.discards

/-- The PART query (R179). -/
def State.queryPart (s : State) (ref : ReqRef) : State := s.reply Kind.query ref .ok (.part s.partReport)

/-- A QUERY with its tag read, by its kind (R176). -/
def takeQuery (ref : ReqRef) (rest : List Byte) (s : State) : State :=
  match readQuery rest with
  | none => s.reply Kind.query ref .malformed .empty
  | some (.lot start) => s.queryLot ref start
  | some (.cell c) => s.queryCell ref c
  | some (.queue start) => s.queryQueue ref start
  | some (.ship r p) => s.queryShip ref r p
  | some (.counters clear) => s.queryCounters ref clear
  | some .part => s.queryPart ref

/-- QUERY LOT (R177). -/
def execQueryLot (m : Msg) (s : State) : Host.Outcome State Fault Refusal := request Kind.query m takeQuery s

/-- QUERY CELL (R177). -/
def execQueryCell (m : Msg) (s : State) : Host.Outcome State Fault Refusal := request Kind.query m takeQuery s

/-- QUERY QUEUE (R178). -/
def execQueryQueue (m : Msg) (s : State) : Host.Outcome State Fault Refusal := request Kind.query m takeQuery s

/-- QUERY SHIP (R178). -/
def execQueryShip (m : Msg) (s : State) : Host.Outcome State Fault Refusal := request Kind.query m takeQuery s

/-- QUERY COUNTERS (R179). -/
def execQueryCounters (m : Msg) (s : State) : Host.Outcome State Fault Refusal := request Kind.query m takeQuery s

/-- QUERY PART (R179). -/
def execQueryPart (m : Msg) (s : State) : Host.Outcome State Fault Refusal := request Kind.query m takeQuery s

end Sys2Proof.Machine
end

