-- ==== Sys2Proof/Machine/TableRequests.lean ====
section
/-! DEFINITION. TABLE_WRITE and TABLE_READ: the ordered checks (R29, R33), the in-use judgement (R31, R15), the
effect of an ACTIVE write by table (R5, R28, R30, R37, R196) and the additions to a read (R175). The STORED
targets join the store work list (R188); their operations stand in Machine/Store.lean. -/

namespace Sys2Proof.Machine

/-! ### In use (R31) -/

/-- Some route with a nonzero use count names an entry in one of its steps (R15). -/
def State.routesName (s : State) (names : RouteStep → Bool) : Bool :=
  (List.range 16).any fun r => vget s.ldr.useCount 0 r != 0 && match s.route? r with
    | some x => x.steps.any names
    | none => false

/-- The entry is in use (R31). -/
def State.inUse (s : State) (table entry : Nat) : Bool :=
  match table with
  | 1 => s.groupLive entry
  | 2 => vget s.ldr.useCount 0 entry != 0
  | 3 => s.routesName fun x => x.program == entry
  | 4 => s.routesName fun x => x.binMap == entry
  | 5 => s.routesName fun x => x.profile == entry
  | 6 => (s.cell entry).holdsRun
  | _ => false

/-! ### Pinning (R62) -/

/-- A pinning write would put its group or its cell in two entries of the copy it targets (R62). -/
def pinClash (copy : Nat → Option Pin) (entry : Nat) (p : Pin) : Bool :=
  (List.range 4).any fun i => i != entry && match copy i with
    | some q => q.group == p.group || q.cell == p.cell
    | none => false

/-- The pinning entries of the image (R62). -/
def Image.pin (im : Image) (i : Nat) : Option Pin :=
  match im.entry 7 i with
  | some (.pin p) => some p
  | _ => none

/-- The pinning copy a write targets: 0 ACTIVE, 1 STORED (R62). -/
def State.pinCopy (s : State) (target : Nat) (i : Nat) : Option Pin :=
  if target = 0 then vget s.tst.pins none i else s.scn.image.pin i

/-! ### The checks of a write (R29) -/

/-- Checks 1 to 4 of R29 on a write whose fixed fields read well: a refusal, or the entry with its note. -/
def State.writeCheck (s : State) (w : WriteBody) : ReplyCode × Option Entry × WriteNote :=
  if 8 < w.table then (.badTable, none, .none)
  else if w.table = 0 ∧ 10 < w.entry then (.badEntry, none, .none)
  else match readEntry w.table w.entry w.empty w.contents with
    | .malformed => (.malformed, none, .none)
    | .bad => (.badEntry, none, .none)
    | .ok e note =>
      if tableEntries w.table ≤ w.entry then (.badEntry, none, .none)
      else match e with
        | some (.pin p) => if pinClash (s.pinCopy w.target) w.entry p then (.badEntry, none, .none) else (.ok, e, note)
        | _ => (.ok, e, note)

/-! ### The effect of an ACTIVE write (R30) -/

/-- A group directory entry after an ACTIVE write (R5). -/
def writeGroup (e : Option (Nat × CellMask)) (x : GroupEntry) : GroupEntry :=
  match e with
  | none => GroupEntry.empty
  | some (family, authority) =>
    { state := if x.state = .held then .held else .opened, family := family, authority := authority, retirePending := false }

/-- A setting written ACTIVE; the inhibit line is judged against a new level at once (R28). -/
def State.writeSetting (s : State) (entry v : Nat) : State :=
  let s := { s with tst := { s.tst with settings := s.tst.settings.put entry v } }
  if entry = 10 then s.judgeLine else s

/-- A registration write changes the flag, the address or the site count (R37). -/
def reRegisters (old new : Option Registration) : Bool :=
  old.map (fun r => (r.addr, r.siteCount)) != new.map (fun r => (r.addr, r.siteCount))

/-- A cell record at its reset values, for a registration (R37, R59). -/
def resetCell (reg : Option Registration) : Cell := Cell.reset (allSites ((reg.map Registration.siteCount).getD 0))

/-- A registration written ACTIVE: the entry replaced, and the cell's record reset when the flag, address or site
count changes (R37). -/
def State.writeRegistration (s : State) (entry : Nat) (new : Option Registration) : State :=
  let old := s.reg? entry
  let s := { s with tst := { s.tst with regs := vmod s.tst.regs entry fun _ => new } }
  if reRegisters old new then s.modCell entry fun _ => resetCell new else s

/-- A counter configuration written ACTIVE: the counter at 0, its record none (R196). -/
def State.writeCounter (s : State) (entry : Nat) (new : Option CounterCfg) : State :=
  { s with
    tst := { s.tst with counters := vmod s.tst.counters entry fun _ => new }
    fcn := ⟨vmod s.fcn.values entry fun _ => 0, vmod s.fcn.last entry fun _ => none⟩ }

/-- The active entry replaced, with its table's own effect (R30). The contents are those the checks read for this
table. -/
def State.writeActive (s : State) (table entry : Nat) (e : Option Entry) : State :=
  match table, e with
  | 0, some (.setting v) => s.writeSetting entry v
  | 1, none => s.modGroup entry (writeGroup none)
  | 1, some (.group f a) => s.modGroup entry (writeGroup (some (f, a)))
  | 2, none => { s with tst := { s.tst with routes := vmod s.tst.routes entry fun _ => none } }
  | 2, some (.route r) => { s with tst := { s.tst with routes := vmod s.tst.routes entry fun _ => some r } }
  | 3, none => { s with tst := { s.tst with programs := vmod s.tst.programs entry fun _ => none } }
  | 3, some (.program p) => { s with tst := { s.tst with programs := vmod s.tst.programs entry fun _ => some p } }
  | 4, none => { s with tst := { s.tst with binMaps := vmod s.tst.binMaps entry fun _ => none } }
  | 4, some (.binMap m) => { s with tst := { s.tst with binMaps := vmod s.tst.binMaps entry fun _ => some m } }
  | 5, none => { s with tst := { s.tst with profiles := vmod s.tst.profiles entry fun _ => none } }
  | 5, some (.profile p) => { s with tst := { s.tst with profiles := vmod s.tst.profiles entry fun _ => some p } }
  | 6, none => s.writeRegistration entry none
  | 6, some (.registration r) => s.writeRegistration entry (some r)
  | 7, none => { s with tst := { s.tst with pins := vmod s.tst.pins entry fun _ => none } }
  | 7, some (.pin p) => { s with tst := { s.tst with pins := vmod s.tst.pins entry fun _ => some p } }
  | 8, none => s.writeCounter entry none
  | 8, some (.counter c) => s.writeCounter entry (some c)
  | _, _ => s

/-! ### The store work list (R188) -/

/-- An operation is a stored write. -/
def StoreOp.isWrite : StoreOp → Bool
  | .write .. => true
  | .read .. => false

/-- A stored write is in flight (R188). -/
def writeInFlight (work : List StoreOp) : Bool := work.any StoreOp.isWrite

/-- The second events a flash device has to answer (R186, R188, R189). -/
def flashAnswer : Nat := 10

/-- An operation joins the end of the work list; the operation at the front is under way (R188). -/
def State.joinWork (s : State) (op : StoreOp) : State :=
  { s with scn := { s.scn with
    work := s.scn.work ++ [op]
    flashLeft := if s.scn.work.isEmpty then some flashAnswer else s.scn.flashLeft } }

/-! ### TABLE_WRITE -/

/-- An ACTIVE write that passed checks 1 to 4: IN_USE, or its effect and the REPLY of the frame type in force
before it (R28, R29 check 5, R30, R202). -/
def State.writeNow (s : State) (ref : ReqRef) (w : WriteBody) (e : Option Entry) (note : WriteNote) : State :=
  if s.inUse w.table w.entry then s.reply Kind.tableWrite ref .inUse (.tableRef w.target w.table w.entry)
  else (s.writeActive w.table w.entry e).replyAs s.tst.settings.frameType Kind.tableWrite ref .ok
    (.tableWrite w.target w.table w.entry note)

/-- A STORED write that passed checks 1 to 4: BUSY, or accepted with its REPLY deferred (R29 check 5, R32,
R188). -/
def State.writeLater (s : State) (ref : ReqRef) (w : WriteBody) (e : Option Entry) (note : WriteNote) : State :=
  if writeInFlight s.scn.work then s.reply Kind.tableWrite ref .busy (.tableRef w.target w.table w.entry)
  else s.joinWork (.write ref w.table w.entry e note 1)

/-- A TABLE_WRITE with its tag read (R29, R174). -/
def takeTableWrite (ref : ReqRef) (rest : List Byte) (s : State) : State :=
  match readTableWrite rest with
  | none => s.reply Kind.tableWrite ref .malformed .empty
  | some w =>
    match s.writeCheck w with
    | (.ok, e, note) => if w.target = 0 then s.writeNow ref w e note else s.writeLater ref w e note
    | (.malformed, _, _) => s.reply Kind.tableWrite ref .malformed .empty
    | (code, _, _) => s.reply Kind.tableWrite ref code (.tableRef w.target w.table w.entry)

/-- TABLE_WRITE ACTIVE (R30). -/
def execTableWriteActive (m : Msg) (s : State) : Host.Outcome State Fault Refusal :=
  request Kind.tableWrite m takeTableWrite s

/-- TABLE_WRITE STORED (R32). -/
def execTableWriteStored (m : Msg) (s : State) : Host.Outcome State Fault Refusal :=
  request Kind.tableWrite m takeTableWrite s

/-! ### TABLE_READ -/

/-- The written contents of a group directory entry, `none` while UNBOUND (R4, R174). -/
def groupContents (x : GroupEntry) : Option Entry :=
  if x.state = .unbound then none else some (.group x.family x.authority)

/-- The contents of an active entry (R33). -/
def State.activeEntry (s : State) (table entry : Nat) : Option Entry :=
  match table with
  | 0 => some (.setting (s.tst.settings.get entry))
  | 1 => groupContents (s.group entry)
  | 2 => (s.route? entry).map .route
  | 3 => (s.program? entry).map .program
  | 4 => (s.binMap? entry).map .binMap
  | 5 => (s.profile? entry).map .profile
  | 6 => (s.reg? entry).map .registration
  | 7 => (vget s.tst.pins none entry).map .pin
  | _ => (vget s.tst.counters none entry).map .counter

/-- The additions to an ACTIVE read: after the fields of an entry, and for a group or a registration after the
empty flag as well (R21, R174, R175). -/
def State.activeNote (s : State) (table entry : Nat) : ReadNote :=
  match table with
  | 1 => .group (s.group entry).state (s.group entry).retirePending (s.inUse 1 entry)
  | 2 => if (s.route? entry).isSome then .useCount (vget s.ldr.useCount 0 entry) else .none
  | 3 => if (s.program? entry).isSome then .inUse (s.inUse 3 entry) else .none
  | 4 => if (s.binMap? entry).isSome then .inUse (s.inUse 4 entry) else .none
  | 5 => if (s.profile? entry).isSome then .inUse (s.inUse 5 entry) else .none
  | 6 => .inUse (s.inUse 6 entry)
  | _ => .none

/-- The reads waiting or under way in a work list (R188). -/
def readCount (work : List StoreOp) : Nat := work.countP fun op => !op.isWrite

/-- The stored reads a work list holds at most (R188). -/
def maxReads : Nat := 8

/-- A STORED read that passed its checks: BUSY, or accepted (R33, R188). -/
def State.readLater (s : State) (ref : ReqRef) (table entry : Nat) : State :=
  if writeInFlight s.scn.work || maxReads ≤ readCount s.scn.work then
    s.reply Kind.tableRead ref .busy (.tableRef 1 table entry)
  else s.joinWork (.read ref table entry)

/-- A TABLE_READ with its tag read (R33, R175). -/
def takeTableRead (ref : ReqRef) (rest : List Byte) (s : State) : State :=
  match readTableRead rest with
  | none => s.reply Kind.tableRead ref .malformed .empty
  | some (target, table, entry) =>
    if 8 < table then s.reply Kind.tableRead ref .badTable (.tableRef target table entry)
    else if tableEntries table ≤ entry then s.reply Kind.tableRead ref .badEntry (.tableRef target table entry)
    else if target = 0 then
      s.reply Kind.tableRead ref .ok (.tableRead 0 table entry (s.activeEntry table entry) (s.activeNote table entry))
    else s.readLater ref table entry

/-- TABLE_READ ACTIVE (R33). -/
def execTableReadActive (m : Msg) (s : State) : Host.Outcome State Fault Refusal :=
  request Kind.tableRead m takeTableRead s

/-- TABLE_READ STORED (R188). -/
def execTableReadStored (m : Msg) (s : State) : Host.Outcome State Fault Refusal :=
  request Kind.tableRead m takeTableRead s

end Sys2Proof.Machine
end

