-- ==== Sys2Proof/Machine/Store.lean ====
section
/-! DEFINITION. The store controller (R183 to R192): stored reads and the three phases of a stored write, the
image load of a start-up, RESTART and its re-read, and the hard reset with what it abandons. -/

namespace Sys2Proof.Machine

/-! ### Ending an operation -/

/-- The operation at the front of the work list has ended: the next one is under way (R188). -/
def State.endOp (s : State) : State :=
  { s with scn := { s.scn with
    work := s.scn.work.tail
    flashLeft := if s.scn.work.tail.isEmpty then none else some flashAnswer } }

/-! ### Stored reads (R33, R175, R188) -/

/-- The entry a stored read returns: a setting that does not decode at its factory value with its flag (R33). -/
def storedContents (im : Image) (table entry : Nat) : Option Entry × ReadNote :=
  if table = 0 then
    match im.entry 0 entry with
    | some e => (some e, .factory false)
    | none => (some (.setting (Settings.factory.get entry)), .factory true)
  else (im.entry table entry, .none)

/-- A stored read ends: the entry as it stands in the image, and the next operation starts (R188). -/
def State.endRead (s : State) : State :=
  match s.scn.work with
  | .read ref table entry :: _ =>
    let (contents, note) := storedContents s.scn.image table entry
    s.endOp.reply Kind.tableRead ref .ok (.tableRead 1 table entry contents note)
  | _ => s

/-- STORED_READ_COMPLETE (R188): the end of the read under way; with none under way there is no such event. -/
def execStoredReadComplete (s : State) : Host.Outcome State Fault Refusal := done s.endRead

/-! ### Stored writes (R189) -/

/-- The write at the front moved on to a phase, with the flash device's time anew (R189). -/
def State.toPhase (s : State) (ref : ReqRef) (table entry : Nat) (e : Option Entry) (note : WriteNote) (phase : Nat) : State :=
  { s with scn := { s.scn with
    work := .write ref table entry e note phase :: s.scn.work.tail
    flashLeft := some flashAnswer } }

/-- The entry's area and the format mark programmed (R189 phase 1). -/
def programEntry (im : Image) (table entry : Nat) (e : Option Entry) : Image :=
  { im.setArea table entry (areaBytes entry e) with mark := .good }

/-- The check value computed over the body and programmed (R189 phase 2). -/
def programCheck (im : Image) : Image := { im with check := crc32 im.body, spoiled := false }

/-- A phase of the stored write under way ends (R189). The end of phase 3 is the write's completion, which is a
command of its own. -/
def State.endPhase (s : State) : State :=
  match s.scn.work with
  | .write ref table entry e note 1 :: _ =>
    ({ s with scn := { s.scn with image := programEntry s.scn.image table entry e } } : State).toPhase ref table entry e note 2
  | .write ref table entry e note 2 :: _ =>
    ({ s with scn := { s.scn with image := programCheck s.scn.image } } : State).toPhase ref table entry e note 3
  | _ => s

/-- STORE_PHASE_END (R189). -/
def execStorePhaseEnd (s : State) : Host.Outcome State Fault Refusal := done s.endPhase

/-- An image whose entry, check value, or both are in an unknown condition: free values, and the check value not
matching the body (R189, R190). -/
def spoil (im : Image) (table entry free : Nat) : Image :=
  { im.setArea table entry (Config.unknownArea free) with check := Config.unknownCheck free, spoiled := true }

/-- The format mark after a failure: unknown while phase 1 was programming it (R189). -/
def failedMark (im : Image) (phase free : Nat) : Mark := if phase = 1 then Config.unknownMark free else im.mark

/-- A stored write completes with STORE_FAILED: the image in an unknown condition, the result INVALID, the REPLY
(R184, R189). -/
def State.failWrite (s : State) (ref : ReqRef) (table entry phase : Nat) : State :=
  let free := s.scn.freeIndex
  let s := { s with scn := { s.scn with
    image := { spoil s.scn.image table entry free with mark := failedMark s.scn.image phase free }
    check := .invalid
    freeIndex := free + 1 } }
  s.endOp.reply Kind.tableWrite ref .storeFailed (.tableRef 1 table entry)

/-- The end of phase 3: OK with the result VALID when every comparison agrees, otherwise STORE_FAILED (R184,
R189). -/
def State.completeWrite (s : State) (agrees : Bool) : State :=
  match s.scn.work with
  | .write ref table entry _ note 3 :: _ =>
    if agrees then
      ({ s with scn := { s.scn with check := .valid } } : State).endOp.reply Kind.tableWrite ref .ok
        (.tableWrite 1 table entry note)
    else s.failWrite ref table entry 3
  | _ => s

/-- STORED_WRITE_COMPLETE (R189). -/
def execStoredWriteComplete (agrees : Bool) (s : State) : Host.Outcome State Fault Refusal := done (s.completeWrite agrees)

/-! ### Loading tables from the image (R20, R34, R35, R187) -/

/-- A setting as loaded: its stored value, or its factory value when the entry does not decode (R187). -/
def loadSettings (im : Image) : Settings :=
  (List.range 11).foldl (fun t i => match im.entry 0 i with
    | some (.setting v) => t.put i v
    | _ => t) Settings.factory

/-- The group directory from the image at a hard reset: bound entries OPEN (R20). -/
def loadGroup (im : Image) (i : Nat) : GroupEntry :=
  match im.entry 1 i with
  | some (.group f a) => ⟨.opened, f, a, false⟩
  | _ => GroupEntry.empty

/-- The group directory from the image at a soft reset in SAFE: an entry bound before keeps its state and retire
pending (R20). -/
def reloadGroup (im : Image) (before : GroupEntry) (i : Nat) : GroupEntry :=
  match im.entry 1 i with
  | some (.group f a) =>
    if before.state = .unbound then ⟨.opened, f, a, false⟩ else ⟨before.state, f, a, before.retirePending⟩
  | _ => GroupEntry.empty

def loadRoute (im : Image) (i : Nat) : Option Route :=
  match im.entry 2 i with
  | some (.route r) => some r
  | _ => none

def loadProgram (im : Image) (i : Nat) : Option Program :=
  match im.entry 3 i with
  | some (.program p) => some p
  | _ => none

def loadBinMap (im : Image) (i : Nat) : Option (List BinRange) :=
  match im.entry 4 i with
  | some (.binMap m) => some m
  | _ => none

def loadProfile (im : Image) (i : Nat) : Option Profile :=
  match im.entry 5 i with
  | some (.profile p) => some p
  | _ => none

def loadRegistration (im : Image) (i : Nat) : Option Registration :=
  match im.entry 6 i with
  | some (.registration r) => some r
  | _ => none

def loadCounter (im : Image) (i : Nat) : Option CounterCfg :=
  match im.entry 8 i with
  | some (.counter c) => some c
  | _ => none

/-- The pinning entries in entry order: one whose group or cell stands in an entry loaded before it is loaded
empty (R187). -/
def loadPins (im : Image) : List (Option Pin) :=
  (List.range 4).foldl (fun loaded i => loaded ++ [(im.pin i).filter fun p =>
    !loaded.any fun q => match q with
      | some q => q.group == p.group || q.cell == p.cell
      | none => false]) []

/-- The active tables set from a valid image, with the given group directory (R34, R35, R187). -/
def tablesOf (im : Image) (groups : Vector GroupEntry 32) : Tables where
  settings := loadSettings im
  groups   := groups
  routes   := Vector.ofFn fun i => loadRoute im i.val
  programs := Vector.ofFn fun i => loadProgram im i.val
  binMaps  := Vector.ofFn fun i => loadBinMap im i.val
  profiles := Vector.ofFn fun i => loadProfile im i.val
  regs     := Vector.ofFn fun i => loadRegistration im i.val
  pins     := Vector.ofFn fun i => (loadPins im).getD i.val none
  counters := Vector.ofFn fun i => loadCounter im i.val

/-- Every cell record at its reset values, with its registered site count (R59). -/
def resetCells (t : Tables) : Vector Cell 48 := t.regs.map resetCell

/-! ### The end of a load (R184, R186, R192) -/

/-- The image check result of a judgement (R184). -/
def resultOf : Option BadCause → CheckResult
  | none => .valid
  | some _ => .invalid

/-- The mode of a judgement (R186, R192). -/
def modeOf : Option BadCause → Mode
  | none => .normal
  | some _ => .safe

/-- The mode, READY, the image check result and the line as the load leaves them; the pass of leaving STARTING
started (R185, R186, R192, R195). -/
def State.leaveStarting (s : State) (cause : Option BadCause) : State :=
  ({ s with
    scn := { s.scn with check := resultOf cause, loading := .none, flashLeft := none }
    tbs := { s.tbs with
      mode := modeOf cause
      ready := modeOf cause == .normal
      inhibited := s.lineAsserted } } : State).startPass

/-- STORED_IMAGE_BAD after a load that found the image invalid (R186). -/
def State.imageBad (s : State) : Option BadCause → State
  | none => s
  | some cause => s.notice (.storedImageBad cause)

/-- Start-up ends with the image judged (R186 steps 3 to 5). -/
def State.startUp (s : State) (cause : Option BadCause) : State :=
  let t := match cause with
    | none => tablesOf s.scn.image (Vector.ofFn fun i => loadGroup s.scn.image i.val)
    | some _ => Tables.factory
  let s := ({ s with tst := t, ctr := resetCells t } : State).leaveStarting cause
  (s.notice (.partStarted .hard s.tbs.mode s.scn.check none Config.stationAddress)).imageBad cause

/-- The re-read of a RESTART in SAFE ends with the image judged (R192 steps 3 to 5); a frame of steps 4 and 5 that is dropped
is counted under the configurations just set (log entry 43). PART_STARTED carries floor time and the station address as well (log
entry 53). -/
def State.reread (s : State) (ref : ReqRef) (cause : Option BadCause) : State :=
  let s := match cause with
    | none =>
      let t := tablesOf s.scn.image (Vector.ofFn fun i => reloadGroup s.scn.image (s.group i.val) i.val)
      { s with tst := t, ctr := resetCells t, fcn := Fcn.reset }
    | some _ => s
  let s := s.leaveStarting cause
  let s := s.reply Kind.restart ref .ok (.restart s.tbs.mode)
  (s.notice (.partStarted .soft s.tbs.mode s.scn.check s.tbs.floorTime Config.stationAddress)).imageBad cause

/-- IMAGE_LOAD_COMPLETE (R186): the end of the load of a start-up; with none under way there is no such event. -/
def execImageLoadComplete (s : State) : Host.Outcome State Fault Refusal :=
  match s.scn.loading with
  | .startUp => done (s.startUp s.scn.image.fault)
  | .none => .next s
  | .reread _ => .next s

/-- IMAGE_REREAD_COMPLETE (R192). -/
def execImageRereadComplete (s : State) : Host.Outcome State Fault Refusal :=
  match s.scn.loading with
  | .reread ref => done (s.reread ref s.scn.image.fault)
  | .none => .next s
  | .startUp => .next s

/-! ### No answer from the flash device (R186, R188, R189) -/

/-- The flash device has not answered: a load ends as of an invalid image, a read or a write ends with
STORE_FAILED. -/
def State.noAnswer (s : State) : State :=
  match s.scn.loading with
  | .startUp => s.startUp (some .noResponse)
  | .reread ref => s.reread ref (some .noResponse)
  | .none => match s.scn.work with
    | .read ref table entry :: _ => s.endOp.reply Kind.tableRead ref .storeFailed (.tableRef 1 table entry)
    | .write ref table entry _ _ phase :: _ => s.failWrite ref table entry phase
    | [] => s

/-- FLASH_TIMEOUT (R188): acts when the flash device's 10 second events have passed. -/
def execFlashTimeout (s : State) : Host.Outcome State Fault Refusal :=
  if isDue s.scn.flashLeft then done s.noAnswer else .next s

/-! ### Hard reset (R186, R190) -/

/-- The image a hard reset leaves, by the phase of the write it abandons; the flag tells whether a free value was
drawn (R190). -/
def abandon (im : Image) (work : List StoreOp) (free : Nat) : Image × Bool :=
  match work with
  | .write _ table entry _ _ 1 :: _ => ({ spoil im table entry free with check := im.check, mark := .good }, true)
  | .write _ _ _ _ _ 2 :: _ => ({ im with check := Config.unknownCheck free, spoiled := true }, true)
  | _ => (im, false)

/-- HARD_RESET (R186): every block at its hard-reset values while the reset input is asserted; the flash, the
links and the inhibit input are the outside's. -/
def execHardReset (s : State) : Host.Outcome State Fault Refusal :=
  let (image, drawn) := abandon s.scn.image s.scn.work s.scn.freeIndex
  .next (State.hardReset s.pending image (if drawn then s.scn.freeIndex + 1 else s.scn.freeIndex) s.pcl.floorLink
    s.pcl.plantLink s.tbs.inhibitIn)

/-- RESET_RELEASE (R186 steps 1 and 2): STARTING, the image load under way. -/
def execResetRelease (s : State) : Host.Outcome State Fault Refusal :=
  if s.tbs.resetIn then
    .next { s with
      tbs := { s.tbs with resetIn := false, mode := .starting, ready := false }
      scn := { s.scn with loading := .startUp, flashLeft := some flashAnswer } }
  else .next s

/-! ### RESTART (R191, R192) -/

/-- The port and classifier after a soft reset: queues and counts emptied, the notice sequence kept (R182). -/
def Pcl.softReset (p : Pcl) : Pcl :=
  { Pcl.reset p.floorLink p.plantLink with noticeSeq := p.noticeSeq, floorOut := p.floorOut, plantOut := p.plantOut }

/-- The lot directory after a soft reset: every slot FREE with the next number, no route used (R19). -/
def Ldr.softReset (d : Ldr) : Ldr where
  slots    := d.slots.map fun x => ⟨nextInst x.inst, none⟩
  useCount := Vector.replicate 16 0

/-- Every block at its soft-reset values (R191 step 1). -/
def State.softReset (s : State) : State :=
  { s with
    pcl := s.pcl.softReset
    ldr := s.ldr.softReset
    ctr := resetCells s.tst
    dar := ⟨[], false⟩
    rlu := ⟨[], []⟩
    tbs := { s.tbs with inhibited := s.lineAsserted }
    fcn := Fcn.reset }

/-- A RESTART taken in NORMAL (R191). PART_STARTED carries the station address as well (log entry 53). -/
def State.restartNow (s : State) (ref : ReqRef) : State :=
  let s := s.softReset.reply Kind.restart ref .ok (.restart .normal)
  s.notice (.partStarted .soft .normal s.scn.check s.tbs.floorTime Config.stationAddress)

/-- A RESTART taken in SAFE: a soft reset, then STARTING with the re-read under way (R192). -/
def State.restartReread (s : State) (ref : ReqRef) : State :=
  let s := s.softReset
  { s with
    tbs := { s.tbs with mode := .starting, ready := false }
    scn := { s.scn with loading := .reread ref, flashLeft := some flashAnswer } }

/-- A RESTART with its tag read (R191, R192). -/
def takeRestart (ref : ReqRef) (rest : List Byte) (s : State) : State :=
  match readNothing rest with
  | none => s.reply Kind.restart ref .malformed .empty
  | some () =>
    if !s.scn.work.isEmpty then s.reply Kind.restart ref .busy .empty
    else if s.tbs.mode = .safe then s.restartReread ref
    else s.restartNow ref

/-- RESTART (R191). -/
def execRestart (m : Msg) (s : State) : Host.Outcome State Fault Refusal := request Kind.restart m takeRestart s

end Sys2Proof.Machine
end

