-- ==== Sys2Proof/Machine/Traffic.lean ====
section
/-! DEFINITION. The ports and the classifier: links and transmission (R170), foreign frames (R163), unreadable
headers (R164), the routing of readable floor frames by port (R165, R167), and the interlock (R169). -/

namespace Sys2Proof.Machine

/-! ### The ports (R170) -/

/-- PORT_LINK_CHANGE (R170): the link is as the outside makes it; nothing is sent or dropped by the change
itself. -/
def execPortLinkChange (port : Port) (up : Bool) (s : State) : Host.Outcome State Fault Refusal :=
  match port with
  | .floor => .next { s with pcl := { s.pcl with floorLink := up } }
  | .plant => .next { s with pcl := { s.pcl with plantLink := up } }

/-- The floor port sends its oldest frame while its link is up (R170). -/
def State.sendFloor (s : State) : State :=
  match s.pcl.floorQ with
  | f :: rest =>
    if s.pcl.floorLink then { s with pcl := { s.pcl with floorQ := rest, floorOut := some f.wire } } else s
  | [] => s

/-- The plant port sends its oldest frame while its link is up (R170). -/
def State.sendPlant (s : State) : State :=
  match s.pcl.plantQ with
  | f :: rest =>
    if s.pcl.plantLink then { s with pcl := { s.pcl with plantQ := rest, plantOut := some f.wire } } else s
  | [] => s

/-- QUEUE_SEND (R170). While the reset input is asserted no frame is sent (R186). -/
def execQueueSend (port : Port) (s : State) : Host.Outcome State Fault Refusal :=
  if s.tbs.resetIn then .next s
  else match port with
    | .floor => .next s.sendFloor
    | .plant => .next s.sendPlant

/-! ### What one frame does -/

/-- The port a frame from a port is passed toward (R163). -/
def otherPort : Port → Port
  | .floor => .plant
  | .plant => .floor

/-- A foreign frame passed through unchanged (R163). -/
def State.passThrough (s : State) (port : Port) (f : RawFrame) : State :=
  s.enqueue (otherPort port) ⟨f.dst, f.src, f.etype, .foreign f.data⟩

/-- A floor frame with an unreadable header dropped and counted (R164). -/
def State.countMalformed (s : State) (port : Port) : State :=
  match port with
  | .floor => { s with pcl := { s.pcl with floorMalformed := bump s.pcl.floorMalformed 1 } }
  | .plant => { s with pcl := { s.pcl with plantMalformed := bump s.pcl.plantMalformed 1 } }

/-- A kind of the part's three plant-side families (R164, R165). -/
def isReserved (k : Code16) : Bool := isOrderKind k || isRequestKind k || isPartKind k

/-- A kind that is not taken on the floor port forwarded to the plant port; in NORMAL and SAFE an order, request or
part kind is counted (R165). -/
def State.forwardOnly (s : State) (kind : Code16) (m : Msg) : State :=
  let s := if isReserved kind && !s.isStarting then
    { s with pcl := { s.pcl with floorNotTaken := bump s.pcl.floorNotTaken 1 } } else s
  s.forward kind m m.body

/-- A frame addressed to a cell: the order kinds blocked and counted by the interlock, with an INTERLOCK notice in
NORMAL and SAFE; every other kind forwarded unchanged to the floor port (R167, R169). -/
def State.toCell (s : State) (kind : Code16) (m : Msg) : State :=
  if isOrderKind kind then
    let s := { s with pcl := { s.pcl with interlock := bump s.pcl.interlock 1 } }
    if s.isStarting then s
    else s.notice (.interlock kind m.cell.toNat m.handle.toNat m.inst.toNat m.step.toNat m.src)
  else s.enqueue .floor (forwardedFrame s kind m m.body)

/-- A frame addressed to PLANT on the plant port dropped and counted (R167). In STARTING the count is a free value:
R167 gives the routing for NORMAL and SAFE and is silent there (log entry 4). -/
def State.misdirect (s : State) : State :=
  if s.isStarting && !Config.misdirectedInStarting then s
  else { s with pcl := { s.pcl with misdirected := bump s.pcl.misdirected 1 } }

/-- A frame addressed to PART whose kind is no request kind: answered MALFORMED with its kind and tag (R172). -/
def takeNonRequest (kind : Code16) (ref : ReqRef) (_ : List Byte) (s : State) : State :=
  s.reply kind ref .malformed .empty

/-! ### The classifier (R163 to R167) -/

/-- The owner of each request kind (R172). -/
def ownerOf (kind : Code16) : ReqRef → List Byte → State → State :=
  if kind = Kind.lotOrder then takeLotOrder
  else if kind = Kind.sweep then takeSweep
  else if kind = Kind.tableWrite then takeTableWrite
  else if kind = Kind.tableRead then takeTableRead
  else if kind = Kind.hold then takeHold
  else if kind = Kind.release then takeRelease
  else if kind = Kind.groupHold then takeGroupHold
  else if kind = Kind.groupRelease then takeGroupRelease
  else if kind = Kind.groupRetire then takeGroupRetire
  else if kind = Kind.shipConfirm then takeShipConfirm
  else if kind = Kind.query then takeQuery
  else if kind = Kind.time then takeTime
  else if kind = Kind.restart then takeRestart
  else takeNonRequest kind

/-- A readable floor frame on the plant port, by its destination (R167). -/
def routePlant (kind : Code16) (m : Msg) (s : State) : Host.Outcome State Fault Refusal :=
  match m.dest with
  | .part => request kind m (ownerOf kind) s
  | .cell => arrival s fun s => s.toCell kind m
  | .plant => arrival s fun s => s.misdirect

/-- A readable floor frame on the floor port, by its kind (R165). -/
def routeFloor (kind : Code16) (m : Msg) (s : State) : Host.Outcome State Fault Refusal :=
  if kind = Kind.status then fromCell kind m (fun s => s.takeStatus m) s
  else if kind = Kind.loadDone then fromCell kind m (fun s => s.takeLoadDone m) s
  else if kind = Kind.runStarted then fromCell kind m (fun s => s.takeRunStarted m) s
  else if kind = Kind.passEnd then fromCell kind m (fun s => s.takePassEnd m) s
  else if kind = Kind.runStopped then fromCell kind m (fun s => s.takeRunStopped m) s
  else if kind = Kind.bin then binFrame kind m (fun s => s.takeBin m) s
  else if kind = Kind.binCompact then binFrame kind m (fun s => s.takeCompact m) s
  else arrival s fun s => s.forwardOnly kind m

/-- The destination a header's byte names, 0 to 2 in a readable header (R202). -/
def readDest : Nat → Dest
  | 0 => .part
  | 1 => .plant
  | _ => .cell

/-- A field of a frame's data: `k` bytes from an offset (R202). -/
def fieldAt (data : List Byte) (offset k : Nat) : Nat := bytesNum ((data.drop offset).take k)

/-- The kind of a readable floor frame (R202). -/
def kindOf (f : RawFrame) : Code16 := BitVec.ofNat 16 (fieldAt f.data 0 2)

/-- The message of a readable floor frame (R164, R202). -/
def msgOf (f : RawFrame) : Msg where
  dst    := f.dst
  src    := f.src
  dest   := readDest (fieldAt f.data 2 1)
  cell   := BitVec.ofNat 8 (fieldAt f.data 3 1)
  handle := BitVec.ofNat 16 (fieldAt f.data 4 2)
  inst   := BitVec.ofNat 8 (fieldAt f.data 6 1)
  step   := BitVec.ofNat 8 (fieldAt f.data 7 1)
  body   := (f.data.drop 10).take (fieldAt f.data 8 2)
  pad    := (f.data.drop 10).drop (fieldAt f.data 8 2)

/-- A floor frame with a readable header, by the port it arrived on (R164). -/
def routeFrame (port : Port) (f : RawFrame) (s : State) : Host.Outcome State Fault Refusal :=
  match port with
  | .floor => routeFloor (kindOf f) (msgOf f) s
  | .plant => routePlant (kindOf f) (msgOf f) s

/-- A frame is a floor frame: its type equals the floor frame type setting (R163). -/
def State.isFloorFrame (s : State) (f : RawFrame) : Bool := f.etype == s.tst.settings.frameType

/-! ### The rows -/

/-- FOREIGN_FRAME (R163). A frame that turns out to be of the floor frame type in force is no foreign frame and is
handled as the classifier handles it. -/
def execForeignFrame (port : Port) (f : RawFrame) (s : State) : Host.Outcome State Fault Refusal :=
  if s.isFloorFrame f then
    if headerReadable f.data then routeFrame port f s else arrival s fun s => s.countMalformed port
  else arrival s fun s => s.passThrough port f

/-- HEADER_UNREADABLE (R164). A frame of another type, or with a readable header, is handled as the classifier
handles it. -/
def execHeaderUnreadable (port : Port) (f : RawFrame) (s : State) : Host.Outcome State Fault Refusal :=
  if s.isFloorFrame f && !headerReadable f.data then arrival s fun s => s.countMalformed port
  else if s.isFloorFrame f then routeFrame port f s
  else arrival s fun s => s.passThrough port f

/-- FLOOR_FORWARD_ONLY (R165). A cell kind is routed to its owner. -/
def execFloorForwardOnly (kind : Code16) (m : Msg) (s : State) : Host.Outcome State Fault Refusal :=
  if isCellKind kind then routeFloor kind m s else arrival s fun s => s.forwardOnly kind m

/-- PLANT_FRAME_TO_CELL (R169). A frame with another destination is routed by it. -/
def execPlantFrameToCell (kind : Code16) (m : Msg) (s : State) : Host.Outcome State Fault Refusal :=
  if m.dest = .cell then arrival s fun s => s.toCell kind m else routePlant kind m s

/-- PLANT_FRAME_TO_PLANT (R167). A frame with another destination is routed by it. -/
def execPlantFrameToPlant (kind : Code16) (m : Msg) (s : State) : Host.Outcome State Fault Refusal :=
  if m.dest = .plant then arrival s fun s => s.misdirect else routePlant kind m s

/-- NON_REQUEST_TO_PART (R172). A frame with another destination, or of a request kind, is routed by it. -/
def execNonRequestToPart (kind : Code16) (m : Msg) (s : State) : Host.Outcome State Fault Refusal :=
  if m.dest = .part && !isRequestKind kind then request kind m (takeNonRequest kind) s else routePlant kind m s

end Sys2Proof.Machine
end

