-- ==== Sys2Proof/Machine/Dispatch.lean ====
section
/-! DEFINITION. The meaning of every command: one arm for each row of spec/opcode_table.json, one direct call of
the row's own definition. The effect is on everything but the queue of waiting commands. -/

namespace Sys2Proof.Machine

def exec (i : Instr) (s : State) : Host.Outcome State Fault Refusal :=
  match i with
  | .hardReset => Sys2Proof.Machine.execHardReset s
  | .resetRelease => Sys2Proof.Machine.execResetRelease s
  | .imageLoadComplete => Sys2Proof.Machine.execImageLoadComplete s
  | .flashTimeout => Sys2Proof.Machine.execFlashTimeout s
  | .secondEvent sampling => Sys2Proof.Machine.execSecondEvent sampling s
  | .silenceTimeout c => Sys2Proof.Machine.execSilenceTimeout c s
  | .loadTimeout c => Sys2Proof.Machine.execLoadTimeout c s
  | .kitTimeout c => Sys2Proof.Machine.execKitTimeout c s
  | .soakTimeout c => Sys2Proof.Machine.execSoakTimeout c s
  | .startTimeout c => Sys2Proof.Machine.execStartTimeout c s
  | .stopTimeout c => Sys2Proof.Machine.execStopTimeout c s
  | .jamTimeout c => Sys2Proof.Machine.execJamTimeout c s
  | .inhibitChange level => Sys2Proof.Machine.execInhibitChange level s
  | .portLinkChange port up => Sys2Proof.Machine.execPortLinkChange port up s
  | .queueSend port => Sys2Proof.Machine.execQueueSend port s
  | .foreignFrame port frame => Sys2Proof.Machine.execForeignFrame port frame s
  | .headerUnreadable port frame => Sys2Proof.Machine.execHeaderUnreadable port frame s
  | .floorForwardOnly kind m => Sys2Proof.Machine.execFloorForwardOnly kind m s
  | .plantFrameToCell kind m => Sys2Proof.Machine.execPlantFrameToCell kind m s
  | .plantFrameToPlant kind m => Sys2Proof.Machine.execPlantFrameToPlant kind m s
  | .nonRequestToPart kind m => Sys2Proof.Machine.execNonRequestToPart kind m s
  | .status m => Sys2Proof.Machine.execStatus m s
  | .loadDone m => Sys2Proof.Machine.execLoadDone m s
  | .runStarted m => Sys2Proof.Machine.execRunStarted m s
  | .passEnd m => Sys2Proof.Machine.execPassEnd m s
  | .runStopped m => Sys2Proof.Machine.execRunStopped m s
  | .bin m => Sys2Proof.Machine.execBin m s
  | .binCompact m => Sys2Proof.Machine.execBinCompact m s
  | .lotOrder m => Sys2Proof.Machine.execLotOrder m s
  | .sweep m => Sys2Proof.Machine.execSweep m s
  | .tableWriteActive m => Sys2Proof.Machine.execTableWriteActive m s
  | .tableWriteStored m => Sys2Proof.Machine.execTableWriteStored m s
  | .storePhaseEnd => Sys2Proof.Machine.execStorePhaseEnd s
  | .storedWriteComplete agrees => Sys2Proof.Machine.execStoredWriteComplete agrees s
  | .tableReadActive m => Sys2Proof.Machine.execTableReadActive m s
  | .tableReadStored m => Sys2Proof.Machine.execTableReadStored m s
  | .storedReadComplete => Sys2Proof.Machine.execStoredReadComplete s
  | .hold m => Sys2Proof.Machine.execHold m s
  | .releaseContinue m => Sys2Proof.Machine.execReleaseContinue m s
  | .releaseRework m => Sys2Proof.Machine.execReleaseRework m s
  | .releaseScrap m => Sys2Proof.Machine.execReleaseScrap m s
  | .groupHold m => Sys2Proof.Machine.execGroupHold m s
  | .groupRelease m => Sys2Proof.Machine.execGroupRelease m s
  | .groupRetire m => Sys2Proof.Machine.execGroupRetire m s
  | .shipConfirm m => Sys2Proof.Machine.execShipConfirm m s
  | .queryLot m => Sys2Proof.Machine.execQueryLot m s
  | .queryCell m => Sys2Proof.Machine.execQueryCell m s
  | .queryQueue m => Sys2Proof.Machine.execQueryQueue m s
  | .queryShip m => Sys2Proof.Machine.execQueryShip m s
  | .queryCounters m => Sys2Proof.Machine.execQueryCounters m s
  | .queryPart m => Sys2Proof.Machine.execQueryPart m s
  | .time m => Sys2Proof.Machine.execTime m s
  | .restart m => Sys2Proof.Machine.execRestart m s
  | .imageRereadComplete => Sys2Proof.Machine.execImageRereadComplete s

end Sys2Proof.Machine
end

