-- ==== Sys2Proof/Safety.lean ====
section
/-! DEFINITION. What holds of the part at every moment: the capacities the spec gives its lists and counts, READY
following the mode, the states of R39 with the runs and fields each allows, and the orders of the lists; and the words
the claims are stated in: when a message is taken, and the frames, notices and parts of the state that stand. -/

namespace Sys2Proof.Machine

/-- Both forwarding queues hold at most 256 frames (R170). -/
def State.queuesFit (s : State) : Prop :=
  s.pcl.floorQ.length ≤ queueCapacity ∧ s.pcl.plantQ.length ≤ queueCapacity

/-- The next notice sequence number lies in 0 to 65,535 (R181). -/
def State.sequenceFits (s : State) : Prop := s.pcl.noticeSeq < 65536

/-- The number of every slot lies in 1 to 255 (R2, R9). -/
def State.numbersFit (s : State) : Prop := ∀ h, h < 512 → 1 ≤ (s.slot h).inst ∧ (s.slot h).inst ≤ 255

/-- The ship queue holds at most 64 records (R156). -/
def State.shipFits (s : State) : Prop := s.rlu.ship.length ≤ shipCapacity

/-- The store work list holds at most 8 reads, and at most one write, which stands after every read (R188). -/
def State.workFits (s : State) : Prop :=
  readCount s.scn.work ≤ maxReads ∧ ∀ op ∈ s.scn.work.dropLast, op.isWrite = false

/-- READY is high exactly in NORMAL (R185). -/
def State.readyFollows (s : State) : Prop := s.tbs.ready = (s.tbs.mode == .normal)

/-- No dispatch pass is left over between commands (R67). -/
def State.passTaken (s : State) : Prop := s.dar.passDue = false

/-- The live lots whose route field names a route entry (R15). -/
def State.liveOn (s : State) (r : Nat) : Nat := s.ldr.slots.toList.countP fun x => x.lot.map Lot.route == some r

/-- The use count of every route entry is the number of live lots on it (R15). -/
def State.useCountsFit (s : State) : Prop := ∀ r, r < 16 → vget s.ldr.useCount 0 r = s.liveOn r

/-- The capacities of the spec, and READY following the mode. -/
def State.Fits (s : State) : Prop :=
  s.queuesFit ∧ s.sequenceFits ∧ s.numbersFit ∧ s.shipFits ∧ s.workFits ∧ s.readyFollows

/-- The runs a cell state allows (R39): none in OFFLINE, IDLE and FAULT, one or two in every other state, and an
incoming run only in STOPPING for a preemption with one run on the stack (R38, R39). -/
def Cell.runsFit (x : Cell) : Prop :=
  (match x.state with
    | .offline | .idle | .fault => x.stack = []
    | .setup | .starting | .running | .paused | .stopping => x.stack.length = 1 ∨ x.stack.length = 2) ∧
  (x.incoming.isSome → x.state = .stopping ∧ x.stopReason = some .preempt ∧ x.stack.length = 1)

/-- The fields a cell holds in some states only: a cause in FAULT, a stop reason in STOPPING, pending setup items in
SETUP, and each timer but silence in its own state (R38, R58). -/
def Cell.fieldsFit (x : Cell) : Prop :=
  (x.cause.isSome ↔ x.state = .fault) ∧ (x.stopReason.isSome ↔ x.state = .stopping) ∧
  (x.items ≠ Items.none → x.state = .setup) ∧ (x.timers.load.isSome → x.state = .setup) ∧
  (x.timers.kit.isSome → x.state = .setup) ∧ (x.timers.soak.isSome → x.state = .setup) ∧
  (x.timers.start.isSome → x.state = .starting) ∧ (x.timers.stop.isSome → x.state = .stopping) ∧
  (x.timers.jam.isSome → x.state = .paused) ∧ (x.state = .offline → x.timers.silence = none)

/-- Every cell is in one of the eight states with what that state allows (R39). -/
def State.CellsFit (s : State) : Prop := ∀ c, c < 48 → (s.cell c).runsFit ∧ (s.cell c).fieldsFit

/-- No later entry of a list stands before an earlier one. -/
def inOrder {α : Type} (before : α → α → Bool) (l : List α) : Prop := l.Pairwise fun a b => before b a = false

/-- The place of one release record before another: release time, then handle (R156). -/
def Record.before (a b : Record) : Bool :=
  a.releaseTime < b.releaseTime || (a.releaseTime == b.releaseTime && a.handle < b.handle)

/-- The place of one pending lot before another: completion time, then handle (R153). -/
def PendMember.before (a b : PendMember) : Bool :=
  a.completion < b.completion || (a.completion == b.completion && a.handle < b.handle)

/-- The dispatch queue, the ship queue and the release-pending set stand in their orders (R60, R156, R153). -/
def State.ListsOrdered (s : State) : Prop :=
  inOrder Member.before s.dar.queue ∧ inOrder Record.before s.rlu.ship ∧ inOrder PendMember.before s.rlu.pend

/-! ### When a message is taken -/

/-- The part takes messages: it is out of reset and its mode is NORMAL or SAFE (R165, R167, R185, R186). -/
def State.takes (s : State) : Prop := s.tbs.resetIn = false ∧ s.tbs.mode ≠ .starting

/-- A management request that passes the check of R168 and carries a tag: what follows the tag is `rest`. -/
def State.accepts (s : State) (m : Msg) (tag : Nat) (rest : List Byte) : Prop :=
  s.takes ∧ (s.tst.settings.mgmtAddr = 0 ∨ m.src = s.tst.settings.mgmtAddr) ∧ readTag m.body = some (tag, rest)

/-- `n` more frames fit in the plant-bound queue (R170). -/
def State.plantRoom (s : State) (n : Nat) : Prop := s.pcl.plantQ.length + n ≤ queueCapacity

/-- `n` more frames fit in the floor-bound queue (R170). -/
def State.floorRoom (s : State) (n : Nat) : Prop := s.pcl.floorQ.length + n ≤ queueCapacity

/-- Notices are queued: the management station address is set and the plant link is up (R181). -/
def State.noticesGo (s : State) : Prop := s.tst.settings.mgmtAddr ≠ 0 ∧ s.pcl.plantLink = true

/-! ### The frames of a step -/

/-- The state with frames added to the plant-bound queue. -/
def State.sendsPlant (s : State) (l : List Frame) : State := { s with pcl := { s.pcl with plantQ := s.pcl.plantQ ++ l } }

/-- The state with frames added to the floor-bound queue. -/
def State.sendsFloor (s : State) (l : List Frame) : State := { s with pcl := { s.pcl with floorQ := s.pcl.floorQ ++ l } }

/-- The REPLY frame to a request (R173, R202, R205). -/
def State.replyFrame (s : State) (kind : Code16) (m : Msg) (tag : Nat) (code : ReplyCode) (body : ReplyBody) : Frame where
  dst     := m.src
  src     := Config.stationAddress
  etype   := s.tst.settings.frameType
  payload := .reply ⟨Kind.reply, .plant, m.cell.toNat, m.handle.toNat, m.inst.toNat, m.step.toNat⟩ ⟨kind, tag, code, body⟩

/-- The state with the REPLY to a request in the plant-bound queue, and nothing else changed. -/
def State.answers (s : State) (kind : Code16) (m : Msg) (tag : Nat) (code : ReplyCode) (body : ReplyBody) : State :=
  s.sendsPlant [s.replyFrame kind m tag code body]

/-- The frame of a notice produced now (R180, R181, R205). -/
def State.noticeFrame (s : State) (b : NoticeBody) : Frame where
  dst     := s.tst.settings.mgmtAddr
  src     := Config.stationAddress
  etype   := s.tst.settings.frameType
  payload := .notice (noticeHeader b) ⟨s.pcl.noticeSeq, s.tbs.floorTime, b⟩

/-- The state with the next sequence number taken and the notice in the plant-bound queue. -/
def State.notifies (s : State) (b : NoticeBody) : State :=
  ({ s with pcl := { s.pcl with noticeSeq := (s.pcl.noticeSeq + 1) % 65536 } } : State).sendsPlant [s.noticeFrame b]

/-- The frame of an order to a cell: a registered cell's address, the cell, and the lot it names (R70, R202). -/
def State.orderFrame (s : State) (reg : Registration) (c : Nat) (run : Option Run) (o : Order) : Frame where
  dst     := reg.addr
  src     := Config.stationAddress
  etype   := s.tst.settings.frameType
  payload := .order (orderHeader o.kind c run) o

/-! ### What a step leaves -/

/-- The waiting commands, the tables, the stored image and its work, the mode, lines and time, and the links stand. -/
def State.sameBase (s t : State) : Prop :=
  t.pending = s.pending ∧ t.tst = s.tst ∧ t.scn = s.scn ∧ t.tbs = s.tbs ∧ t.pcl.floorLink = s.pcl.floorLink ∧
    t.pcl.plantLink = s.pcl.plantLink

/-- Every slot but one stands, and every use count. -/
def State.sameOtherLots (s t : State) (h : Nat) : Prop :=
  (∀ k, k ≠ h → t.slot k = s.slot k) ∧ t.ldr.useCount = s.ldr.useCount

/-- Every cell record but one stands. -/
def State.sameOtherCells (s t : State) (c : Nat) : Prop := ∀ d, d ≠ c → t.cell d = s.cell d

/-- A cell message names a registered cell from its registered address (R40). -/
def State.knowsCell (s : State) (m : Msg) (reg : Registration) : Prop :=
  m.cell.toNat < 48 ∧ s.reg? m.cell.toNat = some reg ∧ reg.addr = m.src

/-- A message names a live lot: its group is bound and its slot carries the message's number (R8). -/
def State.namesLot (s : State) (m : Msg) (l : Lot) : Prop :=
  groupOf m.handle.toNat < 32 ∧ (s.group (groupOf m.handle.toNat)).state ≠ .unbound ∧
    s.slot m.handle.toNat = ⟨m.inst.toNat, some l⟩

/-- A message names the run: its lot, number and step (R85, R99). -/
def Run.namedBy (r : Run) (m : Msg) : Prop := r.handle = m.handle.toNat ∧ r.inst = m.inst.toNat ∧ r.step = m.step.toNat

/-- A message names no lot its sender can mean, and why: the first of the three checks of R8 that fails. -/
def State.refusesLot (s : State) (m : Msg) (code : ReplyCode) : Prop :=
  let bound := groupOf m.handle.toNat < 32 ∧ (s.group (groupOf m.handle.toNat)).state ≠ .unbound
  (code = .unknownGroup ∧ ¬bound) ∨ (code = .unknownLot ∧ bound ∧ s.lot? m.handle.toNat = none) ∨
    (code = .stale ∧ bound ∧ (s.lot? m.handle.toNat).isSome ∧ (s.slot m.handle.toNat).inst ≠ m.inst.toNat)

/-- A soft bin lies in a range of a bin map (R26). -/
def BinRange.holds (r : BinRange) (soft : Nat) : Prop := r.low ≤ soft ∧ soft ≤ r.high

/-- A written entry passes checks 1 to 4 of R29 with the contents `e`. -/
def State.writesEntry (s : State) (w : WriteBody) (e : Option Entry) (note : WriteNote) : Prop :=
  w.table ≤ 8 ∧ w.entry < tableEntries w.table ∧ readEntry w.table w.entry w.empty w.contents = .ok e note ∧
    ∀ p, e = some (.pin p) → pinClash (s.pinCopy w.target) w.entry p = false

/-- A lot as LOT_ORDER creates it (R2, R13). -/
def lotCreated (b : OrderBody) (x : RouteStep) (now : Nat) : Lot where
  state      := .waiting
  name       := b.name
  route      := b.route
  cls        := min b.cls 3
  qty        := b.qty
  note       := b.note
  step       := 0
  pass       := .first
  summaries  := []
  acc        := Acc.start b.qty (unitsInOf x b.qty)
  segments   := []
  holds      := []
  target     := none
  setupFails := 0
  reworked   := Vector.replicate 6 false
  arrival    := now
  mark       := true
  completion := none
  relPending := false

/-- The queue with a lot at the place its class, arrival time and handle give it (R60). -/
def State.queueWith (s : State) (h : Nat) (l : Lot) : List Member :=
  joinMember ⟨h, (s.slot h).inst, l.cls, l.arrival, l.pass⟩ s.dar.queue

/-- A slot holds a lot. -/
def State.setLot (s : State) (h : Nat) (l : Lot) : State := s.modSlot h fun x => { x with lot := some l }

/-- The state with a stop of a cell's top run requested: STOP_RUN sent, the cell STOPPING with the reason and the stop
timer started, the start and jam timers stopped (R48). -/
def State.stopRequested (s : State) (reg : Registration) (c : Nat) (r : Run) (reason : StopReason) : State :=
  (s.modCell c fun x => { x with
    state := .stopping
    stopReason := some reason
    timers := { x.timers with start := none, jam := none, stop := some s.tst.settings.stop } }).sendsFloor
    [s.orderFrame reg c (some r) (.stopRun reason)]

/-- The record of a cell in FAULT that held runs: what R45 clears is cleared, the equipment, expiry and sites stand. -/
def Cell.faulted (x : Cell) (cause : FaultCause) : Cell :=
  { x with
    state := .fault
    cause := some cause
    stopReason := none
    items := Items.none
    timers := { Timers.idle with silence := x.timers.silence }
    stack := []
    incoming := none
    ctx := none
    order := none
    orderCurrent := false }

/-- The record of a cell that has fallen silent (R49). -/
def Cell.silenced (x : Cell) : Cell := { x.faulted .setupTimeout with state := .offline, cause := none, timers := Timers.idle }

/-- A run is the only one of its cell and a live lot's, with no pass end marked; if its segment is open, the lot's segments
number fewer than four (R95, R97). -/
def State.soleRun (s : State) (c : Nat) (r : Run) (l : Lot) : Prop :=
  (s.cell c).stack = [r] ∧ (s.cell c).incoming = none ∧ r.stopped = none ∧ s.lot? r.handle = some l ∧
    (r.segOpen = true → l.segments.length < 4)

/-- The lot with its last segment closed for a cause at its tested1, if the run has a segment open (R97). -/
def Lot.closedBy (l : Lot) (r : Run) (cause : CloseCause) : Lot :=
  if r.segOpen then
    { l with segments := l.segments.dropLast ++
        l.segments.getLast?.toList.map fun g => { g with closed := some (l.acc.tested1, cause) } }
  else l

/-- From `s` to `u` a run has left its cell and its lot, otherwise `l`, has gone where R51 sends it: without holds to WAITING
in the dispatch queue with the arrival time it had, with holds to HELD, out of the release-pending set. Every other lot and the
ship queue stand. -/
def State.sentBack (s u : State) (r : Run) (l : Lot) : Prop :=
  s.sameOtherLots u r.handle ∧ u.rlu.ship = s.rlu.ship ∧
  (l.holds = [] → u.slot r.handle = ⟨(s.slot r.handle).inst, some { l with state := .waiting }⟩ ∧
    u.dar = ⟨s.queueWith r.handle l, true⟩ ∧ u.rlu.pend = s.rlu.pend) ∧
  (l.holds ≠ [] → u.slot r.handle = ⟨(s.slot r.handle).inst, some { l with state := .held, relPending := false }⟩ ∧
    u.dar.queue = s.dar.queue ∧ u.rlu.pend = s.rlu.pend.filter fun m => m.handle != r.handle)

/-- The lot as a notice names it (R131, R205). -/
def State.named (s : State) (h : Nat) (l : Lot) : LotRef := ⟨h, (s.slot h).inst, l.name, groupOf h⟩

/-- A new hold on a lot that has none of its reason, with its LOT_HELD: the entry stands last, the first entry of a list gives
the return target, the activity mark is set and HOLD_PLACED counted; the notice says the lot is in the state `after` (R131,
R132). -/
def State.heldFor (s : State) (h : Nat) (l : Lot) (reason : HoldReason) (by_ : PlacedBy) (trips : List Trip)
    (after : LotState) : State :=
  let e : HoldEntry := ⟨reason, s.now, by_, trips, 1, none⟩
  let target := if l.holds = [] then some (if l.state = .complete then Target.complete else Target.resume) else l.target
  ((s.setLot h { l with holds := l.holds ++ [e], target := target, mark := true }).event .holdPlaced reason.code).notifies
    (.lotHeld (s.named h l) (s.group (groupOf h)).family e after target)

/-- A lot, as it now is, joins the dispatch queue, and a pass is started (R60, R61, R67). -/
def State.joins (s : State) (h : Nat) (l : Lot) : State := { s.setLot h l with dar := ⟨s.queueWith h l, true⟩ }

/-- A lot becomes HELD and leaves the release-pending set (R133, R151). -/
def State.becomesHeld (s : State) (h : Nat) (l : Lot) : State :=
  { s.setLot h { l with state := .held, relPending := false } with
    rlu := ⟨s.rlu.ship, s.rlu.pend.filter fun m => m.handle != h⟩ }

/-- A lot whose step has closed, at the next step of its route, WAITING (R108, R123, R144). -/
def State.atNextStep (s : State) (l : Lot) : Lot :=
  { l with
    state := .waiting
    step := l.step + 1
    pass := .first
    arrival := s.now
    segments := []
    acc := Acc.start l.shipQty (unitsInOf (s.routeStep l.route (l.step + 1)) l.shipQty) }

/-- The retest of a lot's step is due at the end of a pass (R87). -/
def State.dueRetest (s : State) (l : Lot) (pass : Pass) : Prop :=
  pass = .first ∧ (s.lotStep l).retest = true ∧ 0 < l.acc.retestable1 ∧ l.acc.retestUsed = false

/-- A lot with its activity mark set and the fed count of a pass (R16, R87). -/
def Lot.fed (l : Lot) (pass : Pass) (n : Nat) : Lot :=
  { l with mark := true, acc := { l.acc with
    fed1 := if pass = .first then some n else l.acc.fed1
    fed2 := if pass = .retest then some n else l.acc.fed2 } }

/-- A lot in its retest (R88, R93). -/
def Lot.inRetest (l : Lot) : Lot := { l with pass := .retest, acc := { l.acc with retestUsed := true } }

/-- The summary of a step, from the lot as the step-end checks leave it (R121, R122). -/
def Summary.closes (m : Summary) (x : RouteStep) (l : Lot) (segments : List Segment) : Prop :=
  m.step = l.step ∧ m.kind = x.kind ∧ m.temp = x.temp ∧ m.entering = l.acc.entering ∧ m.unitsIn = l.acc.unitsIn ∧
  m.tested1 = l.acc.tested1 ∧ m.good1 = l.acc.good1 ∧ m.retestable1 = l.acc.retestable1 ∧ m.tested2 = l.acc.tested2 ∧
  m.good2 = l.acc.good2 ∧ m.retestUsed = l.acc.retestUsed ∧ m.segments = segments ∧ m.trips = l.acc.trips ∧
  m.waived = !l.acc.waived.isEmpty ∧ m.reconciled = !l.acc.qtyMark ∧ m.carried = (match x.kind with
    | .test => l.acc.good1 + l.acc.good2
    | .sample => l.acc.entering - (l.acc.unitsIn - (l.acc.good1 + l.acc.good2)))

/-- What CONTINUE makes of a lot whose only entry it removes (R141): the target is discarded, and beside it a GUARD entry's
waivable kinds are waived, with the closed summary of the step marked, and the window is emptied (R125, R152); a QUANTITY entry
clears the mark and reconciles every summary (R122). -/
def Lot.continuedBy (l : Lot) (e : HoldEntry) (l' : Lot) : Prop :=
  let accepts (t : Trip) : Prop := t = .yieldLow ∨ (∃ b, t = .binHigh b) ∨ t = .binMismatch ∨ t = .releaseLow
  { l' with acc := l.acc, summaries := l.summaries } = { l with holds := [], target := none, mark := true } ∧
  (e.reason ≠ .guard → e.reason ≠ .quantity → l'.acc = l.acc ∧ l'.summaries = l.summaries) ∧
  (e.reason = .guard → (∀ t, t ∈ l'.acc.waived ↔ t ∈ l.acc.waived ∨ t ∈ e.trips ∧ accepts t) ∧
    { l'.acc with waived := l.acc.waived } = { l.acc with window := [], winPass := 0 } ∧
    ((∀ t ∈ e.trips, ¬accepts t) → l'.summaries = l.summaries) ∧
    ((∃ t ∈ e.trips, accepts t) →
      l'.summaries = l.summaries.map fun m => { m with waived := m.waived || decide (m.step = l.step) })) ∧
  (e.reason = .quantity → l'.acc = { l.acc with qtyMark := false } ∧
    l'.summaries = l.summaries.map fun m => { m with reconciled := true })

/-! ### Dropped run events and refused records -/

/-- A run event names the cell's top run with its lot and number (R85). -/
def Run.ofLot (r : Run) (m : Msg) : Prop := r.handle = m.handle.toNat ∧ r.inst = m.inst.toNat

/-- A message fails the lookup of R8, with the outcome it has for a run event and for a bin record (R85, R99). -/
def State.missesLot (s : State) (m : Msg) (d : Drop) : Prop :=
  (s.refusesLot m .unknownGroup ∧ d = .unknownGroup) ∨ (s.refusesLot m .unknownLot ∧ d = .unknownLot) ∨
    (s.refusesLot m .stale ∧ d = .stale)

/-- The first of checks 3 to 6 of R85 that a run event of a known cell fails; `pass` is the pass of a PASS_END. -/
def State.dropsEvent (s : State) (m : Msg) (pass : Option Pass) (d : Drop) : Prop :=
  let stack := (s.cell m.cell.toNat).stack
  s.missesLot m d ∨ ∃ l, s.namesLot m l ∧
    ((d = .notRunning ∧ ∀ r below, stack = r :: below → ¬r.ofLot m) ∨
      ∃ r below, stack = r :: below ∧ r.ofLot m ∧
        ((d = .wrongStep ∧ r.step ≠ m.step.toNat) ∨
          (d = .wrongPass ∧ r.step = m.step.toNat ∧ ∃ p, pass = some p ∧ r.pass ≠ p)))

/-- A run event of a known cell passes checks 1 to 6 of R85 for the run `r`. -/
def State.namesTop (s : State) (m : Msg) (pass : Option Pass) (r : Run) : Prop :=
  (∃ l, s.namesLot m l) ∧ (s.cell m.cell.toNat).stack.head? = some r ∧ r.namedBy m ∧ ∀ p, pass = some p → r.pass = p

/-- A cell drop is counted and its reason recorded (R85). -/
def State.dropCounted (s : State) (c : Nat) (d : Drop) : State :=
  s.modCell c fun x => { x with drops := min 65535 (x.drops + 1), lastDrop := some d }

/-- What becomes of a run event that is dropped: it is forwarded, and its cell counts it when the cell is known and the body is
of its kind (R85). `readable` tells of the body, `takes` of check 7. -/
def State.dropsAs (s : State) (i : Instr) (kind : Code16) (m : Msg) (readable : Bool) (pass : Option Pass)
    (takes : CellState → Run → Prop) : Prop :=
  let forwards (u : State) : Prop := Machine.exec i s = .next (u.sendsPlant [forwardedFrame s kind m m.body])
  (readable = false ∨ (¬∃ reg, s.knowsCell m reg) → forwards s) ∧
  (readable = true → ∀ reg, s.knowsCell m reg →
    (∀ d, s.dropsEvent m pass d → forwards (s.dropCounted m.cell.toNat d)) ∧
    (∀ r, s.namesTop m pass r → ¬takes (s.cell m.cell.toNat).state r → forwards (s.dropCounted m.cell.toNat .unexpected)))

/-- The cell counts bin records in its state (R99 check 6). -/
def CellState.countsBins (st : CellState) : Prop := st = .starting ∨ st = .running ∨ st = .paused ∨ st = .stopping

/-- A site is accepted: below the site count, and enabled or confirmed (R54). -/
def State.takesSite (s : State) (c site : Nat) : Prop :=
  site < s.siteCount c ∧ ((s.cell c).enabled.getLsbD site = true ∨ (s.cell c).confirmed.getLsbD site = true)

/-- A bin record of the lot, number, step and pass `k` passes checks 6 to 9 of R99 for the cell's top run `r`. -/
def State.takesRecord (s : State) (c : Nat) (k : Ctx) (site : Nat) (r : Run) : Prop :=
  (s.cell c).state.countsBins ∧ (s.cell c).stack.head? = some r ∧ k = ⟨r.handle, r.inst, r.step, r.pass⟩ ∧ s.takesSite c site

/-- The first of checks 6 to 9 of R99 that a bin record of the lot, number, step and pass `k` fails. -/
def State.refusesRecord (s : State) (c : Nat) (k : Ctx) (site : Nat) (d : Drop) : Prop :=
  let mine (r : Run) : Prop := (s.cell c).state.countsBins ∧ (s.cell c).stack.head? = some r ∧ r.handle = k.handle ∧ r.inst = k.inst
  (d = .notRunning ∧ ∀ r, ¬mine r) ∨ ∃ r, mine r ∧
    ((d = .wrongStep ∧ r.step ≠ k.step) ∨ (d = .wrongPass ∧ r.step = k.step ∧ r.pass ≠ k.pass) ∨
      (d = .siteDisabled ∧ r.step = k.step ∧ r.pass = k.pass ∧ ¬s.takesSite c site))

/-- The pass already holds all its units (R99 check 10). -/
def Run.passFull (r : Run) (a : Acc) : Prop :=
  (r.pass = .first ∧ a.tested1 = a.unitsIn) ∨ (r.pass = .retest ∧ a.tested2 = a.retestable1)

/-- The mapping of a soft bin by the bin map of the run's step (R26). -/
def State.mapped (s : State) (r : Run) (soft : Byte) : Mapped := mapBin (s.binMapOf (s.runStep r)) soft.toNat

/-- The two annotation bytes of a mapped record: class and hard bin, then the outcome (R105, R204). -/
def Mapped.note (m : Mapped) (d : Drop) : List Byte := [BitVec.ofNat 8 (m.cls.code * 16 + m.hard), BitVec.ofNat 8 d.code]

/-- The two annotation bytes of a record that is not mapped (R105, R204). -/
def unmappedNote (d : Drop) : List Byte := [0, BitVec.ofNat 8 d.code]

/-- The stream context after a full BIN of a known cell: cleared by a clear stream flag, otherwise as it was or, when the record
is counted, its run's (R103). -/
def State.afterBin (s : State) (c : Nat) (stream : Byte) (bound : Option Run) : State :=
  if stream = 0 then s.modCell c fun x => { x with ctx := none }
  else match bound with
    | some r => s.modCell c fun x => { x with ctx := some ⟨r.handle, r.inst, r.step, r.pass⟩ }
    | none => s

/-- The lot-wide kinds that trip after a first-pass record (R115). -/
def tripsLot (p : Profile) (a : Acc) (t : Trip) : Prop :=
  t ∉ a.waived ∧
    ((t = .yieldLow ∧ p.minSample ≤ a.tested1 ∧ a.good1 * 1000 < p.yieldFloor * a.tested1) ∨
      (∃ b, t = .binHigh b ∧ b < 16 ∧ p.minSample ≤ a.tested1 ∧
        vget p.ceilings 0 b * a.tested1 < vget a.hardBins 0 b * 1000) ∨
      (t = .windowLow ∧ a.window.length = p.window ∧ a.winPass * 1000 < p.windowFloor * p.window) ∨
      (t = .binMismatch ∧ p.mismatchLimit < a.mismatch))

/-- The site kinds that trip after a first-pass record of an enabled site while the segment is open (R116): T and G are the
units tested and good at the site, To and Go at the others. -/
def tripsSite (p : Profile) (a : Acc) (cls : BinClass) (site : Nat) (t : Trip) : Prop :=
  let x := vget a.sites ⟨0, 0, 0, 0⟩ site
  let others := (List.range 16).filter (· ≠ site)
  let testedO := (others.map fun i => (vget a.sites ⟨0, 0, 0, 0⟩ i).tested).sum
  let goodO := (others.map fun i => (vget a.sites ⟨0, 0, 0, 0⟩ i).good).sum
  t ∉ a.waived ∧
    ((t = .siteSkew site ∧ 0 < p.skewLimit ∧ p.skewMin ≤ x.tested ∧ p.skewMin ≤ testedO ∧
        (p.skewLimit : Int) * x.tested * testedO < ((goodO : Int) * x.tested - (x.good : Int) * testedO) * 1000) ∨
      (t = .siteRun site ∧ 0 < p.consecLimit ∧ cls ≠ .pass ∧ p.consecLimit ≤ x.consec))

/-- The figures a counted first-pass record leaves (R110): the counts of its class and hard bin, mismatch and unmapped counts,
its site's statistics while the segment is open, and the window; nothing else of the accumulators changes. -/
def countsFirst (a a' : Acc) (p : Profile) (m : Mapped) (site hard : Nat) (segOpen enabled : Bool) : Prop :=
  a'.tested1 = a.tested1 + 1 ∧ a'.good1 = a.good1 + (if m.cls = .pass then 1 else 0) ∧
  a'.retestable1 = a.retestable1 + (if m.cls = .retestable then 1 else 0) ∧
  (∀ b, b < 16 → vget a'.hardBins 0 b = vget a.hardBins 0 b + (if b = m.hard then 1 else 0)) ∧
  a'.unmapped = (if m.unmapped then min 65535 (a.unmapped + 1) else a.unmapped) ∧
  a'.mismatch = (if m.unmapped = true ∨ hard ≠ m.hard then min 65535 (a.mismatch + 1) else a.mismatch) ∧
  (∀ i, i < 16 →
    let x := vget a.sites ⟨0, 0, 0, 0⟩ i
    vget a'.sites ⟨0, 0, 0, 0⟩ i =
      if segOpen = false ∨ i ≠ site then x
      else if enabled = false then { x with frozen := x.frozen + 1 }
      else if m.cls = .pass then { x with tested := x.tested + 1, good := x.good + 1, consec := 0 }
      else { x with tested := x.tested + 1, consec := min 15 (x.consec + 1) }) ∧
  (1 ≤ p.window → a.window.length ≤ p.window →
    a'.window = (a.window ++ [m.cls]).drop (a.window.length + 1 - p.window) ∧
    (a.winPass = a.window.count .pass → a'.winPass = a'.window.count .pass)) ∧
  { a' with
    tested1 := a.tested1, good1 := a.good1, retestable1 := a.retestable1, hardBins := a.hardBins, unmapped := a.unmapped
    mismatch := a.mismatch, sites := a.sites, window := a.window, winPass := a.winPass } = a

/-! ### Setup and samples -/

/-- A cell prepares a run that is now the top of its stack: it is in SETUP with an item pending, or STARTING with the run awaiting
its start (R70, R74). -/
def Cell.prepares (x : Cell) (r : Run) (below : List Run) : Prop :=
  (x.state = .setup ∧ x.items ≠ Items.none ∧ x.stack = r :: below) ∨
    (x.state = .starting ∧ x.stack = { r with awaiting := true } :: below)

/-- A cell has enabled sites enough for a run, and its calibration has not lapsed (R52, R70). -/
def State.carries (s : State) (c : Nat) (r : Run) : Prop :=
  (s.profileOf (s.runStep r)).minSites ≤ maskCount (s.cell c).enabled ∧
    ∀ f e, s.tbs.floorTime = some f → (s.cell c).expiry = some e → f < e

/-- START_RUN sent for the top run of a cell, which is STARTING with the run awaiting its start and the start timer started
(R74, R88). -/
def State.startsRun (s : State) (reg : Registration) (c : Nat) (r : Run) (units : Nat) : State :=
  (s.modCell c fun x => { x with
    state := .starting
    cause := none
    stopReason := none
    items := Items.none
    stack := { r with awaiting := true } :: x.stack.tail
    timers := { Timers.idle with silence := x.timers.silence, start := some s.tst.settings.start } }).sendsFloor
    [s.orderFrame reg c (some r) (.startRun r.pass (s.cell c).enabled units)]

/-- A cell in SETUP for its top run, before anything is judged: the lot is ASSIGNED, no item is pending, and the setup timers and
the current-setup mark are cleared (R70, R71). -/
def State.entersSetup (s : State) (c : Nat) (r : Run) : State :=
  (s.setLotState r.handle .assigned).modCell c fun x => { x with
    state := .setup
    cause := none
    stopReason := none
    items := Items.none
    orderCurrent := false
    timers := { Timers.idle with silence := x.timers.silence } }

/-- A cell that can carry its top run goes into SETUP for it: its items are judged, and with none pending the run is started
(R70, R71, R74). -/
def State.setsUp (s : State) (c : Nat) (r : Run) : State := ((s.entersSetup c r).judgeItems c r true).checkSetup c

/-- A cell whose top run has left goes into SETUP for the run that is now its top, or is IDLE, which starts a pass (R39, R82). -/
def State.cellGoesOn (s : State) (c : Nat) : State :=
  match (s.cell c).stack with
  | r :: _ => s.setsUp c r
  | [] => { s.modCell c fun x => { x with
      state := .idle
      cause := none
      stopReason := none
      items := Items.none
      timers := { Timers.idle with silence := x.timers.silence } } with dar := ⟨s.dar.queue, true⟩ }

/-- RUN_STARTED taken for a top run that awaits its start: the mark is cleared, the lot is RUNNING without setup failures, and a
segment opens unless one is open, the fourth replaced if four stand, with the site statistics at 0; from STARTING the cell is
RUNNING, which starts a pass when no run stands below (R67, R75, R86, R96). -/
def State.runStarts (s : State) (c : Nat) (r : Run) (below : List Run) (l : Lot) (v : ProgVals) : State :=
  let running : Lot := { l with state := .running, setupFails := 0, mark := true }
  let opened : Lot := { running with
    segments := (if l.segments.length < 4 then l.segments else l.segments.dropLast) ++ [⟨c, v.number, v.rev, l.acc.tested1, none⟩]
    acc := { l.acc with sites := Vector.replicate 16 ⟨0, 0, 0, 0⟩ } }
  { (s.setLot r.handle (if r.segOpen then running else opened)).modCell c fun x => { x with
      state := if x.state = .starting then .running else x.state
      stack := { r with awaiting := false, segOpen := true } :: below
      timers := { x.timers with start := none } } with
    dar := ⟨s.dar.queue, decide ((s.cell c).state = .starting ∧ below = [])⟩ }

/-- The cause with which the segment of a top run closes at RUN_STOPPED: of the stop reason in STOPPING, FAULT at a stop the part
did not order (R92, R94). -/
def Cell.stopsFor (x : Cell) (cause : CloseCause) : Prop :=
  ((x.state = .starting ∨ x.state = .running ∨ x.state = .paused) ∧ cause = .fault) ∨
    (x.state = .stopping ∧ (((x.stopReason = some .hold ∨ x.stopReason = some .quantity) ∧ cause = .hold) ∨
      (x.stopReason = some .calibration ∧ cause = .calibration) ∨ (x.stopReason = some .jamTimeout ∧ cause = .jamTimeout)))

/-- From `u` to `t` every counter of an occupancy source has taken one sample of `u`, by its mode, and nothing else has changed
(R199). -/
def State.sampledTo (u t : State) : Prop :=
  { t with fcn := u.fcn } = u ∧ ∀ i, i < 8 →
    ((∀ cfg o, vget u.tst.counters none i = some cfg → cfg.source ≠ .occupancy o) →
      vget t.fcn.values 0 i = vget u.fcn.values 0 i ∧ vget t.fcn.last none i = vget u.fcn.last none i) ∧
    (∀ cfg o, vget u.tst.counters none i = some cfg → cfg.source = .occupancy o →
      let n := vget u.fcn.values 0 i
      let holds := if cfg.invert then decide (u.sampleOf o < cfg.threshold) else decide (cfg.threshold ≤ u.sampleOf o)
      (cfg.mode = .level → vget t.fcn.values 0 i = if holds then min 4294967295 (n + 1) else n) ∧
      (cfg.mode = .edge → vget t.fcn.last none i = some holds ∧
        vget t.fcn.values 0 i = if holds = true ∧ vget u.fcn.last none i = some false then min 4294967295 (n + 1) else n) ∧
      (cfg.mode = .accumulate → vget t.fcn.values 0 i = min 4294967295 (n + u.sampleOf o)))

/-- From `s` to `u` the timers of every cell and of the flash device have counted a second, a timer at `n` standing at `n - 1`,
one at 0 at 0 and an idle one idle, and floor time, when set, has advanced; nothing else has changed (R58, R193, R194). -/
def State.countedTo (s u : State) : Prop :=
  let down (t : Option Nat) : Option Nat := t.map fun n => n - 1
  (∀ c, c < 48 → let x := s.cell c
    u.cell c = { x with timers := ⟨down x.timers.silence, down x.timers.load, down x.timers.kit, down x.timers.soak,
      down x.timers.start, down x.timers.stop, down x.timers.jam⟩ }) ∧
  u.tbs = { s.tbs with floorTime := s.tbs.floorTime.map fun f => if f = 4294967295 then f else f + 1 } ∧
  u.scn = { s.scn with flashLeft := down s.scn.flashLeft } ∧ { u with ctr := s.ctr, tbs := s.tbs, scn := s.scn } = s

/-- The active tables but the group directory are set from an image as R187 gives: an entry as it is stored or empty, a setting
that does not decode at its factory value, and a pinning entry only when no entry before it holds its group or its cell. -/
def State.loadedFrom (t : State) (im : Image) : Prop :=
  (∀ table entry, 2 ≤ table → table ≤ 8 → table ≠ 7 → entry < tableEntries table →
    t.activeEntry table entry = im.entry table entry) ∧
  (∀ i, i < 11 → t.activeEntry 0 i = some ((im.entry 0 i).getD (.setting (Settings.factory.get i)))) ∧
  (∀ i p, i < 4 → (vget t.tst.pins none i = some p ↔ im.entry 7 i = some (.pin p) ∧
    ∀ j q, j < i → vget t.tst.pins none j = some q → q.group ≠ p.group ∧ q.cell ≠ p.cell))

/-- The REPLY frame to a deferred request (R173, R188). -/
def State.replyFrameTo (s : State) (kind : Code16) (ref : ReqRef) (code : ReplyCode) (body : ReplyBody) : Frame where
  dst     := ref.src
  src     := Config.stationAddress
  etype   := s.tst.settings.frameType
  payload := .reply ⟨Kind.reply, .plant, ref.cell, ref.handle, ref.inst, ref.step⟩ ⟨kind, ref.tag, code, body⟩

/-- The state after the operation at the front of the store work list, with the next one under way (R188). -/
def State.opEnded (s : State) : State :=
  { s with scn := { s.scn with
    work := s.scn.work.tail
    flashLeft := if s.scn.work.tail = [] then none else some 10 } }

/-- No calibration has lapsed at a floor time, of the cells on which alone a lapse acts (R52, R53). -/
def State.noLapse (s : State) (floorTime : Nat) : Prop :=
  ∀ c e, c < 48 → (s.cell c).state = .setup ∨ (s.cell c).state = .starting ∨ (s.cell c).state = .running ∨
    (s.cell c).state = .paused → (s.cell c).expiry = some e → floorTime < e

/-- The expiry of a timer of a cell as the command of its own row (R58). -/
def expiryRow (x : Fin 48 × CellTimer) : Instr :=
  match x.2 with
  | .silence => .silenceTimeout x.1
  | .load => .loadTimeout x.1
  | .kit => .kitTimeout x.1
  | .soak => .soakTimeout x.1
  | .start => .startTimeout x.1
  | .stop => .stopTimeout x.1
  | .jam => .jamTimeout x.1

/-- Commands taken one after another lead from `s` to `t`. -/
def State.runsTo (s : State) : List Instr → State → Prop
  | [], t => t = s
  | i :: rest, t => ∃ u : State, Machine.exec i s = .next u ∧ u.runsTo rest t

/-- No cell's top run is the lot's while its stop is pending (R140). -/
def State.noStopPending (s : State) (h : Nat) : Prop :=
  ∀ c, c < 48 → (s.cell c).stack.head?.map Run.handle = some h → (s.cell c).state ≠ .stopping

/-- A slot freed and the use count of its lot's route decreased (R10). -/
def State.slotFreed (s : State) (h : Nat) (l : Lot) : State :=
  { s with ldr := {
    slots := vmod s.ldr.slots h fun x => ⟨if x.inst = 255 then 1 else x.inst + 1, none⟩
    useCount := vmod s.ldr.useCount l.route fun n => n - 1 } }

end Sys2Proof.Machine
end

