-- ==== Sys2Proof/WellFormed.lean ====
section
/-! DEFINITION. Which commands stand for an event of their own row: a frame command carries a frame that the
classifier hands to that row (R163 to R167), within the lengths of R202. A command that is not well formed still
has a meaning: the one the classifier gives its frame. -/

namespace Sys2Proof

open Sys2Proof.Machine

/-- The longest body a frame carries (R202). -/
def maxBody : Nat := 1490

/-- The body is no longer than a frame holds (R202). -/
def Msg.fits (m : Msg) : Bool := m.body.length ≤ maxBody

/-- The body byte at an offset, absent when the body ends before it. -/
def Msg.byteAt (m : Msg) (i : Nat) : Option Nat := (m.body[i]?).map BitVec.toNat

/-- A message of a cell: it arrives on the floor port, where the destination is not examined (R165). -/
def Msg.fromCell (m : Msg) : Bool := m.fits

/-- A management request: it arrives on the plant port addressed to PART (R167). -/
def Msg.toPart (m : Msg) : Bool := m.fits && m.dest == .part

/-- A request whose selector byte, at an offset, is the row's own. -/
def Msg.selects (m : Msg) (i v : Nat) : Bool := m.toPart && m.byteAt i == some v

/-- A request whose selector byte names none of the other rows of its kind: the first row of a kind also stands
for its bodies with an absent or unknown selector, which are answered MALFORMED. -/
def Msg.selectsNone (m : Msg) (i : Nat) (others : List Nat) : Bool :=
  m.toPart && !((m.byteAt i).any fun v => others.contains v)

/-- The command is an event of its row. -/
def Instr.wellFormed : Instr → Bool
  | .hardReset => true
  | .resetRelease => true
  | .imageLoadComplete => true
  | .flashTimeout => true
  | .secondEvent _ => true
  | .silenceTimeout _ => true
  | .loadTimeout _ => true
  | .kitTimeout _ => true
  | .soakTimeout _ => true
  | .startTimeout _ => true
  | .stopTimeout _ => true
  | .jamTimeout _ => true
  | .inhibitChange _ => true
  | .portLinkChange _ _ => true
  | .queueSend _ => true
  | .foreignFrame _ _ => true
  | .headerUnreadable _ f => !headerReadable f.data
  | .floorForwardOnly kind m => m.fits && !isCellKind kind
  | .plantFrameToCell _ m => m.fits && m.dest == .cell
  | .plantFrameToPlant _ m => m.fits && m.dest == .plant
  | .nonRequestToPart kind m => m.toPart && !isRequestKind kind
  | .status m => m.fromCell
  | .loadDone m => m.fromCell
  | .runStarted m => m.fromCell
  | .passEnd m => m.fromCell
  | .runStopped m => m.fromCell
  | .bin m => m.fromCell
  | .binCompact m => m.fromCell
  | .lotOrder m => m.toPart
  | .sweep m => m.toPart
  | .tableWriteActive m => m.selectsNone 2 [1]
  | .tableWriteStored m => m.selects 2 1
  | .storePhaseEnd => true
  | .storedWriteComplete _ => true
  | .tableReadActive m => m.selectsNone 2 [1]
  | .tableReadStored m => m.selects 2 1
  | .storedReadComplete => true
  | .hold m => m.toPart
  | .releaseContinue m => m.selectsNone 3 [1, 2]
  | .releaseRework m => m.selects 3 1
  | .releaseScrap m => m.selects 3 2
  | .groupHold m => m.toPart
  | .groupRelease m => m.toPart
  | .groupRetire m => m.toPart
  | .shipConfirm m => m.toPart
  | .queryLot m => m.selectsNone 2 [1, 2, 3, 4, 5]
  | .queryCell m => m.selects 2 1
  | .queryQueue m => m.selects 2 2
  | .queryShip m => m.selects 2 3
  | .queryCounters m => m.selects 2 4
  | .queryPart m => m.selects 2 5
  | .time m => m.toPart
  | .restart m => m.toPart
  | .imageRereadComplete => true

/-- The management request a row stands for, with its kind (R164, R172). -/
def Instr.request? : Instr → Option (Code16 × Msg)
  | .lotOrder m => some (Kind.lotOrder, m)
  | .sweep m => some (Kind.sweep, m)
  | .tableWriteActive m => some (Kind.tableWrite, m)
  | .tableWriteStored m => some (Kind.tableWrite, m)
  | .tableReadActive m => some (Kind.tableRead, m)
  | .tableReadStored m => some (Kind.tableRead, m)
  | .hold m => some (Kind.hold, m)
  | .releaseContinue m => some (Kind.release, m)
  | .releaseRework m => some (Kind.release, m)
  | .releaseScrap m => some (Kind.release, m)
  | .groupHold m => some (Kind.groupHold, m)
  | .groupRelease m => some (Kind.groupRelease, m)
  | .groupRetire m => some (Kind.groupRetire, m)
  | .shipConfirm m => some (Kind.shipConfirm, m)
  | .queryLot m => some (Kind.query, m)
  | .queryCell m => some (Kind.query, m)
  | .queryQueue m => some (Kind.query, m)
  | .queryShip m => some (Kind.query, m)
  | .queryCounters m => some (Kind.query, m)
  | .queryPart m => some (Kind.query, m)
  | .time m => some (Kind.time, m)
  | .restart m => some (Kind.restart, m)
  | .hardReset | .resetRelease | .imageLoadComplete | .flashTimeout | .storePhaseEnd | .storedReadComplete
  | .imageRereadComplete => none
  | .secondEvent _ | .silenceTimeout _ | .loadTimeout _ | .kitTimeout _ | .soakTimeout _ | .startTimeout _ | .stopTimeout _
  | .jamTimeout _ | .inhibitChange _ | .queueSend _ | .storedWriteComplete _ => none
  | .portLinkChange _ _ | .foreignFrame _ _ | .headerUnreadable _ _ => none
  | .floorForwardOnly _ _ | .plantFrameToCell _ _ | .plantFrameToPlant _ _ | .nonRequestToPart _ _ => none
  | .status _ | .loadDone _ | .runStarted _ | .passEnd _ | .runStopped _ | .bin _ | .binCompact _ => none

/-- The cell message a row stands for, with its kind (R164, R165). -/
def Instr.cellMsg? : Instr → Option (Code16 × Msg)
  | .status m => some (Kind.status, m)
  | .loadDone m => some (Kind.loadDone, m)
  | .runStarted m => some (Kind.runStarted, m)
  | .passEnd m => some (Kind.passEnd, m)
  | .runStopped m => some (Kind.runStopped, m)
  | .bin m => some (Kind.bin, m)
  | .binCompact m => some (Kind.binCompact, m)
  | .hardReset | .resetRelease | .imageLoadComplete | .flashTimeout | .storePhaseEnd | .storedReadComplete
  | .imageRereadComplete => none
  | .secondEvent _ | .silenceTimeout _ | .loadTimeout _ | .kitTimeout _ | .soakTimeout _ | .startTimeout _ | .stopTimeout _
  | .jamTimeout _ | .inhibitChange _ | .queueSend _ | .storedWriteComplete _ => none
  | .portLinkChange _ _ | .foreignFrame _ _ | .headerUnreadable _ _ => none
  | .floorForwardOnly _ _ | .plantFrameToCell _ _ | .plantFrameToPlant _ _ | .nonRequestToPart _ _ => none
  | .lotOrder _ | .sweep _ | .tableWriteActive _ | .tableWriteStored _ | .tableReadActive _ | .tableReadStored _ | .hold _
  | .releaseContinue _ | .releaseRework _ | .releaseScrap _ | .groupHold _ | .groupRelease _ | .groupRetire _ | .shipConfirm _
  | .queryLot _ | .queryCell _ | .queryQueue _ | .queryShip _ | .queryCounters _ | .queryPart _ | .time _ | .restart _ => none

/-- The message of a row whose frame is opened and read. -/
def Instr.message? (i : Instr) : Option Msg :=
  match i with
  | .floorForwardOnly _ m => some m
  | .plantFrameToCell _ m => some m
  | .plantFrameToPlant _ m => some m
  | .nonRequestToPart _ m => some m
  | i => (i.request?.or i.cellMsg?).map Prod.snd

end Sys2Proof
end

