-- ==== Sys2Proof/Certificates/Slice0/Obligations.lean ====
section
/-! DEFINITION. The statements for the provers, in the order of OBLIGATIONS.json: the whole machine and its
invariants, the ports and the classifier, cell messages and runs, the yield guard, timers and time, lots, holds and
release, tables, the stored image and the resets. -/

open Sys2Proof Sys2Proof.Machine

/-! ### The whole machine -/

/-- A step takes the command at the front of the queue: it is that command's effect on the state with the rest of
the queue. -/
def Obligations.StepTakesFrontCommand : Prop :=
  ∀ (i : Instr) (rest : List Instr) (s : State),
    Machine.step { s with pending := i :: rest } = Machine.exec i { s with pending := rest }

/-- Every command has a next state in every state: none faults and none is refused. -/
def Obligations.EveryCommandIsTaken : Prop := ∀ (i : Instr) (s : State), ∃ t, Machine.exec i s = .next t

/-- The state after reset has every invariant stated below. -/
def Obligations.ResetMeetsInvariants : Prop :=
  State.reset.Fits ∧ State.reset.CellsFit ∧ State.reset.ListsOrdered ∧ State.reset.useCountsFit ∧ State.reset.passTaken

/-- Both forwarding queues hold at most 256 frames (R170), the notice sequence stays in 0 to 65,535 (R181), every slot's
number in 1 to 255 (R9), the ship queue holds at most 64 records (R156), the store work list at most 8 reads and one
write after them (R188), and READY is high exactly in NORMAL (R185): every step keeps this. -/
def Obligations.StepKeepsCapacities : Prop := ∀ s t : State, s.Fits → Machine.step s = .next t → t.Fits

/-- Each cell is in one of the eight states with the runs (R39), cause, stop reason, items and timers (R38, R58) that
the state allows: every step keeps this. -/
def Obligations.StepKeepsCellsFit : Prop := ∀ s t : State, s.CellsFit → Machine.step s = .next t → t.CellsFit

/-- The dispatch queue stands in class, arrival and handle order (R60), the ship queue in release time and handle order
(R156), the release-pending set in completion time and handle order (R153): every step keeps this. -/
def Obligations.StepKeepsListsOrdered : Prop :=
  ∀ s t : State, s.ListsOrdered → Machine.step s = .next t → t.ListsOrdered

/-- The use count of each route entry equals the number of live lots whose route field names it (R15): every step keeps
this. -/
def Obligations.StepKeepsUseCounts : Prop := ∀ s t : State, s.useCountsFit → Machine.step s = .next t → t.useCountsFit

/-- No dispatch pass is left over after a step: the model's own reading of R67, log entry 10. -/
def Obligations.StepTakesEveryPass : Prop := ∀ s t : State, s.passTaken → Machine.step s = .next t → t.passTaken

/-- The header and body of a frame that the part forwards are read back from its bytes as they were: kind,
destination, cell, handle, number, step, body and padding (R164, R202). -/
def Obligations.ForwardedFrameReadsBack : Prop :=
  ∀ (s : State) (kind : Code16) (m : Msg), m.body.length ≤ maxBody →
    headerReadable (forwardedFrame s kind m m.body).wire.data = true ∧
    kindOf (forwardedFrame s kind m m.body).wire = kind ∧ msgOf (forwardedFrame s kind m m.body).wire = m

/-- Whatever contents a TABLE_WRITE is accepted with, the area they are programmed in decodes to the same contents: for
every table and entry, no field is lost in the stored image (R174, R183, R187, R203). -/
def Obligations.StoredContentsReadBack : Prop :=
  ∀ (table entry : Nat) (empty : Bool) (bytes : List Byte) (e : Option Entry) (note : WriteNote),
    readEntry table entry empty bytes = .ok e note → decodeArea table entry (areaBytes entry e) = some e

/-! ### The ports and the classifier -/

/-- A port's link is as the outside makes it; nothing else changes (R170). -/
def Obligations.LinkChangeSetsTheLink : Prop :=
  ∀ (up : Bool) (s : State),
    Machine.exec (.portLinkChange .floor up) s = .next { s with pcl := { s.pcl with floorLink := up } } ∧
    Machine.exec (.portLinkChange .plant up) s = .next { s with pcl := { s.pcl with plantLink := up } }

/-- A port whose link is up sends its oldest frame, unaltered, and the others keep their order; while the link is down
nothing leaves the queue (R170). -/
def Obligations.QueueSendsOldestFrame : Prop :=
  ∀ (s : State) (f : Frame) (rest : List Frame), s.tbs.resetIn = false →
    (s.pcl.floorQ = f :: rest →
      Machine.exec (.queueSend .floor) s = .next (if s.pcl.floorLink then
        { s with pcl := { s.pcl with floorQ := rest, floorOut := some f.wire } } else s)) ∧
    (s.pcl.plantQ = f :: rest →
      Machine.exec (.queueSend .plant) s = .next (if s.pcl.plantLink then
        { s with pcl := { s.pcl with plantQ := rest, plantOut := some f.wire } } else s))

/-- A foreign frame goes unchanged, with the addresses it arrived with, into the queue toward the other port, in every
mode (R163). -/
def Obligations.ForeignFramePassesThrough : Prop :=
  ∀ (f : RawFrame) (s : State), s.tbs.resetIn = false → s.passTaken → f.etype ≠ s.tst.settings.frameType →
    (s.plantRoom 1 → Machine.exec (.foreignFrame .floor f) s =
      .next (s.sendsPlant [⟨f.dst, f.src, f.etype, .foreign f.data⟩])) ∧
    (s.floorRoom 1 → Machine.exec (.foreignFrame .plant f) s =
      .next (s.sendsFloor [⟨f.dst, f.src, f.etype, .foreign f.data⟩]))

/-- A frame that is to join a full queue is dropped: the queue stands, its drop count rises by 1, and the counters take a
PORT_DROP event with the port as value, which changes no state but the counters (R170). -/
def Obligations.FullQueueDropsFrame : Prop :=
  ∀ (s : State) (f : Frame),
    (s.pcl.floorQ.length = queueCapacity →
      (s.enqueue .floor f).pcl = { s.pcl with floorDrops := min 4294967295 (s.pcl.floorDrops + 1) } ∧
      (∀ c cfg, c < 8 → vget s.tst.counters none c = some cfg → vget (s.enqueue .floor f).fcn.values 0 c =
        if cfg.source = .event .portDrop ∧ meets cfg 0 then min 4294967295 (vget s.fcn.values 0 c + 1)
        else vget s.fcn.values 0 c) ∧
      { s.enqueue .floor f with pcl := s.pcl, fcn := s.fcn } = s) ∧
    (s.pcl.plantQ.length = queueCapacity →
      (s.enqueue .plant f).pcl = { s.pcl with plantDrops := min 4294967295 (s.pcl.plantDrops + 1) } ∧
      (∀ c cfg, c < 8 → vget s.tst.counters none c = some cfg → vget (s.enqueue .plant f).fcn.values 0 c =
        if cfg.source = .event .portDrop ∧ meets cfg 1 then min 4294967295 (vget s.fcn.values 0 c + 1)
        else vget s.fcn.values 0 c) ∧
      { s.enqueue .plant f with pcl := s.pcl, fcn := s.fcn } = s)

/-- A floor frame with an unreadable header is dropped: not forwarded, not taken, and the malformed-header count of its
port rises by 1; nothing else changes (R164). -/
def Obligations.UnreadableHeaderIsDropped : Prop :=
  ∀ (f : RawFrame) (s : State), s.tbs.resetIn = false → s.passTaken → f.etype = s.tst.settings.frameType →
    headerReadable f.data = false →
    Machine.exec (.headerUnreadable .floor f) s =
      .next { s with pcl := { s.pcl with floorMalformed := min 4294967295 (s.pcl.floorMalformed + 1) } } ∧
    Machine.exec (.headerUnreadable .plant f) s =
      .next { s with pcl := { s.pcl with plantMalformed := min 4294967295 (s.pcl.plantMalformed + 1) } }

/-- An open kind on the floor port is forwarded unchanged to the plant port; an order, request or part kind too, and the
not-taken count rises by 1; in STARTING no count is made (R165). -/
def Obligations.FloorForwardsWhatItDoesNotTake : Prop :=
  ∀ (kind : Code16) (m : Msg) (s : State), s.tbs.resetIn = false → s.passTaken → isCellKind kind = false → s.plantRoom 1 →
    Machine.exec (.floorForwardOnly kind m) s =
      .next (if (isOrderKind kind || isRequestKind kind || isPartKind kind) = true ∧ s.tbs.mode ≠ .starting then
          ({ s with pcl := { s.pcl with floorNotTaken := min 4294967295 (s.pcl.floorNotTaken + 1) } } : State).sendsPlant
            [forwardedFrame s kind m m.body]
        else s.sendsPlant [forwardedFrame s kind m m.body])

/-- In STARTING every cell message is forwarded unchanged to the plant port, bin records included, and taken by nobody:
nothing else changes (R165). -/
def Obligations.StartingForwardsCellMessages : Prop :=
  ∀ (i : Instr) (kind : Code16) (m : Msg) (s : State), i.cellMsg? = some (kind, m) → s.tbs.resetIn = false →
    s.tbs.mode = .starting → s.passTaken → s.plantRoom 1 →
    Machine.exec i s = .next (s.sendsPlant [forwardedFrame s kind m m.body])

/-- In STARTING a request is dropped without check and without REPLY, and the start-up drop count rises by 1; in NORMAL
and SAFE one that fails the management check is dropped without REPLY and without notice, and the NOT_MANAGER count rises
by 1 (R167, R168). -/
def Obligations.RequestsThatNobodyTakes : Prop :=
  ∀ (i : Instr) (kind : Code16) (m : Msg) (s : State), i.request? = some (kind, m) → s.tbs.resetIn = false → s.passTaken →
    (s.tbs.mode = .starting → Machine.exec i s =
      .next { s with pcl := { s.pcl with startupDrops := min 4294967295 (s.pcl.startupDrops + 1) } }) ∧
    (s.tbs.mode ≠ .starting → s.tst.settings.mgmtAddr ≠ 0 → m.src ≠ s.tst.settings.mgmtAddr → Machine.exec i s =
      .next { s with pcl := { s.pcl with notManager := min 4294967295 (s.pcl.notManager + 1) } })

/-- A frame addressed to a cell from the plant port is forwarded unchanged to the floor port, whatever its cell number; one of the
six order kinds is blocked and counted in every mode. In NORMAL and SAFE an INTERLOCK notice takes the next sequence number: it is
queued, or discarded and counted while the management address is zero or the plant link is down, or dropped at a full plant
queue (R167, R169, R170, R181). That the discard count stops at 4,294,967,295 is the model's own choice, log entry 13: R181 gives
it no width. -/
def Obligations.InterlockBlocksOrders : Prop :=
  ∀ (kind : Code16) (m : Msg) (s : State), s.tbs.resetIn = false → s.passTaken → m.dest = .cell →
    let interlock := min 4294967295 (s.pcl.interlock + 1)
    let noticeSeq := (s.pcl.noticeSeq + 1) % 65536
    (isOrderKind kind = false → s.floorRoom 1 →
      Machine.exec (.plantFrameToCell kind m) s = .next (s.sendsFloor [forwardedFrame s kind m m.body])) ∧
    (isOrderKind kind = true → s.tbs.mode = .starting →
      Machine.exec (.plantFrameToCell kind m) s = .next { s with pcl := { s.pcl with interlock := interlock } }) ∧
    (isOrderKind kind = true → s.tbs.mode ≠ .starting → s.noticesGo → s.plantRoom 1 →
      Machine.exec (.plantFrameToCell kind m) s =
        .next (({ s with pcl := { s.pcl with interlock := interlock } } : State).notifies
          (.interlock kind m.cell.toNat m.handle.toNat m.inst.toNat m.step.toNat m.src))) ∧
    (isOrderKind kind = true → s.tbs.mode ≠ .starting → ¬s.noticesGo →
      Machine.exec (.plantFrameToCell kind m) s = .next { s with pcl := { s.pcl with
        interlock := interlock, noticeSeq := noticeSeq, discards := min 4294967295 (s.pcl.discards + 1) } }) ∧
    (isOrderKind kind = true → s.tbs.mode ≠ .starting → s.noticesGo → ¬s.plantRoom 1 →
      Machine.exec (.plantFrameToCell kind m) s = .next (({ s with pcl := { s.pcl with
        interlock := interlock
        noticeSeq := noticeSeq
        plantDrops := min 4294967295 (s.pcl.plantDrops + 1) } } : State).event .portDrop 1))

/-- In NORMAL and SAFE a frame addressed to PLANT on the plant port is dropped and the misdirected count rises by 1; nothing
else changes (R167). -/
def Obligations.FrameToPlantIsMisdirected : Prop :=
  ∀ (kind : Code16) (m : Msg) (s : State), s.takes → s.passTaken → m.dest = .plant →
    Machine.exec (.plantFrameToPlant kind m) s =
      .next { s with pcl := { s.pcl with misdirected := min 4294967295 (s.pcl.misdirected + 1) } }

/-- A frame addressed to PART whose kind is no request kind is answered MALFORMED with its kind and tag carried back;
a request too short to carry its tag is answered MALFORMED with tag 0 (R172). -/
def Obligations.UnreadableRequestIsMalformed : Prop :=
  (∀ (kind : Code16) (m : Msg) (tag : Nat) (rest : List Byte) (s : State), s.accepts m tag rest → s.passTaken →
    s.plantRoom 1 → m.dest = .part → isRequestKind kind = false →
    Machine.exec (.nonRequestToPart kind m) s = .next (s.answers kind m tag .malformed .empty)) ∧
  (∀ (i : Instr) (kind : Code16) (m : Msg) (s : State), i.request? = some (kind, m) → s.takes →
    (s.tst.settings.mgmtAddr = 0 ∨ m.src = s.tst.settings.mgmtAddr) → s.passTaken → s.plantRoom 1 → readTag m.body = none →
    Machine.exec i s = .next (s.answers kind m 0 .malformed .empty))

/-! ### Figures and judgements -/

/-- A soft bin takes the hard bin and class of the first range that holds it, whatever stands after that range; held by no
range it takes hard bin 15 and FAIL, and is unmapped (R26). -/
def Obligations.SoftBinTakesFirstRange : Prop :=
  (∀ (l after : List BinRange) (r : BinRange) (soft : Nat), (∀ q ∈ l, ¬q.holds soft) → r.holds soft →
    mapBin (l ++ r :: after) soft = ⟨r.hard, r.cls, false⟩) ∧
  (∀ (l : List BinRange) (soft : Nat), (∀ q ∈ l, ¬q.holds soft) → mapBin l soft = ⟨15, .fail, true⟩)

/-- A yield in permille is rounded half up, lies in 0 to 1000 when good does not exceed tested, and is absent when nothing
was tested (R124); an estimate is 0 for no units, and otherwise the seconds, rounded up, of the least number of touchdowns
that holds the units (R65). -/
def Obligations.YieldAndEstimateAreRounded : Prop :=
  (∀ good, yieldPermille good 0 = none) ∧
  (∀ good tested, 0 < tested → ∃ y, yieldPermille good tested = some y ∧ 2 * y * tested ≤ 2000 * good + tested ∧
    2000 * good + tested < 2 * (y + 1) * tested ∧ (good ≤ tested → y ≤ 1000)) ∧
  (∀ e t, estimate 0 e t = 0) ∧
  (∀ units e t, 0 < units → 0 < e → ∃ touchdowns, units ≤ touchdowns * e ∧ (touchdowns - 1) * e < units ∧
    touchdowns * t ≤ 1000 * estimate units e t ∧ 1000 * estimate units e t < touchdowns * t + 1000)

/-- The score of a pair: 1,000 less 400 for another program, 300 for another kit, 100 for another temperature and 20 for
each site that is not enabled, never below 0 (R66). -/
def Obligations.ScoreCountsMismatches : Prop :=
  ∀ (x : Cell) (sites : Nat) (v : ProgVals) (kit : Nat) (t : Temp) (load other soak : Nat),
    ((load = 400 ∧ ¬∃ w, x.loaded = some w ∧ w.number = v.number ∧ w.rev = v.rev) ∨
      (load = 0 ∧ ∃ w, x.loaded = some w ∧ w.number = v.number ∧ w.rev = v.rev)) →
    ((other = 300 ∧ x.kit ≠ some kit) ∨ (other = 0 ∧ x.kit = some kit)) →
    ((soak = 100 ∧ ¬(x.setpoint = some t ∧ x.atSetpoint = true)) ∨ (soak = 0 ∧ x.setpoint = some t ∧ x.atSetpoint = true)) →
    scoreOf x sites v kit t = 1000 - (load + other + soak + 20 * (sites - maskCount x.enabled)) ∧ scoreOf x sites v kit t ≤ 1000

/-- What an entry into SETUP and the judgements of its items do, for every cell and run (R52, R70, R71, R74). A run that the
enabled sites cannot carry, no run below it being of its lot (R3), is removed as a detached one, and the cell goes on; then the
lapse is judged. An item is pending when its mismatch holds, LOAD also while an order of an earlier setup stands at the entry; its
order is sent, LOAD_PROGRAM only when none stands, and its timer starts. With no item pending they are judged once more, and then
START_RUN is sent with the pass, the enabled sites and the units left (the enabled site count of R54 is the number of the sites:
log entry 48). -/
def Sys2Proof.Claims.setupJudged : Prop :=
  (∀ (s : State) (c : Nat) (r : Run) (below : List Run), c < 48 → (s.cell c).stack = r :: below → s.carries c r →
    s.enterSetup c = s.setsUp c r) ∧
  (∀ (s : State) (c : Nat) (r : Run) (below : List Run), c < 48 → (s.cell c).stack = r :: below →
    let entered := s.entersSetup c r
    let sites := (s.profileOf (s.runStep r)).minSites
    (sites ≤ maskCount (s.cell c).enabled → ¬s.carries c r → s.enterSetup c = entered.judgeLapse c) ∧
    (∀ l, maskCount (s.cell c).enabled < sites → r.stopped = none → s.lot? r.handle = some l →
      (∀ q ∈ below, q.handle ≠ r.handle) →
      (r.segOpen = true → l.segments.length < 4) → ∃ v : State, s.sentBack v r (l.closedBy r .detached) ∧
        v.cell c = { entered.cell c with stack := below, ctx := none } ∧ s.sameOtherCells v c ∧ s.sameBase v ∧ v.pcl = s.pcl ∧
        v.fcn = s.fcn ∧ (below = [] → s.enterSetup c = v.cellGoesOn c) ∧
        (∀ low, below = [low] → s.enterSetup c = v.enterSetup c))) ∧
  (∀ (s : State) (c : Nat) (r : Run) (reg : Registration) (standing load kit soak : Bool), c < 48 → s.reg? c = some reg →
    s.floorRoom 3 →
    let x := s.runStep r
    let v := (s.programOf x).vals
    let y := s.cell c
    (load = true ↔ (standing = true ∧ y.order ≠ none) ∨
      (y.order = none ∧ ¬∃ w, y.loaded = some w ∧ w.number = v.number ∧ w.rev = v.rev)) →
    (kit = true ↔ y.kit ≠ some x.kit) → (soak = true ↔ ¬(y.setpoint = some x.temp ∧ y.atSetpoint = true)) →
    let sends := load && y.order.isNone
    s.judgeItems c r standing = (s.modCell c fun y => { y with
      items := ⟨y.items.load || load, y.items.kit || kit, y.items.soak || soak⟩
      timers := { y.timers with
        load := if load then some s.tst.settings.load else y.timers.load
        kit := if kit then some s.tst.settings.kit else y.timers.kit
        soak := if soak then some s.tst.settings.soak else y.timers.soak }
      order := if sends then some v else y.order
      orderCurrent := sends || y.orderCurrent }).sendsFloor
      ((if sends then [s.orderFrame reg c (some r) (.loadProgram v)] else []) ++
        (if kit then [s.orderFrame reg c (some r) (.kitCall x.kit)] else []) ++
        (if soak then [s.orderFrame reg c (some r) (.soak x.temp)] else []))) ∧
  (∀ (s : State) (c : Nat) (r : Run) (below : List Run) (reg : Registration) (l : Lot), c < 48 → s.reg? c = some reg →
    (s.cell c).stack = r :: below → s.lot? r.handle = some l →
    ((s.cell c).items ≠ Items.none → s.checkSetup c = s) ∧
    ((s.cell c).items = Items.none → let u := s.judgeItems c r false
      ((u.cell c).items ≠ Items.none → s.checkSetup c = u) ∧
      ((u.cell c).items = Items.none → s.floorRoom 1 →
        s.checkSetup c = s.startsRun reg c r (l.acc.remaining r.pass))))

/-- A pass barred by the inhibit line, by SAFE or by an unset floor time leaves everything as it is; any other walks the dispatch
queue in its order (R67, R68). Each member is paired with its eligible cell of the highest score, the lowest number among equals,
not used before in the walk; a class-0 lot without one preempts the victim of the highest class, then score (R64, R68, R78). A
paired lot leaves the queue ASSIGNED as the top run of its cell, which goes into SETUP, and PAIRED is counted with the score (R69,
R197): the items whose mismatch holds become pending, with their orders and timers, and with none START_RUN is sent (R70, R71,
R74). A preempting lot becomes the incoming run of its victim, whose stop is requested (R79). That a step's passes are taken as
one, and that START_RUN carries the sites without a count field, are the model's own choices, log entries 10 and 48. -/
def Obligations.DispatchPassPairs : Prop :=
  Sys2Proof.Claims.setupJudged ∧
  (∀ s : State, s.dar.passDue = true →
    (s.tbs.inhibited = true ∨ s.tbs.mode = .safe ∨ s.tbs.floorTime = none →
      s.settle = { s with dar := { s.dar with passDue := false } }) ∧
    (s.tbs.inhibited = false → s.tbs.mode ≠ .safe → s.tbs.floorTime ≠ none →
      let walked := (s.dar.queue.foldl (fun x m => x.1.walkMember x.2 m) (s, [])).1
      s.settle = { walked with dar := { walked.dar with passDue := false } })) ∧
  (∀ (ok : Nat → Bool) (key : Nat → Nat),
    (∀ c, bestCell ok key = some c ↔
      c < 48 ∧ ok c = true ∧ ∀ d, d < 48 → ok d = true → key d < key c ∨ (key d = key c ∧ c ≤ d)) ∧
    (bestCell ok key = none ↔ ∀ d, d < 48 → ok d = false)) ∧
  (∀ (s : State) (h c : Nat) (l : Lot),
    let step := s.lotStep l
    let g := groupOf h
    (s.eligible h l c = true ↔ (s.cell c).state = .idle ∧ (s.cell c).order = none ∧ s.pairOk h l c = true) ∧
    (s.isVictim h l c = true ↔ ((s.cell c).state = .running ∨ (s.cell c).state = .paused) ∧ (s.cell c).stack.length = 1 ∧
      (s.topClass c = 2 ∨ s.topClass c = 3) ∧ s.pairOk h l c = true) ∧
    (s.pairOk h l c = true ↔ ∃ reg now e, s.reg? c = some reg ∧ s.tbs.floorTime = some now ∧ (s.cell c).expiry = some e ∧
      (s.group g).authority.getLsbD c = true ∧
      (∀ p ∈ s.pinList, (p.group = g → p.cell = c) ∧ (p.cell = c → p.exclusive = true → p.group = g)) ∧
      (s.programOf step).caps &&& reg.caps = (s.programOf step).caps ∧ reg.temps.getLsbD step.temp.code = true ∧
      (s.profileOf step).minSites ≤ maskCount (s.cell c).enabled ∧ now < e ∧
      estimate (l.acc.remaining l.pass) (maskCount (s.cell c).enabled) (s.programOf step).indexTime +
        s.tst.settings.calMargin ≤ e - now)) ∧
  (∀ (s : State) (used : List Nat) (m : Member) (l : Lot), s.lot? m.handle = some l →
    let free (ok : Nat → Bool) (c : Nat) : Prop := c < 48 ∧ c ∉ used ∧ ok c = true
    let pairs := free (s.eligible m.handle l)
    let victims := free (s.isVictim m.handle l)
    (∀ c, pairs c → (∀ d, pairs d → s.score l d < s.score l c ∨ (s.score l d = s.score l c ∧ c ≤ d)) →
      s.walkMember used m = (s.pair m.handle l c, c :: used)) ∧
    ((∀ c, ¬pairs c) → l.cls = 0 → ∀ c, victims c →
      (∀ d, victims d → s.topClass d < s.topClass c ∨ (s.topClass d = s.topClass c ∧
        (s.score l d < s.score l c ∨ (s.score l d = s.score l c ∧ c ≤ d)))) →
      s.walkMember used m = (s.preempt m.handle l c, c :: used)) ∧
    ((∀ c, ¬pairs c) → l.cls ≠ 0 ∨ (∀ c, ¬victims c) → s.walkMember used m = (s, used))) ∧
  (∀ (s : State) (h c : Nat) (l : Lot), c < 48 → s.lot? h = some l → s.eligible h l c = true → (s.cell c).stack = [] →
    let r : Run := ⟨h, (s.slot h).inst, l.step, l.pass, false, false, none⟩
    let taken : State := { s with dar := { s.dar with queue := s.dar.queue.filter fun x => x.handle != h } }
    s.pair h l c = (((taken.setLot h { l with state := .assigned }).modCell c fun x => { x with
        stack := [r], ctx := none }).setsUp c r).event .paired (scoreOf (s.cell c) (s.siteCount c)
          (s.programOf (s.lotStep l)).vals (s.lotStep l).kit (s.lotStep l).temp) ∧
    ((s.pair h l c).cell c).prepares r [] ∧
    (s.pair h l c).slot h = ⟨(s.slot h).inst, some { l with state := .assigned }⟩ ∧ s.sameOtherLots (s.pair h l c) h ∧
    s.sameOtherCells (s.pair h l c) c ∧ s.sameBase (s.pair h l c) ∧ (s.pair h l c).rlu = s.rlu ∧
    (s.pair h l c).dar = taken.dar) ∧
  (∀ (s : State) (h c : Nat) (l : Lot) (reg : Registration) (r : Run), c < 48 → s.CellsFit → s.lot? h = some l →
    s.isVictim h l c = true → s.reg? c = some reg → (s.cell c).stack = [r] → s.floorRoom 1 →
    s.preempt h l c = (((((({ s with dar := { s.dar with queue := s.dar.queue.filter fun x => x.handle != h } } : State).setLot h
      { l with state := .assigned }).modCell c fun x => { x with
        incoming := some ⟨h, (s.slot h).inst, l.step, l.pass, false, false, none⟩ }).stopRequested reg c r
      .preempt).event .preempted (s.topClass c)).event .paired (s.score l c)))

/-- The window after a counted record is the last W classes, oldest first, and its PASS count is the number of PASS
classes in it (R112). -/
def Obligations.WindowKeepsLastClasses : Prop :=
  ∀ (a : Acc) (w : Nat) (cls : BinClass), 1 ≤ w → a.window.length ≤ w → a.winPass = a.window.count .pass →
    (pushWindow a w cls).window = (a.window ++ [cls]).drop (a.window.length + 1 - w) ∧
    (pushWindow a w cls).winPass = (pushWindow a w cls).window.count .pass ∧
    { pushWindow a w cls with window := a.window, winPass := a.winPass } = a

/-- A hold list keeps one entry for each reason: a hold of a new reason is appended, a hold of a present reason is merged
into its entry, which keeps its place, time and placed-by, counts the repeat up to 255, adds the trips, and takes a carried
note code; every other entry stands (R129, R131). -/
def Obligations.HoldListKeepsOneEntryPerReason : Prop :=
  ∀ (l : List HoldEntry) (n : NewHold) (now : Nat), (l.map HoldEntry.reason).Nodup → (∀ e ∈ l, e.repeats ≤ 255) →
    ((placeEntry l n now).map HoldEntry.reason).Nodup ∧ (∀ e ∈ placeEntry l n now, e.repeats ≤ 255) ∧
    ((∀ e ∈ l, e.reason ≠ n.reason) → placeEntry l n now = l ++ [⟨n.reason, now, n.placedBy, n.trips, 1, n.note⟩]) ∧
    (∀ (before after : List HoldEntry) (e : HoldEntry), l = before ++ e :: after → e.reason = n.reason →
      ∃ trips, placeEntry l n now =
          before ++ { e with repeats := min 255 (e.repeats + 1), trips := trips, note := n.note.or e.note } :: after ∧
        (∀ t, t ∈ trips ↔ t ∈ e.trips ∨ t ∈ n.trips) ∧ (e.trips.Nodup → trips.Nodup))

/-- An event reaches each counter whose entry names its source: with invert no it counts at or above the threshold, with
invert yes below it, and the value stops at 4,294,967,295; a counter whose entry is empty or names another source stands,
and so does everything else (R198). -/
def Obligations.EventsCountInMatchingCounters : Prop :=
  ∀ (s : State) (e : EventSource) (v i : Nat), i < 8 →
    (vget s.tst.counters none i = none → vget (s.event e v).fcn.values 0 i = vget s.fcn.values 0 i) ∧
    (∀ cfg, vget s.tst.counters none i = some cfg → cfg.source ≠ .event e →
      vget (s.event e v).fcn.values 0 i = vget s.fcn.values 0 i) ∧
    (∀ cfg, vget s.tst.counters none i = some cfg → cfg.source = .event e →
      ((cfg.invert = false ∧ cfg.threshold ≤ v) ∨ (cfg.invert = true ∧ v < cfg.threshold) →
        vget (s.event e v).fcn.values 0 i = min 4294967295 (vget s.fcn.values 0 i + 1)) ∧
      (¬((cfg.invert = false ∧ cfg.threshold ≤ v) ∨ (cfg.invert = true ∧ v < cfg.threshold)) →
        vget (s.event e v).fcn.values 0 i = vget s.fcn.values 0 i)) ∧
    (s.event e v).fcn.last = s.fcn.last ∧ { s.event e v with fcn := s.fcn } = s

/-! ### Lots -/

/-- A request naming a lot that its checks do not resolve is refused with the failure's code and changes nothing: HOLD,
RELEASE, SHIP_CONFIRM and the LOT query (R8). -/
def Obligations.UnresolvedLotIsRefused : Prop :=
  ∀ (m : Msg) (tag : Nat) (rest : List Byte) (code : ReplyCode) (s : State), s.accepts m tag rest → s.passTaken →
    s.plantRoom 1 → s.refusesLot m code →
    ((readHold rest).isSome → Machine.exec (.hold m) s = .next (s.answers Kind.hold m tag code .empty)) ∧
    ((readRelease rest).isSome →
      Machine.exec (.releaseContinue m) s = .next (s.answers Kind.release m tag code .empty) ∧
      Machine.exec (.releaseRework m) s = .next (s.answers Kind.release m tag code .empty) ∧
      Machine.exec (.releaseScrap m) s = .next (s.answers Kind.release m tag code .empty)) ∧
    (rest = [] → Machine.exec (.shipConfirm m) s = .next (s.answers Kind.shipConfirm m tag code .empty)) ∧
    ((∃ start, readQuery rest = some (.lot start)) →
      Machine.exec (.queryLot m) s = .next (s.answers Kind.query m tag code .empty))

/-- A LOT_ORDER that passes its checks takes the lowest FREE handle of its group. In an OPEN group the lot is created
WAITING in the dispatch queue and a pass is started; in a HELD group it is created HELD with a FAMILY entry, whose LOT_HELD
notice is sent. Nothing else changes (R2, R12 to R15). That LOT_HELD goes before the REPLY, and that the pass is taken after it,
are the model's own choices, log entries 42 and 10. -/
def Obligations.LotOrderCreatesLot : Prop :=
  ∀ (m : Msg) (tag h : Nat) (rest : List Byte) (b : OrderBody) (x : Route) (s : State),
    s.accepts m tag rest → readLotOrder rest = some b → s.passTaken → s.tbs.mode = .normal → b.group < 32 →
    s.route? b.route = some x →
    (∀ y ∈ x.steps, (s.program? y.program).isSome ∧ (s.binMap? y.binMap).isSome ∧ (s.profile? y.profile).isSome) →
    1 ≤ b.qty → b.qty ≤ 250000 → groupOf h = b.group → s.lot? h = none →
    (∀ k, groupOf k = b.group → k < h → (s.lot? k).isSome) →
    let used : State := { s with ldr := { s.ldr with useCount := vmod s.ldr.useCount b.route fun n => n + 1 } }
    let l := lotCreated b (x.steps.getD 0 RouteStep.none) s.now
    ((s.group b.group).state = .opened → s.plantRoom 1 →
      Machine.exec (.lotOrder m) s = .next (({ used.setLot h l with
          dar := ⟨s.queueWith h l, true⟩ } : State).answers Kind.lotOrder m tag .ok
            (.lotOrder h (s.slot h).inst (min b.cls 3))).settle) ∧
    ((s.group b.group).state = .held → (s.group b.group).retirePending = false → s.noticesGo → s.plantRoom 2 →
      Machine.exec (.lotOrder m) s = .next ((((used.setLot h { l with
          state := .held, holds := [⟨.family, s.now, .plant, [], 1, none⟩], target := some .resume }).event .holdPlaced
            5).notifies (.lotHeld ⟨h, (s.slot h).inst, b.name, b.group⟩ (s.group b.group).family
              ⟨.family, s.now, .plant, [], 1, none⟩ .held (some .resume))).answers Kind.lotOrder m tag .ok
              (.lotOrder h (s.slot h).inst (min b.cls 3))))

/-- A LOT_ORDER is checked in the order SAFE_MODE, UNKNOWN_GROUP, GROUP_RETIRED, BAD_ROUTE, BAD_QUANTITY, GROUP_FULL; the
first check that fails decides the REPLY, and a refused order changes no state but the plant-bound queue that takes the
REPLY. An order that passes them all is accepted whatever the group's authority set: a lot stands in a slot of the group
that was FREE (R12). -/
def Obligations.LotOrderIsCheckedInOrder : Prop :=
  ∀ (m : Msg) (tag : Nat) (rest : List Byte) (b : OrderBody) (s : State),
    s.accepts m tag rest → readLotOrder rest = some b → s.passTaken → s.plantRoom 1 →
    let g := s.group b.group
    let unknown := 31 < b.group ∨ g.state = .unbound
    let retired := g.state = .retired ∨ (g.state = .held ∧ g.retirePending = true)
    let badRoute := ¬∃ x, s.route? b.route = some x ∧
      ∀ y ∈ x.steps, (s.program? y.program).isSome ∧ (s.binMap? y.binMap).isSome ∧ (s.profile? y.profile).isSome
    let badQuantity := b.qty = 0 ∨ 250000 < b.qty
    let full := ∀ h, groupOf h = b.group → (s.lot? h).isSome
    let refuses (code : ReplyCode) : Prop :=
      Machine.exec (.lotOrder m) s = .next (s.answers Kind.lotOrder m tag code .empty)
    (s.tbs.mode = .safe → refuses .safeMode) ∧
    (s.tbs.mode ≠ .safe → unknown → refuses .unknownGroup) ∧
    (s.tbs.mode ≠ .safe → ¬unknown → retired → refuses .groupRetired) ∧
    (s.tbs.mode ≠ .safe → ¬unknown → ¬retired → badRoute → refuses .badRoute) ∧
    (s.tbs.mode ≠ .safe → ¬unknown → ¬retired → ¬badRoute → badQuantity → refuses .badQuantity) ∧
    (s.tbs.mode ≠ .safe → ¬unknown → ¬retired → ¬badRoute → ¬badQuantity → full → refuses .groupFull) ∧
    (s.tbs.mode ≠ .safe → ¬unknown → ¬retired → ¬badRoute → ¬badQuantity → ¬full → ∃ (h : Nat) (u : State),
      groupOf h = b.group ∧ s.lot? h = none ∧ Machine.exec (.lotOrder m) s = .next u.settle ∧ (u.lot? h).isSome)

/-- A SWEEP lists the live slots of its group whose activity mark is clear, in ascending order, with number and state, and
then clears the marks of every live slot of the group; a group that is unbound or above 31 is refused UNKNOWN_GROUP. Nothing
else changes (R17). -/
def Obligations.SweepListsAndClearsMarks : Prop :=
  ∀ (m : Msg) (tag g : Nat) (rest : List Byte) (s : State), s.accepts m tag rest → readGroupArg rest = some g →
    s.passTaken → s.plantRoom 1 →
    (31 < g ∨ (s.group g).state = .unbound →
      Machine.exec (.sweep m) s = .next (s.answers Kind.sweep m tag .unknownGroup .empty)) ∧
    (g ≤ 31 → (s.group g).state ≠ .unbound → ∃ (slots : Vector Slot 512) (list : List (Nat × Nat × LotState)),
      Machine.exec (.sweep m) s =
        .next (({ s with ldr := { s.ldr with slots := slots } } : State).answers Kind.sweep m tag .ok (.sweep list)) ∧
      (∀ h, groupOf h = g → vget slots Slot.none h =
        ⟨(s.slot h).inst, (s.lot? h).map fun l => { l with mark := false }⟩) ∧
      (∀ h, groupOf h ≠ g → vget slots Slot.none h = s.slot h) ∧
      (list.map Prod.fst).Pairwise (· < ·) ∧
      (∀ h inst st, (h, inst, st) ∈ list ↔
        groupOf h = g ∧ ∃ l, s.slot h = ⟨inst, some l⟩ ∧ l.state = st ∧ l.mark = false))

/-! ### Tables -/

/-- An ACTIVE write that passes its checks, of an entry that is not in use, replaces the whole entry: reading it gives the written
contents, and every other entry of every table, a group's state and retire pending among it, the stored image, the lots, the ship
queue and the dispatch queue stand. The REPLY is OK and goes at once, in a frame of the type in force before the write (R28, R30).
That a pass started is taken last, after the frames the command sends, is the model's own reading, log entry 10. -/
def Obligations.ActiveWriteReplacesEntry : Prop :=
  ∀ (m : Msg) (tag : Nat) (rest : List Byte) (w : WriteBody) (e : Option Entry) (note : WriteNote) (s : State),
    s.accepts m tag rest → readTableWrite rest = some w → w.target = 0 → s.writesEntry w e note → s.plantRoom 1 →
    s.inUse w.table w.entry = false →
    ∃ u : State, Machine.exec (.tableWriteActive m) s = .next u.settle ∧ u.activeEntry w.table w.entry = e ∧
      (∀ table entry, table ≤ 8 → entry < tableEntries table → ¬(table = w.table ∧ entry = w.entry) →
        u.activeEntry table entry = s.activeEntry table entry) ∧
      (∀ g, g < 32 → ¬(w.table = 1 ∧ g = w.entry) → u.group g = s.group g) ∧
      u.pcl = (s.answers Kind.tableWrite m tag .ok (.tableWrite 0 w.table w.entry note)).pcl ∧ u.pending = s.pending ∧
      u.ldr = s.ldr ∧ u.rlu = s.rlu ∧ u.scn = s.scn ∧ u.dar.queue = s.dar.queue ∧
      (w.table ≠ 6 → u.ctr = s.ctr) ∧ (w.table ≠ 8 → u.fcn = s.fcn) ∧ (¬(w.table = 0 ∧ w.entry = 10) → u.tbs = s.tbs)

/-- Beside its entry an ACTIVE write changes this: a group keeps HELD and is OPEN otherwise, with retire pending no; a
registration that changes the flag, address or site count sets its cell's record to the reset values with all its sites, and any
other leaves it; a counter is set to 0 and its record to none; a new inhibit level is judged against the input at once. A write of
an entry in use is refused IN_USE and changes nothing (R5, R28, R29, R37, R196). That a pass started is taken last, after the
frames the command sends, is the model's own reading, log entry 10. -/
def Obligations.ActiveWriteActsOnItsTable : Prop :=
  ∀ (m : Msg) (tag : Nat) (rest : List Byte) (w : WriteBody) (e : Option Entry) (note : WriteNote) (s : State),
    s.accepts m tag rest → readTableWrite rest = some w → w.target = 0 → s.writesEntry w e note → s.passTaken →
    s.plantRoom 1 →
    (s.inUse w.table w.entry = true → Machine.exec (.tableWriteActive m) s =
      .next (s.answers Kind.tableWrite m tag .inUse (.tableRef 0 w.table w.entry))) ∧
    (s.inUse w.table w.entry = false → ∃ u : State, Machine.exec (.tableWriteActive m) s = .next u.settle ∧
      (w.table = 1 → (u.group w.entry).retirePending = false ∧
        (e.isSome → (u.group w.entry).state = if (s.group w.entry).state = .held then .held else .opened)) ∧
      (w.table = 6 → (∀ c, c ≠ w.entry → u.cell c = s.cell c) ∧
        ((s.reg? w.entry).map (fun r => (r.addr, r.siteCount)) = (u.reg? w.entry).map (fun r => (r.addr, r.siteCount)) →
          u.cell w.entry = s.cell w.entry) ∧
        ((s.reg? w.entry).map (fun r => (r.addr, r.siteCount)) ≠ (u.reg? w.entry).map (fun r => (r.addr, r.siteCount)) →
          u.cell w.entry = Cell.reset (allSites (u.siteCount w.entry)))) ∧
      (w.table = 8 → vget u.fcn.values 0 w.entry = 0 ∧ vget u.fcn.last none w.entry = none ∧
        ∀ i, i ≠ w.entry → vget u.fcn.values 0 i = vget s.fcn.values 0 i ∧ vget u.fcn.last none i = vget s.fcn.last none i) ∧
      (w.table = 0 → w.entry = 10 →
        u.tbs = { s.tbs with inhibited := s.tbs.inhibitIn == u.tst.settings.inhibit }))

/-- A TABLE_READ of ACTIVE is answered with the entry as it stands, or empty, and its additions, none for a setting, a pin, a
counter, and an empty route, program, bin map or profile; a table number above 8 is refused BAD_TABLE and an entry outside its table
BAD_ENTRY, for either target. Nothing else changes (R21, R33, R175). That a group outside HELD reports the stored retire-pending
flag, which a GROUP_RELEASE has cleared, is the model's own choice, log entry 47. -/
def Obligations.TableReadAnswersEntry : Prop :=
  ∀ (m : Msg) (tag target table entry : Nat) (rest : List Byte) (s : State), s.accepts m tag rest →
    readTableRead rest = some (target, table, entry) → s.passTaken → s.plantRoom 1 →
    (8 < table →
      Machine.exec (.tableReadActive m) s = .next (s.answers Kind.tableRead m tag .badTable (.tableRef target table entry)) ∧
      Machine.exec (.tableReadStored m) s = .next (s.answers Kind.tableRead m tag .badTable (.tableRef target table entry))) ∧
    (table ≤ 8 → tableEntries table ≤ entry →
      Machine.exec (.tableReadActive m) s = .next (s.answers Kind.tableRead m tag .badEntry (.tableRef target table entry)) ∧
      Machine.exec (.tableReadStored m) s = .next (s.answers Kind.tableRead m tag .badEntry (.tableRef target table entry))) ∧
    (table ≤ 8 → entry < tableEntries table → target = 0 → ∃ note, Machine.exec (.tableReadActive m) s =
        .next (s.answers Kind.tableRead m tag .ok (.tableRead 0 table entry (s.activeEntry table entry) note)) ∧
      (table = 1 → note = .group (s.group entry).state (s.group entry).retirePending (s.inUse 1 entry)) ∧
      (table = 2 → (s.route? entry).isSome → note = .useCount (vget s.ldr.useCount 0 entry)) ∧
      (table = 3 ∨ table = 4 ∨ table = 5 → (s.activeEntry table entry).isSome → note = .inUse (s.inUse table entry)) ∧
      (table = 6 → note = .inUse (s.inUse 6 entry)) ∧
      (table = 0 ∨ table = 7 ∨ table = 8 → note = .none) ∧
      (2 ≤ table → table ≤ 5 → s.activeEntry table entry = none → note = .none))

/-! ### The store controller -/

/-- A stored read joins the work list and answers nothing yet; with 8 reads or a write in it, it is refused BUSY. The read
at the front ends with its REPLY: the entry as the image holds it, or for a setting that does not decode its factory value
with the flag; the next operation is then under way, with the flash device's 10 seconds anew (R33, R188). -/
def Obligations.StoredReadsTakeTheirTurn : Prop :=
  (∀ (m : Msg) (tag table entry : Nat) (rest : List Byte) (s : State), s.accepts m tag rest →
    readTableRead rest = some (1, table, entry) → table ≤ 8 → entry < tableEntries table → s.passTaken →
    ((∃ op ∈ s.scn.work, op.isWrite = true) ∨ 8 ≤ s.scn.work.countP (fun op => !op.isWrite) → s.plantRoom 1 →
      Machine.exec (.tableReadStored m) s = .next (s.answers Kind.tableRead m tag .busy (.tableRef 1 table entry))) ∧
    ((∀ op ∈ s.scn.work, op.isWrite = false) → s.scn.work.length < 8 →
      Machine.exec (.tableReadStored m) s = .next { s with scn := { s.scn with
        work := s.scn.work ++ [.read (reqRef m tag) table entry]
        flashLeft := if s.scn.work = [] then some 10 else s.scn.flashLeft } })) ∧
  (∀ (ref : ReqRef) (table entry : Nat) (more : List StoreOp) (s : State), s.scn.work = .read ref table entry :: more →
    s.passTaken → s.plantRoom 1 →
    let answer (e : Option Entry) (note : ReadNote) : Prop := Machine.exec .storedReadComplete s =
      .next (s.opEnded.sendsPlant [s.replyFrameTo Kind.tableRead ref .ok (.tableRead 1 table entry e note)])
    (table ≠ 0 → answer (s.scn.image.entry table entry) .none) ∧
    (table = 0 → ∀ e, s.scn.image.entry 0 entry = some e → answer (some e) (.factory false)) ∧
    (table = 0 → s.scn.image.entry 0 entry = none →
      answer (some (.setting (Settings.factory.get entry))) (.factory true)))

/-- A stored write joins the work list, or is refused BUSY behind another; phase 1 programs its entry and the format mark and
no other entry, phase 2 the check value over the image body, and at the end of phase 3 it answers OK with the check result
VALID when the comparisons agree, and otherwise STORE_FAILED with the result INVALID and the image no longer matching its
check value (R32, R188, R189). The order of the areas that the check value runs over is the model's own choice, log entry 3; that
what a failed write leaves is a free value, with the model's own fields spoiled and freeIndex, is log entries 19 and 24. -/
def Obligations.StoredWriteRunsItsPhases : Prop :=
  (∀ (m : Msg) (tag : Nat) (rest : List Byte) (w : WriteBody) (e : Option Entry) (note : WriteNote) (s : State),
    s.accepts m tag rest → readTableWrite rest = some w → w.target = 1 → s.writesEntry w e note → s.passTaken →
    ((∃ op ∈ s.scn.work, op.isWrite = true) → s.plantRoom 1 → Machine.exec (.tableWriteStored m) s =
      .next (s.answers Kind.tableWrite m tag .busy (.tableRef 1 w.table w.entry))) ∧
    ((∀ op ∈ s.scn.work, op.isWrite = false) → Machine.exec (.tableWriteStored m) s =
      .next { s with scn := { s.scn with
        work := s.scn.work ++ [.write (reqRef m tag) w.table w.entry e note 1]
        flashLeft := if s.scn.work = [] then some 10 else s.scn.flashLeft } })) ∧
  (∀ (ref : ReqRef) (table entry : Nat) (e : Option Entry) (note : WriteNote) (more : List StoreOp) (s : State),
    s.passTaken →
    (s.scn.work = .write ref table entry e note 1 :: more → ∃ im : Image, Machine.exec .storePhaseEnd s =
        .next { s with scn := { s.scn with
          image := im, work := .write ref table entry e note 2 :: more, flashLeft := some 10 } } ∧
      im.mark = .good ∧ im.check = s.scn.image.check ∧
      (table < s.scn.image.areas.length → entry < (s.scn.image.areas.getD table []).length →
        im.area table entry = areaBytes entry e) ∧
      ∀ t i, ¬(t = table ∧ i = entry) → im.area t i = s.scn.image.area t i) ∧
    (s.scn.work = .write ref table entry e note 2 :: more → Machine.exec .storePhaseEnd s =
      .next { s with scn := { s.scn with
        image := { s.scn.image with check := crc32 s.scn.image.areas.flatten.flatten, spoiled := false }
        work := .write ref table entry e note 3 :: more
        flashLeft := some 10 } }) ∧
    (s.scn.work = .write ref table entry e note 3 :: more → s.plantRoom 1 →
      Machine.exec (.storedWriteComplete true) s =
        .next (({ s.opEnded with scn := { s.opEnded.scn with check := .valid } } : State).sendsPlant
          [s.replyFrameTo Kind.tableWrite ref .ok (.tableWrite 1 table entry note)]) ∧
      ∃ im : Image, Machine.exec (.storedWriteComplete false) s =
        .next (({ s.opEnded with scn := { s.opEnded.scn with
            image := im, check := .invalid, freeIndex := s.scn.freeIndex + 1 } } : State).sendsPlant
          [s.replyFrameTo Kind.tableWrite ref .storeFailed (.tableRef 1 table entry)]) ∧
        im.spoiled = true ∧ im.mark = s.scn.image.mark ∧
        ∀ t i, ¬(t = table ∧ i = entry) → im.area t i = s.scn.image.area t i))

/-- A flash device that has not answered in its 10 seconds ends the operation under way with STORE_FAILED, a write leaving the
check result INVALID and every other entry as it was, and the next operation follows; a start-up it leaves without an image ends
in SAFE with the factory tables, and the re-read of a RESTART ends in SAFE with the tables kept, its REPLY and its notices sent
with cause NO_RESPONSE (R186, R188, R189, R192). The fields spoiled and freeIndex that a failed write changes, and the free values
they stand for, are the model's own, log entries 19 and 24. That a pass started is taken last, after the frames the command sends,
is the model's own reading, log entry 10. That PART_STARTED of a re-read carries floor time and the station address is the model's
own choice, log entry 53. -/
def Obligations.FlashTimeoutEndsOperation : Prop :=
  ∀ s : State, s.scn.flashLeft = some 0 →
    (∀ (ref : ReqRef) (table entry : Nat) (more : List StoreOp), s.scn.loading = .none → s.passTaken → s.plantRoom 1 →
      s.scn.work = .read ref table entry :: more → Machine.exec .flashTimeout s =
        .next (s.opEnded.sendsPlant [s.replyFrameTo Kind.tableRead ref .storeFailed (.tableRef 1 table entry)])) ∧
    (∀ (ref : ReqRef) (table entry phase : Nat) (e : Option Entry) (note : WriteNote) (more : List StoreOp),
      s.scn.loading = .none → s.passTaken → s.plantRoom 1 → s.scn.work = .write ref table entry e note phase :: more →
      ∃ im : Image, Machine.exec .flashTimeout s =
        .next (({ s.opEnded with scn := { s.opEnded.scn with
            image := im, check := .invalid, freeIndex := s.scn.freeIndex + 1 } } : State).sendsPlant
          [s.replyFrameTo Kind.tableWrite ref .storeFailed (.tableRef 1 table entry)]) ∧
        im.spoiled = true ∧ ∀ t i, ¬(t = table ∧ i = entry) → im.area t i = s.scn.image.area t i) ∧
    (s.scn.loading = .startUp → ∃ u : State, Machine.exec .flashTimeout s = .next u.settle ∧ u.tbs.mode = .safe ∧
      u.tbs.ready = false ∧ u.scn = { s.scn with check := .invalid, loading := .none, flashLeft := none } ∧
      u.tst = Tables.factory ∧ (∀ c, c < 48 → u.cell c = Cell.reset 0) ∧ u.ldr = s.ldr ∧ u.rlu = s.rlu ∧ u.fcn = s.fcn) ∧
    (∀ ref, s.scn.loading = .reread ref → s.plantRoom 1 → ∃ u v : State, Machine.exec .flashTimeout s = .next u.settle ∧
      u = ((v.sendsPlant [v.replyFrameTo Kind.restart ref .ok (.restart .safe)]).notice
        (.partStarted .soft .safe .invalid s.tbs.floorTime Config.stationAddress)).notice (.storedImageBad .noResponse) ∧
      v = { s with
        tbs := { s.tbs with mode := .safe, ready := false, inhibited := s.tbs.inhibitIn == s.tst.settings.inhibit }
        scn := { s.scn with check := .invalid, loading := .none, flashLeft := none }
        dar := ⟨s.dar.queue, true⟩ })

/-! ### Resets -/

/-- A hard reset frees every slot with number 1, empties every queue, count and list, clears floor time and READY, and keeps
the flash but for what an abandoned write leaves: a read or a waiting write leaves the image as it was, and phases 1 and 2
leave every other entry, with the check value no longer matching (R9, R18, R190). The release of reset puts the image load under
way in STARTING (R186). The values before the load of what the image sets (image check result INVALID, factory tables, line
released) are the model's own choice, log entry 2, as are the emptied last-sent frames (log entry 23) and what an abandoned write
leaves as free values (log entries 19 and 24). -/
def Obligations.HardResetClearsState : Prop :=
  ∀ s : State,
    (∃ (im : Image) (free : Nat), Machine.exec .hardReset s =
        .next (State.hardReset s.pending im free s.pcl.floorLink s.pcl.plantLink s.tbs.inhibitIn) ∧
      ((∀ ref table entry e note phase more, s.scn.work = .write ref table entry e note phase :: more →
          phase ≠ 1 ∧ phase ≠ 2) → im = s.scn.image) ∧
      (∀ ref table entry e note phase more, s.scn.work = .write ref table entry e note phase :: more →
        phase = 1 ∨ phase = 2 → im.spoiled = true ∧ ∀ t i, ¬(t = table ∧ i = entry) → im.area t i = s.scn.image.area t i)) ∧
    (∃ t : State, Machine.exec .hardReset s = .next t ∧ (∀ h, h < 512 → t.slot h = ⟨1, none⟩) ∧ t.dar.queue = [] ∧ t.rlu.ship = [] ∧
      t.rlu.pend = [] ∧ t.scn.work = [] ∧ t.pcl.floorQ = [] ∧ t.pcl.plantQ = [] ∧ t.pcl.noticeSeq = 0 ∧ t.tbs.ready = false ∧
      t.tbs.floorTime = none ∧ (∀ i, i < 8 → vget t.fcn.values 0 i = 0)) ∧
    (s.tbs.resetIn = true → Machine.exec .resetRelease s = .next { s with
      tbs := { s.tbs with resetIn := false, mode := .starting, ready := false }
      scn := { s.scn with loading := .startUp, flashLeft := some 10 } })

/-- Start-up from a valid image ends in NORMAL with READY high: every entry of the tables set from the image, the pinning table in
entry order, every bound group OPEN, every cell record at its reset values with the sites of its registration, and PART_STARTED
sent; from an invalid image it ends in SAFE with the factory tables. A pass is started, which finds no lot (R20, R34, R59, R186,
R187). That a pass started is taken last, after the frames the command sends, is the model's own reading, log entry 10. -/
def Obligations.StartUpSetsTables : Prop :=
  ∀ s : State, s.scn.loading = .startUp →
    (s.scn.image.fault = none → ∃ u v : State, Machine.exec .imageLoadComplete s = .next u.settle ∧
      u = v.notice (.partStarted .hard .normal .valid none Config.stationAddress) ∧
      v.loadedFrom s.scn.image ∧
      (∀ g, g < 32 → (∀ f a, s.scn.image.entry 1 g = some (.group f a) → v.group g = ⟨.opened, f, a, false⟩) ∧
        (s.scn.image.entry 1 g = none → v.group g = GroupEntry.empty)) ∧
      (∀ c, c < 48 → v.cell c = Cell.reset (allSites (v.siteCount c))) ∧
      v.tbs = { s.tbs with mode := .normal, ready := true, inhibited := s.tbs.inhibitIn == v.tst.settings.inhibit } ∧
      v.scn = { s.scn with check := .valid, loading := .none, flashLeft := none } ∧
      v.pending = s.pending ∧ v.pcl = s.pcl ∧ v.ldr = s.ldr ∧ v.rlu = s.rlu ∧ v.fcn = s.fcn ∧ v.dar = ⟨s.dar.queue, true⟩) ∧
    (∀ cause, s.scn.image.fault = some cause → ∃ u : State, Machine.exec .imageLoadComplete s = .next u.settle ∧
      u.tbs = { s.tbs with mode := .safe, ready := false, inhibited := s.tbs.inhibitIn == .high } ∧
      u.tst = Tables.factory ∧ (∀ c, c < 48 → u.cell c = Cell.reset 0) ∧
      u.scn = { s.scn with check := .invalid, loading := .none, flashLeft := none } ∧ u.ldr = s.ldr ∧ u.rlu = s.rlu ∧
      u.fcn = s.fcn ∧ u.pcl.floorQ = s.pcl.floorQ ∧ u.pcl.plantQ = s.pcl.plantQ)

/-- RESTART in NORMAL with nothing in the store work list: every slot is freed and takes the next number, the dispatch and ship
queues and the counters are emptied, every cell record is at its reset values, the tables, the image, floor time and the notice
sequence stand, and the REPLY and PART_STARTED are sent, the notice discarded and counted while notices do not go; with work in
the list RESTART is refused BUSY (R19, R181, R182, R191). That the last-sent frame of each port is kept is the model's own choice,
log entry 23. That PART_STARTED carries the station address here too is the model's own choice, log entry 53. -/
def Obligations.RestartInNormal : Prop :=
  ∀ (m : Msg) (tag : Nat) (s : State), s.accepts m tag [] → s.passTaken →
    (s.scn.work ≠ [] → s.plantRoom 1 → Machine.exec (.restart m) s = .next (s.answers Kind.restart m tag .busy .empty)) ∧
    (s.scn.work = [] → s.tbs.mode = .normal → ∃ u : State,
      let answered := u.answers Kind.restart m tag .ok (.restart .normal)
      (s.noticesGo → Machine.exec (.restart m) s =
        .next (answered.notifies (.partStarted .soft .normal s.scn.check s.tbs.floorTime Config.stationAddress))) ∧
      (¬s.noticesGo → Machine.exec (.restart m) s = .next { answered with pcl := { answered.pcl with
        noticeSeq := (s.pcl.noticeSeq + 1) % 65536, discards := 1 } }) ∧
      (∀ h, h < 512 → u.slot h = ⟨if (s.slot h).inst = 255 then 1 else (s.slot h).inst + 1, none⟩) ∧
      (∀ r, r < 16 → vget u.ldr.useCount 0 r = 0) ∧ u.dar = ⟨[], false⟩ ∧ u.rlu = ⟨[], []⟩ ∧
      (∀ c, c < 48 → u.cell c = Cell.reset (allSites (s.siteCount c))) ∧
      (∀ i, i < 8 → vget u.fcn.values 0 i = 0 ∧ vget u.fcn.last none i = none) ∧
      u.tst = s.tst ∧ u.scn = s.scn ∧ u.pending = s.pending ∧
      u.tbs = { s.tbs with inhibited := s.tbs.inhibitIn == s.tst.settings.inhibit } ∧
      u.pcl = { Pcl.reset s.pcl.floorLink s.pcl.plantLink with
        noticeSeq := s.pcl.noticeSeq, floorOut := s.pcl.floorOut, plantOut := s.pcl.plantOut })

/-- RESTART in SAFE frees the slots, empties the queues, the use counts and the counters, sets every cell record to its reset
values, and puts the image re-read under way in STARTING, with no REPLY yet. The re-read ends in NORMAL when the image is valid,
with every table set from it, a group that was bound before keeping its state and one unbound in the image UNBOUND, and with the
counters empty; and in SAFE with the tables kept when it is not valid. The REPLY then goes to the request's source (R20, R35,
R187, R192). That the last-sent frame of each port is kept, and that drops of the re-read's own frames are counted under the
configurations just set, are the model's own choices, log entries 23 and 43. That a pass started is taken last, after the frames
the command sends, is the model's own reading, log entry 10. That PART_STARTED of a re-read carries floor time and the station
address is the model's own choice, log entry 53. -/
def Obligations.RestartInSafe : Prop :=
  (∀ (m : Msg) (tag : Nat) (s : State), s.accepts m tag [] → s.scn.work = [] → s.tbs.mode = .safe → ∃ u : State,
    Machine.exec (.restart m) s = .next u ∧ u.pending = s.pending ∧ u.tst = s.tst ∧
    u.tbs = { s.tbs with mode := .starting, ready := false, inhibited := s.tbs.inhibitIn == s.tst.settings.inhibit } ∧
    u.scn = { s.scn with loading := .reread (reqRef m tag), flashLeft := some 10 } ∧
    u.pcl = { Pcl.reset s.pcl.floorLink s.pcl.plantLink with
      noticeSeq := s.pcl.noticeSeq, floorOut := s.pcl.floorOut, plantOut := s.pcl.plantOut } ∧
    (∀ h, h < 512 → u.slot h = ⟨if (s.slot h).inst = 255 then 1 else (s.slot h).inst + 1, none⟩) ∧
    (∀ r, r < 16 → vget u.ldr.useCount 0 r = 0) ∧ u.dar = ⟨[], false⟩ ∧ u.rlu = ⟨[], []⟩ ∧
    (∀ c, c < 48 → u.cell c = Cell.reset (allSites (s.siteCount c))) ∧
    (∀ i, i < 8 → vget u.fcn.values 0 i = 0 ∧ vget u.fcn.last none i = none)) ∧
  (∀ (ref : ReqRef) (s : State), s.scn.loading = .reread ref → s.plantRoom 1 →
    (s.scn.image.fault = none → ∃ u v : State, Machine.exec .imageRereadComplete s = .next u.settle ∧
      u = (v.sendsPlant [v.replyFrameTo Kind.restart ref .ok (.restart .normal)]).notice
        (.partStarted .soft .normal .valid s.tbs.floorTime Config.stationAddress) ∧
      v.loadedFrom s.scn.image ∧
      (∀ g, g < 32 → (∀ f a, s.scn.image.entry 1 g = some (.group f a) →
          ((s.group g).state = .unbound → v.group g = ⟨.opened, f, a, false⟩) ∧
          ((s.group g).state ≠ .unbound → v.group g = ⟨(s.group g).state, f, a, (s.group g).retirePending⟩)) ∧
        (s.scn.image.entry 1 g = none → v.group g = GroupEntry.empty)) ∧
      (∀ c, c < 48 → v.cell c = Cell.reset (allSites (v.siteCount c))) ∧
      (∀ i, i < 8 → vget v.fcn.values 0 i = 0 ∧ vget v.fcn.last none i = none) ∧
      v.tbs = { s.tbs with mode := .normal, ready := true, inhibited := s.tbs.inhibitIn == v.tst.settings.inhibit } ∧
      v.scn = { s.scn with check := .valid, loading := .none, flashLeft := none } ∧ v.dar = ⟨s.dar.queue, true⟩ ∧
      v.pending = s.pending ∧ v.pcl = s.pcl ∧ v.ldr = s.ldr ∧ v.rlu = s.rlu) ∧
    (∀ cause, s.scn.image.fault = some cause → ∃ u v : State, Machine.exec .imageRereadComplete s = .next u.settle ∧
      u = ((v.sendsPlant [v.replyFrameTo Kind.restart ref .ok (.restart .safe)]).notice
        (.partStarted .soft .safe .invalid s.tbs.floorTime Config.stationAddress)).notice (.storedImageBad cause) ∧
      v.tst = s.tst ∧ v.ctr = s.ctr ∧ v.fcn = s.fcn ∧
      v.tbs = { s.tbs with mode := .safe, ready := false, inhibited := s.tbs.inhibitIn == s.tst.settings.inhibit } ∧
      v.scn = { s.scn with check := .invalid, loading := .none, flashLeft := none } ∧ v.dar = ⟨s.dar.queue, true⟩ ∧
      v.pending = s.pending ∧ v.pcl = s.pcl ∧ v.ldr = s.ldr ∧ v.rlu = s.rlu))

/-! ### Time, the second event and the inhibit line -/

/-- TIME sets floor time: its first setting starts a pass, a later value takes its place, the same value leaves it, and an earlier
one is rejected and counted; the REPLY carries floor time as it then stands and whether the value was rejected. A value that moves
floor time, the first among them, has the lapse judged for every cell (R52, R53, R193): where no cell in SETUP, STARTING, RUNNING
or PAUSED has lapsed nothing else changes. That the cells are judged in ascending number, that the frames a lapse draws go before
the REPLY, and that the pass goes after it are the model's own choices, log entries 11, 42 and 10. -/
def Obligations.TimeSetsFloorTime : Prop :=
  (∀ (m : Msg) (tag v : Nat) (rest : List Byte) (s : State), s.accepts m tag rest → readTime rest = some v → s.passTaken →
    s.plantRoom 1 →
    (s.tbs.floorTime = none → s.noLapse v → Machine.exec (.time m) s =
      .next (({ s with tbs := { s.tbs with floorTime := some v }, dar := { s.dar with passDue := true } } : State).answers
        Kind.time m tag .ok (.time (some v) false)).settle) ∧
    (∀ f, s.tbs.floorTime = some f →
      (v < f → Machine.exec (.time m) s =
        .next (({ s with tbs := { s.tbs with timeRejected := min 4294967295 (s.tbs.timeRejected + 1) } } : State).answers
          Kind.time m tag .ok (.time (some f) true))) ∧
      (v = f → Machine.exec (.time m) s = .next (s.answers Kind.time m tag .ok (.time (some f) false))) ∧
      (f < v → s.noLapse v → Machine.exec (.time m) s =
        .next (({ s with tbs := { s.tbs with floorTime := some v } } : State).answers Kind.time m tag .ok
          (.time (some v) false))))) ∧
  (∀ (m : Msg) (tag v : Nat) (rest : List Byte) (s : State), s.accepts m tag rest → readTime rest = some v →
    let judged := (List.range 48).foldl State.judgeLapse { s with tbs := { s.tbs with floorTime := some v } }
    let answers (u : State) : Prop := Machine.exec (.time m) s =
      .next (u.enqueue .plant (s.replyFrame Kind.time m tag .ok (.time (some v) false))).settle
    (s.tbs.floorTime = none → answers { judged with dar := { judged.dar with passDue := true } }) ∧
    (∀ f, s.tbs.floorTime = some f → f < v → answers judged))

/-- A second event takes a timer at n to n - 1 and leaves an idle one idle, advances a floor time that is set (stopping at
4,294,967,295), and takes one sample for each counter of an occupancy source: LEVEL counts a sample that meets the condition, EDGE
one that begins to, and ACCUMULATE adds the sample. Nothing else changes when the expiries listed with it are not due. A timer
expiry of this second that is listed is carried out as its own row does it, and the sample reflects it. A second that changes
floor time has the lapse judged for every cell; the first clauses are for seconds in which no cell in SETUP, STARTING, RUNNING or
PAUSED has lapsed, and the last for every second, each moment of the samples and every list of expiries, taken one after another
as their own rows before the sample (R52, R53, R58, R193, R194, R199). The order within the second, the ascending order of the
cells and the listing of its expiries are the model's own choice, log entry 11, and the place of the pass is log entry 10; that a
timer at 0 waits for its expiry, and that an expiry that is not due does nothing, is log entry 12. -/
def Obligations.SecondEventCounts : Prop :=
  ∀ (s : State), s.tbs.resetIn = false → ∃ u : State, s.countedTo u ∧
    (s.passTaken → (∀ f, s.tbs.floorTime = some f → f ≠ 4294967295 → s.noLapse (f + 1)) →
      (∀ (moment : SampleMoment) (taken : List (Fin 48 × CellTimer)),
        (∀ x ∈ taken, timerOf x.2 (u.cell x.1.val).timers ≠ some 0) →
        ∃ t, Machine.exec (.secondEvent ⟨moment, taken⟩) s = .next t ∧ u.sampledTo t) ∧
      (∀ (c : Fin 48) (i : Instr) (timer : CellTimer) (v : State),
        (i, timer) ∈ [(Instr.silenceTimeout c, CellTimer.silence), (.loadTimeout c, .load), (.kitTimeout c, .kit),
          (.soakTimeout c, .soak), (.startTimeout c, .start), (.stopTimeout c, .stop), (.jamTimeout c, .jam)] →
        Machine.exec i u = .next v → ∃ t, Machine.exec (.secondEvent ⟨.last, [(c, timer)]⟩) s = .next t ∧ v.sampledTo t)) ∧
    (let judged (v : State) : State :=
      if u.tbs.floorTime = s.tbs.floorTime then v else (List.range 48).foldl State.judgeLapse v
    let second (moment : SampleMoment) (taken : List (Fin 48 × CellTimer)) : Host.Outcome State Fault Refusal :=
      Machine.exec (.secondEvent ⟨moment, taken⟩) s
    ∀ (taken : List (Fin 48 × CellTimer)) (x : State), let expires (v : State) : Prop := v.runsTo (taken.map expiryRow) x
      (expires { u with tbs := s.tbs } → ∃ t, x.sampledTo t ∧
        second .first taken = .next (judged { t with tbs := { t.tbs with floorTime := u.tbs.floorTime } }).settle) ∧
      (expires (judged u) → ∃ t, x.sampledTo t ∧ second .afterLapse taken = .next t.settle) ∧
      (expires (judged u).settle → ∃ t, x.sampledTo t ∧ second .last taken = .next t))

/-- The inhibit line is asserted while the input is at the active level of the settings; its release starts a pass, but in
STARTING; before the tables are set at start-up the input alone changes (R195). -/
def Obligations.InhibitChangeMovesTheLine : Prop :=
  ∀ (level : Level) (s : State), s.passTaken →
    (s.tbs.resetIn = true ∨ s.scn.loading = .startUp →
      Machine.exec (.inhibitChange level) s = .next { s with tbs := { s.tbs with inhibitIn := level } }) ∧
    (s.tbs.resetIn = false → s.scn.loading ≠ .startUp →
      (s.tbs.inhibited = true ∧ level ≠ s.tst.settings.inhibit ∧ s.tbs.mode ≠ .starting →
        Machine.exec (.inhibitChange level) s = .next ({ s with
          tbs := { s.tbs with inhibitIn := level, inhibited := false }
          dar := { s.dar with passDue := true } } : State).settle) ∧
      (¬(s.tbs.inhibited = true ∧ level ≠ s.tst.settings.inhibit ∧ s.tbs.mode ≠ .starting) →
        Machine.exec (.inhibitChange level) s = .next { s with
          tbs := { s.tbs with inhibitIn := level, inhibited := level == s.tst.settings.inhibit } }))

/-! ### The timers of a cell -/

/-- When the silence timer expires the cell is OFFLINE without runs, cause, stop reason, items, timers, context and load order;
its equipment, expiry and sites stand, and no order is sent. The lot of a sole run, its open segment closed DETACHED, goes back to
WAITING with the arrival time it had, or to HELD when it has hold entries; a fourth segment so closed places an EQUIPMENT entry,
and the lot is HELD (R49, R51, R97). That this LOT_HELD is sent though R49 sends no notice, that it says HELD, and that a due
timer stands at 0 are the model's own choices, log entries 49, 41 and 12. That a pass started is taken last, after the frames the
command sends, is the model's own reading, log entry 10. -/
def Obligations.SilenceSetsCellOffline : Prop :=
  ∀ (c : Fin 48) (s : State), s.CellsFit → (s.cell c.val).timers.silence = some 0 →
    ∃ u : State, Machine.exec (.silenceTimeout c) s = .next u.settle ∧ u.cell c.val = (s.cell c.val).silenced ∧
      s.sameOtherCells u c.val ∧ s.sameBase u ∧ u.pcl.floorQ = s.pcl.floorQ ∧
      (∀ r l, s.soleRun c.val r l → s.sentBack u r (l.closedBy r .detached) ∧ u.pcl = s.pcl ∧ u.fcn = s.fcn) ∧
      (∀ r l, (s.cell c.val).stack = [r] → (s.cell c.val).incoming = none → r.stopped = none → s.lot? r.handle = some l →
        r.segOpen = true → l.segments.length = 4 → (∀ e ∈ l.holds, e.reason ≠ .equipment) → s.noticesGo → s.plantRoom 1 →
        let v := s.heldFor r.handle (l.closedBy r .detached) .equipment (.cell c.val) [] .held
        u.pcl = v.pcl ∧ u.fcn = v.fcn ∧ ∃ l', v.lot? r.handle = some l' ∧ s.sentBack u r l')

/-- When the load, kit or soak timer of a cell in SETUP, or the start timer of a cell in STARTING, expires, the setup has failed:
every run is removed and the cell is in FAULT with cause SETUP_TIMEOUT or START_TIMEOUT. The lot of a sole run has its setup-fail
count raised and an open segment closed FAULT, and goes back to WAITING, or to HELD when it has hold entries; a third failure
places an EQUIPMENT entry, whose LOT_HELD goes first, and the lot is HELD. CELL_FAULT names the lot (R45, R76, R77). That this
LOT_HELD says HELD, and that a due timer stands at 0, are the model's own choices, log entries 41 and 12. That a pass started is
taken last, after the frames the command sends, is the model's own reading, log entry 10. -/
def Obligations.SetupTimeoutFaultsCell : Prop :=
  ∀ (c : Fin 48) (s : State) (i : Instr) (timer : Timers → Option Nat) (st : CellState) (cause : FaultCause),
    (i, timer, st, cause) ∈ [(Instr.loadTimeout c, Timers.load, CellState.setup, FaultCause.setupTimeout),
      (.kitTimeout c, Timers.kit, .setup, .setupTimeout), (.soakTimeout c, Timers.soak, .setup, .setupTimeout),
      (.startTimeout c, Timers.start, .starting, .startTimeout)] →
    s.CellsFit → timer (s.cell c.val).timers = some 0 →
    ∃ u : State, Machine.exec i s = .next u.settle ∧ u.cell c.val = (s.cell c.val).faulted cause ∧ (s.cell c.val).state = st ∧
      s.sameOtherCells u c.val ∧ s.sameBase u ∧ u.pcl.floorQ = s.pcl.floorQ ∧
      (∀ r l, s.soleRun c.val r l → s.noticesGo →
        let failed : Lot := { l.closedBy r .fault with setupFails := min 3 (l.setupFails + 1) }
        let fault : NoticeBody := .cellFault c.val cause (some (r.handle, r.inst))
        (l.setupFails < 2 → s.plantRoom 1 →
          s.sentBack u r failed ∧ u.fcn = s.fcn ∧ u.pcl = (s.notifies fault).pcl) ∧
        (2 ≤ l.setupFails → (∀ e ∈ l.holds, e.reason ≠ .equipment) → s.plantRoom 2 →
          let v := s.heldFor r.handle failed .equipment (.cell c.val) [] .held
          u.fcn = v.fcn ∧ u.pcl = (v.notifies fault).pcl ∧ ∃ l', v.lot? r.handle = some l' ∧ s.sentBack u r l'))

/-- When the stop timer expires the runs are detached and the cell is in FAULT with cause STOP_TIMEOUT, CELL_FAULT naming the top
run's lot; the lot of a sole run, its open segment closed DETACHED, goes back to WAITING, or to HELD with hold entries. When the
jam timer of a PAUSED cell expires, or its calibration lapses while it is STARTING, RUNNING or PAUSED, a stop is requested:
STOP_RUN names the run and the reason and the cell is STOPPING with its stop timer started. A lapse in SETUP abandons it: every
run is removed, top first, an open segment closed CALIBRATION, each lot goes back to WAITING with a new arrival time or to HELD,
and the cell is IDLE, its load order standing. In STOPPING, OFFLINE, IDLE and FAULT, and where nothing has lapsed, the judgement
does nothing (R45, R47, R48, R51, R53). That a due timer stands at 0 is the model's own choice, log entry 12. That a pass started
is taken last, after the frames the command sends, is the model's own reading, log entry 10. -/
def Obligations.StopAndJamTimeoutsAct : Prop :=
  (∀ (c : Fin 48) (s : State), s.CellsFit → (s.cell c.val).timers.stop = some 0 →
    ∃ u : State, Machine.exec (.stopTimeout c) s = .next u.settle ∧ u.cell c.val = (s.cell c.val).faulted .stopTimeout ∧
      s.sameOtherCells u c.val ∧ s.sameBase u ∧ u.pcl.floorQ = s.pcl.floorQ ∧
      (∀ r l, s.soleRun c.val r l → s.noticesGo → s.plantRoom 1 →
        s.sentBack u r (l.closedBy r .detached) ∧ u.fcn = s.fcn ∧
        u.pcl = (s.notifies (.cellFault c.val .stopTimeout (some (r.handle, r.inst)))).pcl)) ∧
  (∀ (c : Fin 48) (s : State) (reg : Registration) (r : Run) (below : List Run), s.CellsFit → s.passTaken →
    s.reg? c.val = some reg → (s.cell c.val).stack = r :: below → (s.cell c.val).timers.jam = some 0 → s.floorRoom 1 →
    Machine.exec (.jamTimeout c) s = .next (s.stopRequested reg c.val r .jamTimeout)) ∧
  (∀ (c : Nat) (s : State) (reg : Registration) (r : Run) (below : List Run) (f e : Nat), c < 48 → s.CellsFit →
    s.reg? c = some reg → (s.cell c).stack = r :: below → s.tbs.floorTime = some f → (s.cell c).expiry = some e → e ≤ f →
    (s.cell c).state = .starting ∨ (s.cell c).state = .running ∨ (s.cell c).state = .paused → s.floorRoom 1 →
    s.judgeLapse c = s.stopRequested reg c r .calibration) ∧
  (∀ (c : Nat) (s : State), (∀ f e, s.tbs.floorTime = some f → (s.cell c).expiry = some e → f < e) ∨
      (s.cell c).state = .stopping ∨ (s.cell c).state = .offline ∨ (s.cell c).state = .idle ∨ (s.cell c).state = .fault →
    s.judgeLapse c = s) ∧
  (∀ (c : Nat) (s : State) (f e : Nat), c < 48 → s.CellsFit → s.tbs.floorTime = some f → (s.cell c).expiry = some e → e ≤ f →
    (s.cell c).state = .setup →
    let u := s.judgeLapse c
    let left (l : Lot) (r : Run) : Lot := { l.closedBy r .calibration with arrival := if l.holds = [] then s.now else l.arrival }
    let abandoned : Prop := u.cell c = { s.cell c with
        state := .idle
        items := Items.none
        timers := { Timers.idle with silence := (s.cell c).timers.silence }
        stack := []
        ctx := none
        orderCurrent := false } ∧
      s.sameOtherCells u c ∧ s.sameBase u ∧ u.pcl = s.pcl ∧ u.fcn = s.fcn ∧ u.dar.passDue = true
    (∀ r l, s.soleRun c r l → abandoned ∧ s.sentBack u r (left l r)) ∧
    (∀ r low l l', (s.cell c).stack = [r, low] → r.handle ≠ low.handle → s.lot? r.handle = some l →
      s.lot? low.handle = some l' → (r.segOpen = true → l.segments.length < 4) →
      (low.segOpen = true → l'.segments.length < 4) →
      abandoned ∧ ∃ v : State, s.sentBack v r (left l r) ∧ v.sentBack u low (left l' low)))

/-! ### Cell messages -/

/-- A STATUS with run-active clear takes an OFFLINE or IDLE cell to IDLE when its tester is ready and to OFFLINE when it is not,
and a cell in FAULT likewise when maintenance-clear is set; with run-active set each of them is in FAULT with cause UNOWNED_RUN,
CELL_FAULT is sent unless that was the cause already, and STOP_RUN (UNOWNED) every time. Equipment and calibration expiry are
recorded. A reported site set equal to the enabled set is confirmed, any other draws SITE_MASK, and site-restore enables every
site and sends SITE_MASK. The silence timer starts anew unless the cell is OFFLINE (R42 to R46, R52, R56 to R58, R71). That the
run-active flag is recorded in these states too is the model's own choice, log entry 45. That a pass started is taken last, after
the frames the command sends, is the model's own reading, log entry 10. -/
def Obligations.StatusMovesIdleCell : Prop :=
  ∀ (m : Msg) (b : StatusBody) (reg : Registration) (s : State), s.takes → s.CellsFit → s.passTaken → s.knowsCell m reg →
    readStatus m.body = some b →
    (s.cell m.cell.toNat).state = .offline ∨ (s.cell m.cell.toNat).state = .idle ∨ (s.cell m.cell.toNat).state = .fault →
    let c := m.cell.toNat
    let x := s.cell c
    let faults := b.runActive = true ∧ ¬(x.state = .fault ∧ x.cause = some .unownedRun)
    let st : CellState := if b.runActive then .fault else if x.state = .fault ∧ b.maintClear = false then .fault
      else if b.ready then .idle else .offline
    let clears := faults ∨ (st = .offline ∧ x.state ≠ .offline)
    let enabled := if b.siteRestore then allSites reg.siteCount else x.enabled
    let masks := b.siteRestore = true ∨ b.sites ≠ x.enabled
    (faults → s.noticesGo) → s.plantRoom (if faults then 2 else 1) → s.floorRoom (if b.runActive then 2 else 1) →
    ∃ u : State, Machine.exec (.status m) s = .next u.settle ∧
      u.cell c = { x with
        state := st
        cause := if st = .fault then (if b.runActive then some .unownedRun else x.cause) else none
        testerReady := some b.ready
        handler := some b.handler
        runActive := some b.runActive
        kit := b.kit
        loaded := b.loaded
        setpoint := some b.setpoint
        atSetpoint := b.atSetpoint
        expiry := b.expiry
        enabled := enabled
        confirmed := if masks then x.confirmed else x.enabled
        reportPending := decide masks
        ctx := if clears then none else x.ctx
        order := if clears ∨ b.restarted = true then none else x.order
        orderCurrent := if clears ∨ b.restarted = true then false else x.orderCurrent
        timers := { Timers.idle with silence := if st = .offline then none else some s.tst.settings.silence } } ∧
      s.sameOtherCells u c ∧ s.sameBase u ∧ u.ldr = s.ldr ∧ u.rlu = s.rlu ∧ u.fcn = s.fcn ∧ u.dar.queue = s.dar.queue ∧
      let stopped := if b.runActive then s.sendsFloor [s.orderFrame reg c none (.stopRun .unowned)] else s
      let told := if faults then stopped.notifies (.cellFault c .unownedRun none) else stopped
      let masked := if masks then told.sendsFloor [s.orderFrame reg c none (.siteMask enabled)] else told
      u.pcl = (masked.sendsPlant [forwardedFrame s Kind.status m m.body]).pcl

/-- A STATUS that brings a new calibration expiry under a run, without an equipment restart (R42, R52, R53, R56, R57): after the
state handling, the equipment values and, in SETUP, the judgement of the KIT and SOAK items, the expiry is recorded and the lapse
judged, which requests a stop, abandons the setup or does nothing, as StopAndJamTimeoutsAct says; then the sites are handled, the
silence timer starts anew, and a pass is started. That a START_RUN the STATUS draws goes before the lapse it brings is the model's
own reading, log entry 30. -/
def Sys2Proof.Claims.statusBringsExpiry : Prop :=
  ∀ (m : Msg) (b : StatusBody) (reg : Registration) (s : State), s.takes → s.CellsFit → s.knowsCell m reg →
    readStatus m.body = some b → b.restarted = false → b.expiry ≠ (s.cell m.cell.toNat).expiry →
    let c := m.cell.toNat
    let x := s.cell c
    let recorded : Cell := { x with
      testerReady := some b.ready
      handler := some b.handler
      runActive := some b.runActive
      setpoint := some b.setpoint
      atSetpoint := b.atSetpoint }
    let goesOn (handled : State) : Prop :=
      let judged := (handled.modCell c fun y => { y with expiry := b.expiry }).judgeLapse c
      let enabled := if b.siteRestore then allSites reg.siteCount else x.enabled
      let sited := if b.siteRestore = true ∨ b.sites ≠ x.enabled then
          (judged.modCell c fun y => { y with enabled := enabled, reportPending := true }).enqueue .floor
            (s.orderFrame reg c none (.siteMask enabled))
        else judged.modCell c fun y => { y with confirmed := x.enabled, reportPending := false }
      let timed := sited.modCell c fun y => { y with timers := { y.timers with silence := some s.tst.settings.silence } }
      Machine.exec (.status m) s = .next (({ timed with dar := { timed.dar with passDue := true } } : State).enqueue .plant
        (forwardedFrame s Kind.status m m.body)).settle
    (x.state = .starting ∨ x.state = .running ∨ x.state = .paused ∨ x.state = .stopping →
      let pauses := x.state = .running ∧ b.handler = .jammed
      let resumes := x.state = .paused ∧ b.handler = .running
      goesOn (s.modCell c fun _ => { recorded with
        state := if pauses then .paused else if resumes then .running else x.state
        timers := { x.timers with
          jam := if pauses then some s.tst.settings.jam else if resumes then none else x.timers.jam } })) ∧
    (∀ (r : Run) (below : List Run), x.state = .setup → x.stack = r :: below → b.runActive = false →
      let step := s.runStep r
      let kit := x.items.kit && decide (b.kit ≠ some step.kit)
      let soak := x.items.soak && decide (¬(b.setpoint = step.temp ∧ b.atSetpoint = true))
      goesOn ((s.modCell c fun _ => { recorded with
        kit := b.kit
        items := ⟨x.items.load, kit, soak⟩
        timers := { x.timers with
          kit := if kit then x.timers.kit else none
          soak := if soak then x.timers.soak else none } }).checkSetup c))

/-- A STATUS with handler JAMMED takes a RUNNING cell to PAUSED and starts the jam timer, one with handler RUNNING takes a PAUSED
cell to RUNNING and stops it, and in STARTING and STOPPING the state stands; the program and the kit stand, and the rest of the
equipment and the sites are recorded (R42, R43, R47, R57). In SETUP the KIT and SOAK items are judged, and with no item and no
mismatch left START_RUN is sent (R73, R74); with run-active set the runs are detached and the cell is in FAULT (R44, R45). With
restarted set under a started run the lot takes an INTERRUPTED entry, the runs are detached, and the cell is in FAULT, IDLE or
OFFLINE (R50). A new expiry under a run is recorded after these, and the lapse it brings is judged: a stop is requested, or the
setup abandoned (R52, R53). The clauses in full are for an expiry that stands, but at an unowned run and a restart, and in SETUP
and at a restart for the enabled sites as they stand; Claims.statusBringsExpiry has any new expiry and sites. That the LOT_HELD of
the INTERRUPTED entry says HELD, that the run-active flag is recorded in every state, and that items are judged before the sites
are the model's own choices, log entries 41, 45 and 30. That a pass started is taken last, after the frames the command sends, is
the model's own reading, log entry 10. -/
def Obligations.StatusPausesAndResumes : Prop :=
  Sys2Proof.Claims.statusBringsExpiry ∧ ∀ (m : Msg) (b : StatusBody) (reg : Registration) (s : State), s.takes → s.CellsFit → s.passTaken → s.knowsCell m reg →
    readStatus m.body = some b →
    let c := m.cell.toNat
    let x := s.cell c
    let forwarded := [forwardedFrame s Kind.status m m.body]
    let started := x.state = .starting ∨ x.state = .running ∨ x.state = .paused ∨ x.state = .stopping
    let plain := b.siteRestore = false ∧ b.sites = x.enabled
    (started → b.restarted = false → b.expiry = x.expiry → s.plantRoom 1 → s.floorRoom 1 →
      let pauses := x.state = .running ∧ b.handler = .jammed
      let resumes := x.state = .paused ∧ b.handler = .running
      let enabled := if b.siteRestore then allSites reg.siteCount else x.enabled
      let masks := b.siteRestore = true ∨ b.sites ≠ x.enabled
      ∃ u : State, Machine.exec (.status m) s = .next u.settle ∧
        u.cell c = { x with
          state := if pauses then .paused else if resumes then .running else x.state
          testerReady := some b.ready
          handler := some b.handler
          runActive := some b.runActive
          setpoint := some b.setpoint
          atSetpoint := b.atSetpoint
          enabled := enabled
          confirmed := if masks then x.confirmed else x.enabled
          reportPending := decide masks
          timers := { x.timers with
            silence := some s.tst.settings.silence
            jam := if pauses then some s.tst.settings.jam else if resumes then none else x.timers.jam } } ∧
        u.dar = ⟨s.dar.queue, decide ((resumes ∧ x.stack.length = 1) ∨ x.enabled ≠ enabled)⟩ ∧ s.sameOtherCells u c ∧
        s.sameBase u ∧ u.ldr = s.ldr ∧ u.rlu = s.rlu ∧ u.fcn = s.fcn ∧
        let masked := if masks then s.sendsFloor [s.orderFrame reg c none (.siteMask enabled)] else s
        u.pcl = (masked.sendsPlant forwarded).pcl) ∧
    (∀ (r : Run) (below : List Run), x.state = .setup → x.stack = r :: below → b.restarted = false → plain →
      let step := s.runStep r
      let kit := x.items.kit && decide (b.kit ≠ some step.kit)
      let soak := x.items.soak && decide (¬(b.setpoint = step.temp ∧ b.atSetpoint = true))
      let recorded : Cell := { x with
        testerReady := some b.ready
        handler := some b.handler
        runActive := some b.runActive
        kit := b.kit
        setpoint := some b.setpoint
        atSetpoint := b.atSetpoint
        expiry := b.expiry
        confirmed := x.enabled
        reportPending := false }
      (b.runActive = false → b.expiry = x.expiry → x.items.load = true ∨ kit = true ∨ soak = true → s.plantRoom 1 →
        Machine.exec (.status m) s = .next ((s.modCell c fun _ => { recorded with
          items := ⟨x.items.load, kit, soak⟩
          timers := { x.timers with
            silence := some s.tst.settings.silence
            kit := if kit then x.timers.kit else none
            soak := if soak then x.timers.soak else none } }).sendsPlant forwarded)) ∧
      (∀ l v, b.runActive = false → b.expiry = x.expiry → x.items.load = false → s.lot? r.handle = some l → x.loaded = some v →
        v.number = (s.programOf step).vals.number → v.rev = (s.programOf step).vals.rev → b.kit = some step.kit →
        b.setpoint = step.temp → b.atSetpoint = true → s.plantRoom 1 → s.floorRoom 1 →
        Machine.exec (.status m) s = .next (((s.modCell c fun _ => { recorded with
          state := .starting
          items := Items.none
          stack := { r with awaiting := true } :: below
          timers := { Timers.idle with silence := some s.tst.settings.silence, start := some s.tst.settings.start } }).sendsFloor
          [s.orderFrame reg c (some r) (.startRun r.pass x.enabled (l.acc.remaining r.pass))]).sendsPlant forwarded)) ∧
      (∀ l, b.runActive = true → s.soleRun c r l → s.noticesGo → s.plantRoom 2 → s.floorRoom 1 →
        ∃ u : State, Machine.exec (.status m) s = .next u.settle ∧
          u.cell c = { recorded.faulted .unownedRun with
            timers := { Timers.idle with silence := some s.tst.settings.silence } } ∧
          s.sentBack u r (l.closedBy r .detached) ∧ s.sameOtherCells u c ∧ s.sameBase u ∧ u.fcn = s.fcn ∧
          u.pcl = (((s.notifies (.cellFault c .unownedRun (some (r.handle, r.inst)))).sendsFloor
            [s.orderFrame reg c none (.stopRun .unowned)]).sendsPlant forwarded).pcl)) ∧
    (∀ (r : Run) (l : Lot), started → b.restarted = true → plain → s.soleRun c r l →
      (∀ e ∈ l.holds, e.reason ≠ .interrupted) → s.noticesGo → s.plantRoom 3 → s.floorRoom 1 →
      let st : CellState := if b.runActive then .fault else if b.ready then .idle else .offline
      let held := s.heldFor r.handle l .interrupted (.cell c) [] .held
      ∃ (u : State) (l' : Lot), Machine.exec (.status m) s = .next u.settle ∧ held.lot? r.handle = some l' ∧
        s.sentBack u r (l'.closedBy r .detached) ∧ s.sameOtherCells u c ∧ s.sameBase u ∧ u.fcn = held.fcn ∧
        u.cell c = { x with
          state := st
          cause := if b.runActive then some .unownedRun else none
          stopReason := none
          stack := []
          ctx := none
          order := none
          orderCurrent := false
          testerReady := some b.ready
          handler := some b.handler
          runActive := some b.runActive
          kit := b.kit
          loaded := b.loaded
          setpoint := some b.setpoint
          atSetpoint := b.atSetpoint
          expiry := b.expiry
          confirmed := x.enabled
          reportPending := false
          timers := { Timers.idle with silence := if st = .offline then none else some s.tst.settings.silence } } ∧
        let told := if b.runActive then (held.notifies (.cellFault c .unownedRun (some (r.handle, r.inst)))).sendsFloor
          [s.orderFrame reg c none (.stopRun .unowned)] else held
        u.pcl = (told.sendsPlant forwarded).pcl)

/-- A LOAD_DONE of a cell without an outstanding load order, taken in OFFLINE, IDLE or FAULT, records the loaded program, none
when it failed; in any other state it is unsolicited, and forwarded without effect. The answer to the order of a setup under way
completes the LOAD item when it is OK with the ordered values, and the last item completed sends START_RUN; otherwise it fails the
setup: the cell is in FAULT with cause LOAD_FAILED. The answer to the order of an earlier setup clears it and is recorded, without
failure: in SETUP the LOAD item is judged anew, sending LOAD_PROGRAM or completing, and in IDLE a pass is started (R71, R72, R74,
R76). That an unsolicited LOAD_DONE is counted nowhere is the model's own reading, log entry 28. That a pass started is taken
last, after the frames the command sends, is the model's own reading, log entry 10. -/
def Obligations.LoadDoneAnswersTheOrder : Prop :=
  ∀ (m : Msg) (ok : Bool) (v : ProgVals) (reg : Registration) (s : State), s.takes → s.CellsFit → s.passTaken →
    s.knowsCell m reg → readLoadDone m.body = some (ok, v) → s.plantRoom 1 →
    let c := m.cell.toNat
    let x := s.cell c
    let loaded := if ok then some v else none
    let forwarded := [forwardedFrame s Kind.loadDone m m.body]
    let answered : State := s.modCell c fun x => { x with loaded := loaded, order := none, orderCurrent := false }
    let completed (u : State) : State := u.modCell c fun x => { x with
      items := { x.items with load := false }
      timers := { x.timers with load := none } }
    let judged (u : State) : Prop :=
      Machine.exec (.loadDone m) s = .next (((completed u).checkSetup c).enqueue .plant (forwardedFrame s Kind.loadDone m m.body))
    (x.order = none →
      (x.state = .offline ∨ x.state = .idle ∨ x.state = .fault →
        Machine.exec (.loadDone m) s = .next ((s.modCell c fun x => { x with loaded := loaded }).sendsPlant forwarded)) ∧
      (¬(x.state = .offline ∨ x.state = .idle ∨ x.state = .fault) →
        Machine.exec (.loadDone m) s = .next (s.sendsPlant forwarded))) ∧
    (∀ ordered, x.order = some ordered → x.orderCurrent = true → x.items.load = true →
      (ok = true → v = ordered → judged answered) ∧
      (ok = true → v = ordered → x.items.kit = true ∨ x.items.soak = true →
        Machine.exec (.loadDone m) s = .next ((completed answered).sendsPlant forwarded)) ∧
      (∀ r below l, ok = true → v = ordered → x.items.kit = false → x.items.soak = false → x.stack = r :: below →
        s.lot? r.handle = some l → let step := s.runStep r
        v.number = (s.programOf step).vals.number → v.rev = (s.programOf step).vals.rev → x.kit = some step.kit →
        x.setpoint = some step.temp → x.atSetpoint = true → s.floorRoom 1 →
        Machine.exec (.loadDone m) s = .next ((answered.startsRun reg c r (l.acc.remaining r.pass)).sendsPlant forwarded)) ∧
      (ok = false ∨ v ≠ ordered → ∃ u : State, Machine.exec (.loadDone m) s = .next u.settle ∧
        u.cell c = { x.faulted .loadFailed with loaded := loaded } ∧ s.sameOtherCells u c ∧ s.sameBase u)) ∧
    (∀ ordered, x.order = some ordered → x.orderCurrent = false →
      (x.state ≠ .setup → Machine.exec (.loadDone m) s = .next (({ answered with
        dar := ⟨s.dar.queue, decide (x.state = .idle)⟩ } : State).sendsPlant forwarded).settle) ∧
      (∀ r below, x.state = .setup → x.stack = r :: below →
        let w := (s.programOf (s.runStep r)).vals
        (ok = true → v.number = w.number → v.rev = w.rev → judged answered) ∧
        (ok = false ∨ v.number ≠ w.number ∨ v.rev ≠ w.rev → s.floorRoom 1 → Machine.exec (.loadDone m) s =
          .next (((answered.modCell c fun x => { x with
            items := { x.items with load := true }
            timers := { x.timers with load := some s.tst.settings.load }
            order := some w
            orderCurrent := true }).sendsFloor [s.orderFrame reg c (some r) (.loadProgram w)]).sendsPlant forwarded))))

/-- RUN_STARTED taken in STARTING or STOPPING for a run that awaits its start: the awaiting-start mark is cleared, the lot is
RUNNING with setup-fail count 0 and its activity mark set, and a segment opens with the program the cell has loaded, the fourth
replaced if four stand, with the site statistics at 0; of a resumed run or a retest start, whose segment is open, segments and
site statistics stand. From STARTING the cell is RUNNING and its start timer stops (R75, R86, R96). One that fails a check of R85
is forwarded and changes nothing but its cell's drop count and latest reason: of an unknown cell or with a body that is not empty
not even those, and in any other state, or for a run that awaits no start, with reason UNEXPECTED (R85). That a pass started is
taken last, after the frames the command sends, is the model's own reading, log entry 10. -/
def Obligations.RunStartedOpensSegment : Prop :=
  (∀ (m : Msg) (reg : Registration) (l : Lot) (r : Run) (below : List Run) (v : ProgVals) (s : State), s.takes → s.CellsFit →
    s.passTaken → s.knowsCell m reg → m.body = [] → s.namesLot m l → (s.cell m.cell.toNat).stack = r :: below →
    r.namedBy m → (s.cell m.cell.toNat).state = .starting ∨ (s.cell m.cell.toNat).state = .stopping → r.awaiting = true →
    s.plantRoom 1 →
    let x := s.cell m.cell.toNat
    let u := s.runStarts m.cell.toNat r below l v
    (r.segOpen = false → x.loaded = some v →
      Machine.exec (.runStarted m) s = .next (u.sendsPlant [forwardedFrame s Kind.runStarted m m.body]).settle ∧
      u.cell m.cell.toNat = { x with
        state := if x.state = .starting then .running else .stopping
        stack := { r with awaiting := false, segOpen := true } :: below
        timers := { x.timers with start := none } } ∧
      u.slot r.handle = ⟨r.inst, some { l with
        state := .running
        setupFails := 0
        mark := true
        segments := (if l.segments.length < 4 then l.segments else l.segments.dropLast) ++
          [⟨m.cell.toNat, v.number, v.rev, l.acc.tested1, none⟩]
        acc := { l.acc with sites := Vector.replicate 16 ⟨0, 0, 0, 0⟩ } }⟩ ∧
      s.sameOtherCells u m.cell.toNat ∧ s.sameOtherLots u r.handle ∧ s.sameBase u) ∧
    (r.segOpen = true →
      Machine.exec (.runStarted m) s = .next (u.sendsPlant [forwardedFrame s Kind.runStarted m m.body]).settle ∧
      u.slot r.handle = ⟨r.inst, some { l with state := .running, setupFails := 0, mark := true }⟩)) ∧
  (∀ (m : Msg) (s : State), s.takes → s.passTaken → s.plantRoom 1 →
    s.dropsAs (.runStarted m) Kind.runStarted m m.body.isEmpty none fun st r =>
      r.awaiting = true ∧ (st = .starting ∨ st = .stopping))

/-- A step end at a cell, for every lot at the top of its stack (R90, R91, R97, R120 to R122, R131, R132). FINAL_LOW trips when the
final good units are too few for the units in, and is a GUARD hold; more units lost than allowed, or more retested than
retestable, is a QUANTITY hold, which sets the quantity mark. Each trip draws GUARD_TRIP, each hold is added or merged without
STOP_RUN and counted, and the target is ADVANCE while an entry stands. The open segment closes STEP_END, the step closes into its
summary, and LOT_STEP_DONE is sent, then LOT_HELD for each new entry. That these say HELD is the model's own choice, log entry 41. -/
def Sys2Proof.Claims.stepCloses : Prop :=
  ∀ (s : State) (c : Nat) (l : Lot) (r : Run) (below : List Run) (before : List Segment) (g : Segment) (low : Bool), c < 48 →
    s.lot? r.handle = some l → (s.cell c).stack = r :: below → (∀ q ∈ below, q.handle ≠ r.handle) → r.segOpen = true →
    l.segments = before ++ [g] → s.noticesGo → s.plantRoom 3 →
    let h := r.handle
    let step := s.lotStep l
    let p := s.profileOf step
    let lost := (if p.lostAllow + l.acc.tested1 < l.acc.unitsIn then [Trip.lostHigh] else []) ++
      (if l.acc.retestable1 < l.acc.tested2 then [Trip.retestExcess] else [])
    (low = true ↔ (l.acc.good1 + l.acc.good2) * 1000 < p.finalFloor * l.acc.unitsIn) →
    let kinds := (if low then [Trip.finalLow] else []) ++ lost
    let guarded := if low then placeEntry l.holds ⟨.guard, .ygd, [.finalLow], none⟩ s.now else l.holds
    let holds := if lost = [] then guarded else placeEntry guarded ⟨.quantity, .ygd, [], none⟩ s.now
    let segments := before ++ [{ g with closed := some (l.acc.tested1, .stepEnd) }]
    let tripped := kinds.foldl (fun (u : State) t => u.event .guardTrip t.code) s
    let placed := if low then tripped.event .holdPlaced 0 else tripped
    let counted := if lost = [] then placed else placed.event .holdPlaced 3
    let newEntry (reason : HoldReason) (trips : List Trip) (u : State) : State :=
      u.notifies (.lotHeld (s.named h l) (s.group (groupOf h)).family ⟨reason, s.now, .ygd, trips, 1, none⟩ .held (some .advance))
    ∃ (trips : List Trip) (done : Summary),
      let judged : Lot := { l with
        holds := holds
        target := if holds = [] then l.target else some .advance
        mark := l.mark || !kinds.isEmpty
        segments := segments
        acc := { l.acc with trips := trips, qtyMark := l.acc.qtyMark || !lost.isEmpty } }
      let told := ((counted.setLot h { judged with summaries := l.summaries ++ [done] }).modCell c fun x => { x with
        stack := { r with segOpen := false } :: below, ctx := none }).notifies
        (.lotStepDone (s.named h l) l.step c done l.acc.fed1 l.acc.fed2)
      let guardTold := if low ∧ (∀ e ∈ l.holds, e.reason ≠ .guard) then newEntry .guard [.finalLow] told else told
      (∀ t, t ∈ trips ↔ t ∈ l.acc.trips ∨ t ∈ kinds) ∧ done.closes step judged segments ∧
      s.stepEnd c h = if lost ≠ [] ∧ (∀ e ∈ l.holds, e.reason ≠ .quantity) then newEntry .quantity [] guardTold else guardTold

/-- A PASS_END that ends a step takes the run off its cell, which goes on to a lower run or is IDLE; the lot is HELD when the step end
left it with entries, old or new, and otherwise at its next step in the dispatch queue, or COMPLETE after its last (R82, R87, R90,
R123). That the cell goes on before the lot is log entry 32. -/
def Sys2Proof.Claims.passEndCloses : Prop :=
  ∀ (m : Msg) (pass : Pass) (fed : Nat) (reg : Registration) (l : Lot) (r : Run) (below : List Run) (s : State), s.takes →
    s.CellsFit → s.passTaken → s.knowsCell m reg → readPassEnd m.body = some (pass, fed) → s.namesLot m l →
    (s.cell m.cell.toNat).stack = r :: below → r.namedBy m → r.pass = pass →
    (s.cell m.cell.toNat).state = .running ∨ (s.cell m.cell.toNat).state = .paused → ¬s.dueRetest l pass →
    (∀ low ∈ below, low.handle ≠ r.handle ∧ s.carries m.cell.toNat low) →
    let c := m.cell.toNat
    let ended := ((s.setLot r.handle (l.fed pass fed)).modCell c fun x => { x with ctx := none }).stepEnd c r.handle
    let left := (ended.modCell c fun x => { x with stack := below, ctx := none, orderCurrent := false }).cellGoesOn c
    let goes (u : State) : Prop :=
      Machine.exec (.passEnd m) s = .next (u.enqueue .plant (forwardedFrame s Kind.passEnd m m.body)).settle
    ∃ l' : Lot, ended.lot? r.handle = some l' ∧
      (l'.holds ≠ [] → goes (left.becomesHeld r.handle l')) ∧
      (l'.holds = [] → l.step + 1 < s.stepCount l.route → goes (left.joins r.handle (s.atNextStep l'))) ∧
      (l'.holds = [] → s.stepCount l.route ≤ l.step + 1 → goes (left.complete r.handle))

/-- A PASS_END in STARTING is taken as a RUN_STARTED for its run first, and one in STOPPING of a run that awaits its start too, before
its pass end is marked (R86, R87, R89). -/
def Sys2Proof.Claims.passEndStarts : Prop :=
  ∀ (m : Msg) (pass : Pass) (fed : Nat) (reg : Registration) (l : Lot) (r : Run) (below : List Run) (v : ProgVals) (s : State),
    s.takes → s.CellsFit → s.passTaken → s.knowsCell m reg → readPassEnd m.body = some (pass, fed) → s.namesLot m l →
    (s.cell m.cell.toNat).stack = r :: below → r.namedBy m → r.pass = pass →
    (r.segOpen = false → (s.cell m.cell.toNat).loaded = some v) →
    let c := m.cell.toNat
    let started := s.runStarts c r below l v
    ((s.cell c).state = .starting → Machine.exec (.passEnd m) s = Machine.exec (.passEnd m) started) ∧
    ((s.cell c).state = .stopping → r.stopped = none → r.awaiting = true → s.plantRoom 1 →
      Machine.exec (.passEnd m) s = .next ((started.modCell c fun x => { x with
        stack := { r with awaiting := false, segOpen := true, stopped := some (pass, fed) } :: below }).sendsPlant
        [forwardedFrame s Kind.passEnd m m.body]))

/-- A PASS_END of the first pass with a retest due sends START_RUN for the retest on the same cell, with the enabled sites and the
units left, and the cell is STARTING. With no retest due the step ends: the step-end checks run, the segment closes STEP_END at
tested1, the summary closes, LOT_STEP_DONE is sent, and the run leaves the cell, which goes on to a lower run or is IDLE. A lot
without holds and checks tripped joins the dispatch queue WAITING at its next step with the carried quantity, or is COMPLETE after
its last; a lot with entries is HELD with target ADVANCE. In STARTING the start is implied. In STOPPING the pass end is marked on
the run, after the start of one that awaits it (R82, R87 to R90, R97, R108, R120, R121, R123). One that fails a check of R85 is
forwarded, and only its cell's drop count and latest reason change: WRONG_PASS for another pass, UNEXPECTED in another state or
under a marked pass end (R85). The order of cell and lot, the state in LOT_HELD, and START_RUN without a count field are the
model's own choices, log entries 32, 41 and 48. That a pass started is taken last, after the frames the command sends, is the
model's own reading, log entry 10. -/
def Obligations.PassEndEndsPassOrStep : Prop :=
  Sys2Proof.Claims.stepCloses ∧ Sys2Proof.Claims.passEndCloses ∧ Sys2Proof.Claims.passEndStarts ∧
  (∀ (m : Msg) (pass : Pass) (fed : Nat) (reg : Registration) (l : Lot) (r : Run) (below : List Run) (s : State), s.takes →
    s.CellsFit → s.passTaken → s.knowsCell m reg → readPassEnd m.body = some (pass, fed) → s.namesLot m l →
    (s.cell m.cell.toNat).stack = r :: below → r.namedBy m → r.pass = pass → s.plantRoom 1 →
    let c := m.cell.toNat
    let x := s.cell c
    (x.state = .running ∨ x.state = .paused → s.dueRetest l pass → s.floorRoom 1 →
      Machine.exec (.passEnd m) s = .next (((s.modCell c fun x => { x with
          state := .starting
          stack := { r with pass := .retest, awaiting := true } :: below
          ctx := none
          timers := { x.timers with start := some s.tst.settings.start, jam := none } }).setLot r.handle
          (l.fed pass fed).inRetest).sendsFloor
        [s.orderFrame reg c (some r)
          (.startRun .retest x.enabled (l.acc.retestable1 - l.acc.tested2))] |>.sendsPlant
        [forwardedFrame s Kind.passEnd m m.body])) ∧
    (x.state = .stopping → r.stopped = none → r.awaiting = false → Machine.exec (.passEnd m) s =
      .next (((s.modCell c fun x => { x with stack := { r with stopped := some (pass, fed) } :: below }).setLot r.handle
        { l with mark := true }).sendsPlant [forwardedFrame s Kind.passEnd m m.body]))) ∧
  (∀ (m : Msg) (s : State), s.takes → s.passTaken → s.plantRoom 1 →
    s.dropsAs (.passEnd m) Kind.passEnd m (readPassEnd m.body).isSome ((readPassEnd m.body).map Prod.fst) fun st r =>
      st = .starting ∨ st = .running ∨ st = .paused ∨ (st = .stopping ∧ r.stopped = none))

/-- RUN_STOPPED in a stop for any reason but PREEMPT, and one the part did not order: the segment, if one is open, closes with the
cause of the stop, the run leaves its cell, the lot is HELD with entries and otherwise WAITING on its step with a new arrival time,
and the cell goes on (R82, R92, R94, R97); a fourth segment so closed places an EQUIPMENT entry. A marked pass end is settled
first: with a retest due the lot goes there with pass RETEST and no START_RUN, and otherwise the step ends and the lot goes where
its close sends it (R90, R93, R123). -/
def Sys2Proof.Claims.stopSettles : Prop :=
  ∀ (m : Msg) (reg : Registration) (l : Lot) (r : Run) (below : List Run) (cause : CloseCause) (s : State), s.takes →
    s.CellsFit → s.passTaken → s.knowsCell m reg → m.body = [] → s.namesLot m l → (s.cell m.cell.toNat).stack = r :: below →
    r.namedBy m → (s.cell m.cell.toNat).stopsFor cause → (∀ low ∈ below, low.handle ≠ r.handle ∧ s.carries m.cell.toNat low) →
    let c := m.cell.toNat
    let h := r.handle
    let marked : Lot := { l with mark := true }
    let off (u : State) : State := u.modCell c fun x => { x with stack := below, ctx := none, orderCurrent := false }
    let goes (u : State) : Prop := Machine.exec (.runStopped m) s =
      .next (((off u).cellGoesOn c).enqueue .plant (forwardedFrame s Kind.runStopped m m.body)).settle
    let sent (l' : Lot) : State :=
      if l'.holds = [] then s.joins h { l' with state := .waiting, arrival := s.now } else s.becomesHeld h l'
    let few : Prop := r.segOpen = true → l.segments.length < 4
    ((s.cell c).state ≠ .stopping ∨ r.stopped = none → few → goes (sent (marked.closedBy r cause))) ∧
    ((s.cell c).state ≠ .stopping ∨ r.stopped = none → r.segOpen = true → l.segments.length = 4 →
      (∀ e ∈ l.holds, e.reason ≠ .equipment) → s.noticesGo → s.plantRoom 1 →
      let held := s.heldFor h (marked.closedBy r cause) .equipment (.cell c) [] .held
      ∃ l', held.lot? h = some l' ∧ goes (held.becomesHeld h l')) ∧
    (∀ pass fed, (s.cell c).state = .stopping → r.stopped = some (pass, fed) →
      (s.dueRetest l pass → few → goes (sent ((l.fed pass fed).inRetest.closedBy r cause))) ∧
      (¬s.dueRetest l pass →
        let ended := ((s.setLot h (l.fed pass fed)).modCell c fun x => { x with
          stack := { r with awaiting := false, stopped := none } :: below, ctx := none }).stepEnd c h
        ∃ l', ended.lot? h = some l' ∧
          (l'.holds ≠ [] → goes (ended.becomesHeld h l')) ∧
          (l'.holds = [] → l.step + 1 < s.stepCount l.route → goes (ended.joins h (s.atNextStep l'))) ∧
          (l'.holds = [] → s.stepCount l.route ≤ l.step + 1 → goes (ended.complete h))))

/-- RUN_STOPPED in a stop for a preemption of a sole run (R80, R81, R93): a lot without entries whose step has not closed is
PREEMPTED, in pass RETEST when a marked first pass had a retest due, and its run stays, its segment open, beneath the incoming run;
a lot with entries is HELD with its segment closed HOLD, and a lot whose step a marked pass end closed goes where its close sends
it, both without their run. The incoming run is then the top, for which the cell goes into SETUP; where it has been withdrawn the
stopped run resumes, and without either the cell is IDLE. -/
def Sys2Proof.Claims.preemptSettles : Prop :=
  ∀ (m : Msg) (reg : Registration) (l : Lot) (r : Run) (s : State), s.takes → s.CellsFit → s.passTaken → s.knowsCell m reg →
    m.body = [] → s.namesLot m l → (s.cell m.cell.toNat).stack = [r] → r.namedBy m →
    (s.cell m.cell.toNat).state = .stopping → (s.cell m.cell.toNat).stopReason = some .preempt →
    s.carries m.cell.toNat r → (∀ i, (s.cell m.cell.toNat).incoming = some i → i.handle ≠ r.handle ∧ s.carries m.cell.toNat i) →
    let c := m.cell.toNat
    let h := r.handle
    let marked : Lot := { l with mark := true }
    let goes (u : State) (stays : List Run) : Prop := Machine.exec (.runStopped m) s =
      .next (((u.modCell c fun x => { x with
        stack := x.incoming.toList ++ stays, incoming := none, ctx := none, orderCurrent := false }).cellGoesOn c).enqueue .plant
        (forwardedFrame s Kind.runStopped m m.body)).settle
    let few : Prop := r.segOpen = true → l.segments.length < 4
    (r.stopped = none → l.holds = [] → goes (s.setLot h { marked with state := .preempted }) [{ r with awaiting := false }]) ∧
    (r.stopped = none → l.holds ≠ [] → few → goes (s.becomesHeld h (marked.closedBy r .hold)) []) ∧
    (∀ pass fed, r.stopped = some (pass, fed) →
      let again := (l.fed pass fed).inRetest
      (s.dueRetest l pass → l.holds = [] → goes (s.setLot h { again with state := .preempted })
        [{ r with pass := .retest, awaiting := false, stopped := none }]) ∧
      (s.dueRetest l pass → l.holds ≠ [] → few → goes (s.becomesHeld h (again.closedBy r .hold)) []) ∧
      (¬s.dueRetest l pass →
        let ended := ((s.setLot h (l.fed pass fed)).modCell c fun x => { x with
          stack := [{ r with awaiting := false, stopped := none }], ctx := none }).stepEnd c h
        ∃ l', ended.lot? h = some l' ∧
          (l'.holds ≠ [] → goes (ended.becomesHeld h l') []) ∧
          (l'.holds = [] → l.step + 1 < s.stepCount l.route → goes (ended.joins h (s.atNextStep l')) []) ∧
          (l'.holds = [] → s.stepCount l.route ≤ l.step + 1 → goes (ended.complete h) [])))

/-- RUN_STOPPED takes the run off its cell and closes its segment, if one is open, at tested1: in STOPPING with the cause of the stop
reason, in STARTING, RUNNING or PAUSED with FAULT; a run stopped before any RUN_STARTED closes nothing, and a fourth segment closed
places an EQUIPMENT entry. A lot with hold entries is HELD, and one without joins the dispatch queue WAITING on its step with a new
arrival time. The cell is IDLE, or goes into SETUP for the lower run of its stack, its items judged and ordered as
DispatchPassPairs says (R70, R82, R92, R94, R97). A marked pass end is settled first: a retest due is left pending, and otherwise the
step ends as PassEndEndsPassOrStep says (R93). In a stop for a preemption the lot is PREEMPTED and its run stays beneath the incoming
run, for which the cell goes into SETUP, or resumes when that is withdrawn (R80, R81). One that fails a check of R85 is forwarded,
and only its cell's drop count and latest reason change (R85). The order of lot and cell, the lot state in LOT_HELD and the pass
after the step are the model's own choices, log entries 32, 41 and 10. -/
def Obligations.RunStoppedFreesCell : Prop :=
  Sys2Proof.Claims.stopSettles ∧ Sys2Proof.Claims.preemptSettles ∧
  (∀ (m : Msg) (s : State), s.takes → s.passTaken → s.plantRoom 1 →
    s.dropsAs (.runStopped m) Kind.runStopped m m.body.isEmpty none fun st _ =>
      st = .starting ∨ st = .running ∨ st = .paused ∨ st = .stopping)

/-- A counted first-pass record, full or of a bound context: its figures, the lot's activity mark, the kinds it trips, BIN_COUNTED
and the forwarded record with class, hard bin and outcome. With no kind tripped nothing else changes; lot-wide kinds of a RUNNING
lot make one GUARD hold and request a stop; site kinds take the site out of the enabled set when enough sites remain, and otherwise
make one SITE hold (R55, R100, R103, R105, R109, R110, R112, R115 to R118). -/
def Sys2Proof.Claims.firstPassCounted : Prop :=
  ∀ (m : Msg) (reg : Registration) (l : Lot) (r : Run) (below : List Run) (site soft hard : Byte) (s : State),
    s.takes → s.passTaken → s.knowsCell m reg → s.lot? r.handle = some l → r.inst = (s.slot r.handle).inst → r.pass = .first →
    let c := m.cell.toNat
    let x := s.cell c
    let p := s.profileOf (s.runStep r)
    let mapped := s.mapped r soft
    let enabled := x.enabled.getLsbD site.toNat
    x.stack = r :: below → s.takesRecord c ⟨r.handle, r.inst, r.step, .first⟩ site.toNat r → site.toNat ≤ 15 → hard.toNat ≤ 15 →
    ¬r.passFull l.acc → ∃ a : Acc, countsFirst l.acc a p mapped site.toNat hard.toNat r.segOpen enabled ∧
      let siteKind (t : Trip) : Prop := r.segOpen = true ∧ enabled = true ∧ tripsSite p a mapped.cls site.toNat t
      let answers (u : State) : Prop :=
        let done := u.event .binCounted site.toNat
        (∀ stream sequence sub : Byte, s.namesLot m l → r.namedBy m → m.body = [0, site, soft, hard, stream, sequence, sub] →
          Machine.exec (.bin m) s = .next ((done.afterBin c stream (some r)).sendsPlant
            [forwardedFrame s Kind.bin m ([0, site, soft, hard, stream] ++ mapped.note .counted)])) ∧
        (∀ stay sequence sub : Byte, x.ctx = some ⟨r.handle, r.inst, r.step, .first⟩ →
          m.body = [1, site, soft, hard, stay, sequence, sub] →
          Machine.exec (.binCompact m) s = .next ((if stay = 0 then done.modCell c fun x => { x with ctx := none }
            else done).sendsPlant
            [forwardedFrame s Kind.binCompact m ([1, site, soft, hard, stay] ++ mapped.note .counted)]))
      let tripped (u : State) (kinds : List Trip) : State := kinds.foldl (fun u t => u.event .guardTrip t.code) u
      let kept (kinds : List Trip) (trips : List Trip) : Prop := ∀ t, t ∈ trips ↔ t ∈ a.trips ∨ t ∈ kinds
      let stops : Prop := l.state = .running ∧ (x.state = .running ∨ x.state = .paused) ∧ s.noticesGo ∧ s.plantRoom 2 ∧
        s.floorRoom 1 ∧ s.CellsFit ∧ ∀ d, d < c → (s.cell d).stack.head?.map Run.handle ≠ some r.handle
      ((∀ t, ¬tripsLot p a t) → (∀ t, ¬siteKind t) → s.plantRoom 1 →
        answers (s.setLot r.handle { l with mark := true, acc := a })) ∧
      ((∃ t, tripsLot p a t) → (∀ t, ¬siteKind t) → (∀ e ∈ l.holds, e.reason ≠ .guard) → stops →
        ∃ kinds trips, (∀ t, t ∈ kinds ↔ tripsLot p a t) ∧ kinds.Nodup ∧ kept kinds trips ∧
          answers (((tripped s kinds).heldFor r.handle { l with acc := { a with trips := trips } } .guard .ygd kinds
            .running).stopRequested reg c r .hold)) ∧
      ((∀ t, ¬tripsLot p a t) → (∃ t, siteKind t) → stops →
        ∃ kinds trips, (∀ t, t ∈ kinds ↔ siteKind t) ∧ kinds.Nodup ∧ kept kinds trips ∧
          (p.minSites + 1 ≤ maskCount x.enabled → ∃ left : Mask16,
            (∀ i, i < 16 → left.getLsbD i = (x.enabled.getLsbD i && decide (i ≠ site.toNat))) ∧
            answers ((((((tripped s kinds).setLot r.handle { l with mark := true, acc := { a with trips := trips } }).modCell c
              fun x => { x with enabled := left, reportPending := true }).sendsFloor
              [s.orderFrame reg c none (.siteMask left)]).notifies
              (.siteDemoted c site.toNat left r.handle r.inst)).event .siteDemoted c)) ∧
          (maskCount x.enabled < p.minSites + 1 → (∀ e ∈ l.holds, e.reason ≠ .site) →
            answers (((tripped s kinds).heldFor r.handle { l with acc := { a with trips := trips } } .site .ygd kinds
              .running).stopRequested reg c r .hold)))

/-- A counted retest record adds to tested2, to good2 with class PASS, and to the mismatch and unmapped counts, and to nothing
else; BIN_MISMATCH alone is judged after it, and when it trips makes a GUARD hold and requests a stop (R103, R111, R117). -/
def Sys2Proof.Claims.retestCounted : Prop :=
  ∀ (m : Msg) (reg : Registration) (l : Lot) (r : Run) (below : List Run) (site soft hard stream sequence sub : Byte)
    (s : State), s.takes → s.passTaken → s.knowsCell m reg → s.namesLot m l → r.pass = .retest →
    m.body = [1, site, soft, hard, stream, sequence, sub] → site.toNat ≤ 15 → hard.toNat ≤ 15 →
    let c := m.cell.toNat
    let x := s.cell c
    let p := s.profileOf (s.runStep r)
    let mapped := s.mapped r soft
    x.stack = r :: below → s.takesRecord c ⟨m.handle.toNat, m.inst.toNat, m.step.toNat, .retest⟩ site.toNat r →
    ¬r.passFull l.acc →
    let a : Acc := { l.acc with
      tested2 := l.acc.tested2 + 1
      good2 := l.acc.good2 + (if mapped.cls = .pass then 1 else 0)
      unmapped := if mapped.unmapped then min 65535 (l.acc.unmapped + 1) else l.acc.unmapped
      mismatch := if mapped.unmapped = true ∨ hard.toNat ≠ mapped.hard then min 65535 (l.acc.mismatch + 1)
        else l.acc.mismatch }
    let answers (u : State) : Prop := Machine.exec (.bin m) s =
      .next (((u.event .binCounted site.toNat).afterBin c stream (some r)).sendsPlant
        [forwardedFrame s Kind.bin m ([1, site, soft, hard, stream] ++ mapped.note .counted)])
    (a.mismatch ≤ p.mismatchLimit ∨ Trip.binMismatch ∈ a.waived → s.plantRoom 1 →
      answers (s.setLot r.handle { l with mark := true, acc := a })) ∧
    (p.mismatchLimit < a.mismatch → Trip.binMismatch ∉ a.waived → (∀ e ∈ l.holds, e.reason ≠ .guard) → l.state = .running →
      x.state = .running ∨ x.state = .paused → s.noticesGo → s.plantRoom 2 → s.floorRoom 1 → s.CellsFit →
      (∀ d, d < c → (s.cell d).stack.head?.map Run.handle ≠ some r.handle) →
      ∃ trips, (∀ t, t ∈ trips ↔ t ∈ a.trips ∨ t = .binMismatch) ∧
        answers (((s.event .guardTrip 3).heldFor r.handle { l with acc := { a with trips := trips } } .guard .ygd
          [.binMismatch] .running).stopRequested reg c r .hold))

/-- A full BIN that fails a check of R99 before OVERCOUNT is forwarded with that outcome, draws BIN_DROPPED with its code, and
touches no lot. The stream context alone is cleared, by a clear stream flag in a record of a known cell that is not MALFORMED; a
MALFORMED one leaves it whatever its flag, which is the model's own reading, log entry 20. A body that is not 7
bytes long is forwarded unchanged (R54, R98, R99, R100, R103, R105). -/
def Sys2Proof.Claims.fullRecordRefused : Prop :=
  (∀ (m : Msg) (s : State), s.takes → s.passTaken → s.plantRoom 1 → m.body.length ≠ 7 → Machine.exec (.bin m) s =
    .next ((s.event .binDropped 1).sendsPlant [forwardedFrame s Kind.bin m m.body])) ∧
  (∀ (m : Msg) (p site soft hard stream sequence sub : Byte) (s : State), s.takes → s.passTaken → s.plantRoom 1 →
    m.body = [p, site, soft, hard, stream, sequence, sub] →
    let c := m.cell.toNat
    let answers (u : State) (note : List Byte) : Prop := Machine.exec (.bin m) s =
      .next (u.sendsPlant [forwardedFrame s Kind.bin m ([p, site, soft, hard, stream] ++ note)])
    (1 < p.toNat ∨ 15 < site.toNat ∨ 15 < hard.toNat → answers (s.event .binDropped 1) (unmappedNote .malformed)) ∧
    (∀ pass, readPass p.toNat = some pass → site.toNat ≤ 15 → hard.toNat ≤ 15 →
      ((¬∃ reg, s.knowsCell m reg) → answers (s.event .binDropped 2) (unmappedNote .unknownCell)) ∧
      (∀ reg, s.knowsCell m reg →
        (∀ d, s.missesLot m d → answers ((s.event .binDropped d.code).afterBin c stream none) (unmappedNote d)) ∧
        (∀ l d, s.namesLot m l → s.refusesRecord c ⟨m.handle.toNat, m.inst.toNat, m.step.toNat, pass⟩ site.toNat d →
          let u := (s.event .binDropped d.code).afterBin c stream none
          (d ≠ .siteDisabled → answers u (unmappedNote d)) ∧
          (∀ r, d = .siteDisabled → (s.cell c).stack.head? = some r → answers u ((s.mapped r soft).note d))))))

/-- A BIN_COMPACT with a bad record count or length is forwarded unchanged with one BIN_DROPPED of MALFORMED. A record of an
unknown cell, with a site or hard bin above 15, without a context, or failing checks 6 to 9 of R99, has that outcome; a clear stay
flag clears the context after any record but a malformed one, and the next record of the frame is AFTER_STREAM_END (R103, R104). -/
def Sys2Proof.Claims.compactRecordRefused : Prop :=
  (∀ (m : Msg) (s : State), s.takes → s.passTaken → s.plantRoom 1 →
    (∀ (n : Byte) (records : List Byte), m.body = n :: records →
      n.toNat = 0 ∨ 16 < n.toNat ∨ records.length ≠ 6 * n.toNat) →
    Machine.exec (.binCompact m) s = .next ((s.event .binDropped 1).sendsPlant [forwardedFrame s Kind.binCompact m m.body])) ∧
  (∀ (m : Msg) (site soft hard stay sequence sub : Byte) (s : State), s.takes → s.passTaken → s.plantRoom 1 →
    m.body = [1, site, soft, hard, stay, sequence, sub] →
    let c := m.cell.toNat
    let answers (u : State) (note : List Byte) : Prop := Machine.exec (.binCompact m) s =
      .next (u.sendsPlant [forwardedFrame s Kind.binCompact m ([1, site, soft, hard, stay] ++ note)])
    ((¬∃ reg, s.knowsCell m reg) → answers (s.event .binDropped 2) (unmappedNote .unknownCell)) ∧
    (∀ reg, s.knowsCell m reg →
      (15 < site.toNat ∨ 15 < hard.toNat → answers (s.event .binDropped 1) (unmappedNote .malformed)) ∧
      (site.toNat ≤ 15 → hard.toNat ≤ 15 →
        ((s.cell c).ctx = none → answers (s.event .binDropped 11) (unmappedNote .noContext)) ∧
        (∀ k d, (s.cell c).ctx = some k → s.refusesRecord c k site.toNat d →
          let u := (s.event .binDropped d.code).afterBin c stay none
          (d ≠ .siteDisabled → answers u (unmappedNote d)) ∧
          (∀ r, d = .siteDisabled → (s.cell c).stack.head? = some r → answers u ((s.mapped r soft).note d)))))) ∧
  (∀ (m : Msg) (reg : Registration) (k : Ctx) (d : Drop) (site soft hard q1 q2 site' soft' hard' stay' q3 q4 : Byte)
    (s : State), s.takes → s.passTaken → s.plantRoom 1 → s.knowsCell m reg →
    m.body = [2, site, soft, hard, 0, q1, q2, site', soft', hard', stay', q3, q4] → site.toNat ≤ 15 → hard.toNat ≤ 15 →
    site'.toNat ≤ 15 → hard'.toNat ≤ 15 → (s.cell m.cell.toNat).ctx = some k →
    s.refusesRecord m.cell.toNat k site.toNat d → d ≠ .siteDisabled → Machine.exec (.binCompact m) s =
      .next ((((s.event .binDropped d.code).modCell m.cell.toNat fun x => { x with ctx := none }).event .binDropped
        12).sendsPlant [forwardedFrame s Kind.binCompact m ([2, site, soft, hard, 0] ++ unmappedNote d ++
          [site', soft', hard', stay'] ++ unmappedNote .afterStreamEnd)]))

/-- A record that would count past the units of its pass is OVERCOUNT: it is not counted, the step's quantity mark is set, and
the lot takes a QUANTITY entry, placed by the yield guard, with a stop of reason QUANTITY, or the entry it has counts the repeat
while its stop is pending (R99, R101, R119, R131). -/
def Sys2Proof.Claims.overcountHolds : Prop :=
  ∀ (m : Msg) (reg : Registration) (l : Lot) (r : Run) (below : List Run) (p site soft hard stream sequence sub : Byte)
    (s : State), s.takes → s.passTaken → s.knowsCell m reg → s.namesLot m l → s.CellsFit →
    m.body = [p, site, soft, hard, stream, sequence, sub] → readPass p.toNat = some r.pass → site.toNat ≤ 15 →
    hard.toNat ≤ 15 →
    let c := m.cell.toNat
    let x := s.cell c
    x.stack = r :: below → s.takesRecord c ⟨m.handle.toNat, m.inst.toNat, m.step.toNat, r.pass⟩ site.toNat r →
    r.passFull l.acc → l.state = .running → (∀ d, d < c → (s.cell d).stack.head?.map Run.handle ≠ some r.handle) →
    let marked : Lot := { l with acc := { l.acc with qtyMark := true } }
    let answers (u : State) : Prop := Machine.exec (.bin m) s =
      .next (((u.event .binDropped 10).afterBin c stream none).sendsPlant
        [forwardedFrame s Kind.bin m ([p, site, soft, hard, stream] ++ (s.mapped r soft).note .overcount)])
    (x.state = .running ∨ x.state = .paused → (∀ e ∈ l.holds, e.reason ≠ .quantity) → s.noticesGo → s.plantRoom 2 →
      s.floorRoom 1 →
      answers ((s.heldFor r.handle marked .quantity .ygd [] .running).stopRequested reg c r .quantity)) ∧
    (∀ (before after : List HoldEntry) (e : HoldEntry), x.state = .stopping → l.holds = before ++ e :: after →
      e.reason = .quantity → (l.holds.map HoldEntry.reason).Nodup → s.plantRoom 1 →
      answers ((s.setLot r.handle { marked with
        mark := true
        holds := before ++ { e with repeats := min 255 (e.repeats + 1) } :: after }).event .holdPlaced 3))

/-- Bin records: a first-pass record that passes its checks is counted, with its trips; a retest record is counted; one that
fails a check is refused with its outcome, forwarded with its annotation and told to the counters as BIN_DROPPED, for full and
compact records; and OVERCOUNT places or merges a QUANTITY hold (R54, R98 to R105, R109 to R112, R115 to R119, R204). That a
MALFORMED full BIN leaves the stream context, even with its stream flag clear, and that AFTER_STREAM_END follows only a clear that
found a context, are the model's own readings, log entries 20 and 17. -/
def Obligations.BinRecordIsCounted : Prop :=
  Sys2Proof.Claims.firstPassCounted ∧ Sys2Proof.Claims.retestCounted ∧ Sys2Proof.Claims.fullRecordRefused ∧
    Sys2Proof.Claims.compactRecordRefused ∧ Sys2Proof.Claims.overcountHolds

/-! ### Holds, dispositions, shipment and queries -/

/-- What an ENGINEERING entry does to a lot without entries that is not WAITING and has no run STARTING, RUNNING or PAUSED (R131 to
R133). A run in SETUP is removed, an open segment closed HOLD and its load order standing, and the cell goes on to a lower run or is
IDLE; an incoming run is withdrawn; a PREEMPTED lot's run leaves from beneath the incoming lot's; a COMPLETE lot leaves the
release-pending set and has target COMPLETE. Each lot is HELD. In STOPPING nothing more is sent and the lot keeps its state. -/
def Sys2Proof.Claims.holdRemovesRun : Prop :=
  ∀ (m : Msg) (tag : Nat) (rest : List Byte) (note : Option Nat) (l : Lot) (s : State), s.accepts m tag rest →
    readHold rest = some note → s.namesLot m l → s.passTaken → s.noticesGo → s.plantRoom 2 → s.CellsFit → l.holds = [] →
    let h := m.handle.toNat
    let top (d : Nat) : Option Nat := (s.cell d).stack.head?.map Run.handle
    let under (d : Nat) : Prop := ∃ q ∈ (s.cell d).stack.tail, q.handle = h
    let incoming (d : Nat) : Option Nat := (s.cell d).incoming.map Run.handle
    let e : HoldEntry := ⟨.engineering, s.now, .plant, [], 1, note⟩
    let noted (target : Target) : Lot := { l with holds := [e], target := some target, mark := true }
    let placed (target : Target) (after : LotState) : State := ((s.setLot h (noted target)).event .holdPlaced 4).notifies
      (.lotHeld ⟨h, m.inst.toNat, l.name, groupOf h⟩ (s.group (groupOf h)).family e after (some target))
    let answers (u : State) (st : LotState) (target : Target) : Prop :=
      Machine.exec (.hold m) s = .next (u.answers Kind.hold m tag .ok (.hold st 1 1 (some target))).settle
    let held := placed .resume .held
    (∀ c r below, c < 48 → (s.cell c).state = .setup → (s.cell c).stack = r :: below → r.handle = h →
      (∀ d, d < c → top d ≠ some h) → l.state = .assigned → (r.segOpen = true → l.segments.length < 4) →
      (∀ low ∈ below, low.handle ≠ h ∧ s.carries c low) →
      answers (((held.becomesHeld h ((noted .resume).closedBy r .hold)).modCell c fun x => { x with
        stack := below, ctx := none, orderCurrent := false }).cellGoesOn c) .held .resume) ∧
    (∀ c, c < 48 → (∀ d, d < 48 → top d ≠ some h) → (∀ d, d < c → incoming d ≠ some h) → incoming c = some h →
      l.state = .assigned →
      answers ((held.becomesHeld h (noted .resume)).modCell c fun x => { x with incoming := none, ctx := none }) .held .resume) ∧
    (∀ c r low, c < 48 → (s.cell c).stack = [r, low] → low.handle = h → r.handle ≠ h → (∀ d, d < c → ¬under d) →
      l.state = .preempted → (low.segOpen = true → l.segments.length < 4) →
      answers ((held.becomesHeld h ((noted .resume).closedBy low .hold)).modCell c fun x => { x with
        stack := [r], ctx := none }) .held .resume) ∧
    (l.state = .complete → answers ((placed .complete .held).becomesHeld h (noted .complete)) .held .complete) ∧
    (∀ c, c < 48 → (s.cell c).state = .stopping → top c = some h → (∀ d, d < c → top d ≠ some h) →
      l.state = .assigned ∨ l.state = .running → answers (placed .resume l.state) l.state .resume)

/-- A HOLD places an ENGINEERING entry. A WAITING lot leaves the dispatch queue and is HELD; the cell of a lot at its top run in
STARTING, RUNNING or PAUSED is sent STOP_RUN with reason HOLD and the lot keeps its state; a run in SETUP, an incoming run and the
run of a PREEMPTED lot are removed and the lot is HELD; a COMPLETE lot leaves the release-pending set and is HELD; on a HELD lot a
second ENGINEERING hold is merged without notice; a RELEASED lot is refused LOT_RELEASED. A new entry sends LOT_HELD, and the
REPLY carries state, repeat count, entries and return target (R131 to R133, R136). That LOT_HELD goes before the REPLY is the
model's own choice, log entry 42. That a pass started is taken last, after the frames the command sends, is the model's own
reading, log entry 10. -/
def Obligations.HoldPlacesEngineeringEntry : Prop :=
  Sys2Proof.Claims.holdRemovesRun ∧ ∀ (m : Msg) (tag : Nat) (rest : List Byte) (note : Option Nat) (l : Lot) (s : State), s.accepts m tag rest →
    readHold rest = some note → s.namesLot m l → s.passTaken → s.noticesGo → s.plantRoom 2 →
    let h := m.handle.toNat
    let e : HoldEntry := ⟨.engineering, s.now, .plant, [], 1, note⟩
    let named : LotRef := ⟨h, m.inst.toNat, l.name, groupOf h⟩
    let family := (s.group (groupOf h)).family
    (l.state = .released → Machine.exec (.hold m) s = .next (s.answers Kind.hold m tag .lotReleased .empty)) ∧
    (l.state = .waiting → l.holds = [] → Machine.exec (.hold m) s =
      .next (((({ s with
          dar := { s.dar with queue := s.dar.queue.filter fun x => x.handle != h }
          rlu := { s.rlu with pend := s.rlu.pend.filter fun x => x.handle != h } } : State).setLot h { l with
          state := .held, holds := [e], target := some .resume, mark := true, relPending := false }).event .holdPlaced
          4).notifies (.lotHeld named family e .held (some .resume)) |>.answers Kind.hold m tag .ok
          (.hold .held 1 1 (some .resume)))) ∧
    (∀ (c : Nat) (reg : Registration) (r : Run) (below : List Run), c < 48 → s.CellsFit → s.reg? c = some reg →
      (s.cell c).stack = r :: below → r.handle = h → (∀ d, d < c → (s.cell d).stack.head?.map Run.handle ≠ some h) →
      l.holds = [] → s.floorRoom 1 →
      l.state = .running ∧ ((s.cell c).state = .running ∨ (s.cell c).state = .paused) ∨
        l.state = .running ∧ (s.cell c).state = .starting ∨ l.state = .assigned ∧ (s.cell c).state = .starting →
      Machine.exec (.hold m) s =
        .next (((((s.setLot h { l with holds := [e], target := some .resume, mark := true }).event .holdPlaced 4).notifies
          (.lotHeld named family e l.state (some .resume))).stopRequested reg c r .hold).answers Kind.hold m tag .ok
          (.hold l.state 1 1 (some .resume)))) ∧
    (∀ old : HoldEntry, l.state = .held → l.holds = [old] → old.reason = .engineering → Machine.exec (.hold m) s =
      .next (((s.setLot h { l with
          mark := true, holds := [{ old with repeats := min 255 (old.repeats + 1), note := note.or old.note }] }).event
          .holdPlaced 4).answers Kind.hold m tag .ok (.hold .held (min 255 (old.repeats + 1)) 1 l.target)))

/-- CONTINUE of the only entry of a HELD lot sends it to its return target, which is ADVANCE for a GUARD entry with FINAL_LOW whose
step has closed (R125, R141, R144, R152): RESUME to WAITING on its step; ADVANCE to the next step, or to COMPLETE after the last;
COMPLETE to COMPLETE, where it is evaluated again, a waived RELEASE_LOW skipped. The REPLY gives what then stands. That after a
REWORK a FINAL_LOW entry does not advance, that a waiver marks the closed summary, and that notices go before the REPLY are the
model's own choices, log entries 22, 31 and 42. -/
def Sys2Proof.Claims.continueSendsOn : Prop :=
  ∀ (m : Msg) (tag : Nat) (rest : List Byte) (l : Lot) (e : HoldEntry) (s : State), s.accepts m tag rest →
    readRelease rest = some (e.reason, .continue_) → s.namesLot m l → s.passTaken → s.plantRoom 1 →
    s.noStopPending m.handle.toNat → l.holds = [e] → l.state = .held → e.reason ≠ .family →
    let h := m.handle.toNat
    let target := if e.reason = .guard ∧ Trip.finalLow ∈ e.trips ∧ (∃ y ∈ l.summaries, y.step = l.step) then some Target.advance
      else l.target
    let last := s.stepCount l.route ≤ l.step + 1
    ∃ l' : Lot, l.continuedBy e l' ∧
      let rejoins (k : Lot) : Prop := Machine.exec (.releaseContinue m) s = .next (((s.joins h k).event .holdReleased
        e.reason.code).answers Kind.release m tag .ok (.release .waiting 0 none)).settle
      let completes : Prop := ∃ (u : State) (k : Lot), u = ((s.setLot h l').event .holdReleased e.reason.code).complete h ∧
        u.lot? h = some k ∧ Machine.exec (.releaseContinue m) s = .next (u.enqueue .plant
          (s.replyFrame Kind.release m tag .ok (.release k.state k.holds.length k.target)))
      (target = some .resume → rejoins { l' with state := .waiting, arrival := s.now }) ∧
      (target = some .advance → ¬last → rejoins (s.atNextStep l')) ∧ (target = some .advance → last → completes) ∧
      (target = some .complete → completes)

/-- A RELEASE is refused BUSY while the lot's stop is pending, NOT_HELD without an entry of the reason, FAMILY_LOCKED for a
FAMILY entry and BAD_DISPOSITION for a second REWORK of a step. CONTINUE removes the entry and leaves the others; CONTINUE of the
last entry sends a HELD lot to its return target: WAITING with a new arrival time, on its step or the next, or COMPLETE, where it is
evaluated. Of a GUARD entry it waives the waivable trips and RELEASE_LOW and empties the window, and with FINAL_LOW it advances the
lot. REWORK restarts the step, keeping its entering quantity and units_in (R125, R126, R140 to R144, R152). That a FINAL_LOW entry
does not advance a reworked step, that a waiver marks the closed summary, that notices go before the REPLY, and the pass after
it are the model's own choices, log entries 22, 31, 42 and 10. -/
def Obligations.ReleaseDisposesOfEntry : Prop :=
  Sys2Proof.Claims.continueSendsOn ∧
  ∀ (m : Msg) (tag : Nat) (rest : List Byte) (reason : HoldReason) (d : Disposition) (l : Lot) (s : State),
    s.accepts m tag rest → readRelease rest = some (reason, d) → s.namesLot m l → s.passTaken → s.plantRoom 1 →
    let h := m.handle.toNat
    let refuses (code : ReplyCode) : Prop :=
      Machine.exec (.releaseContinue m) s = .next (s.answers Kind.release m tag code .empty) ∧
      Machine.exec (.releaseRework m) s = .next (s.answers Kind.release m tag code .empty) ∧
      Machine.exec (.releaseScrap m) s = .next (s.answers Kind.release m tag code .empty)
    (∀ c, c < 48 → (s.cell c).stack.head?.map Run.handle = some h → (s.cell c).state = .stopping →
      (∀ b, b < c → (s.cell b).stack.head?.map Run.handle ≠ some h) → refuses .busy) ∧
    (s.noStopPending h → (∀ e ∈ l.holds, e.reason ≠ reason) → refuses .notHeld) ∧
    (s.noStopPending h → (∃ e ∈ l.holds, e.reason = reason) → reason = .family → refuses .familyLocked) ∧
    (s.noStopPending h → (∃ e ∈ l.holds, e.reason = reason) → reason ≠ .family → d = .rework →
      vget l.reworked false l.step = true → refuses .badDisposition) ∧
    (∀ (before after : List HoldEntry) (e : HoldEntry), s.noStopPending h → l.holds = before ++ e :: after →
      e.reason = reason → (l.holds.map HoldEntry.reason).Nodup → before ++ after ≠ [] → d = .continue_ → reason ≠ .family →
      ∃ l' : Lot, ({ l with holds := [e] } : Lot).continuedBy e { l' with holds := [], target := none } ∧
        l'.holds = before ++ after ∧ l'.target = (if reason = .guard ∧ Trip.finalLow ∈ e.trips ∧
          (∃ y ∈ l.summaries, y.step = l.step) then some .advance else l.target) ∧
        Machine.exec (.releaseContinue m) s = .next (((s.setLot h l').event .holdReleased reason.code).answers Kind.release m
          tag .ok (.release l.state (before ++ after).length l'.target))) ∧
    (∀ e : HoldEntry, s.noStopPending h → l.holds = [e] → e.reason = reason → l.state = .held → d = .rework →
      reason ≠ .family → vget l.reworked false l.step = false →
      let l' : Lot := { l with
        state := .waiting
        pass := .first
        acc := Acc.start l.acc.entering l.acc.unitsIn
        segments := []
        summaries := l.summaries.filter fun x => x.step != l.step
        holds := []
        target := none
        reworked := vmod l.reworked l.step fun _ => true
        arrival := s.now
        mark := true
        completion := none }
      Machine.exec (.releaseRework m) s = .next (((s.joins h l').event .holdReleased reason.code).answers Kind.release m tag .ok
        (.release .waiting 0 none)).settle)

/-- A lot whose last step has closed is COMPLETE with its completion time, and LOT_COMPLETE is sent; then it is evaluated. A ship
quantity below the route's release floor, unless RELEASE_LOW is waived, places a GUARD entry with RELEASE_LOW, and an unreconciled
summary a QUANTITY entry, and the lot is HELD with return target COMPLETE. Otherwise it is released: its record joins the ship
queue, the lot is RELEASED, and SHIP_READY and LOT_RELEASED follow; with the ship queue full it joins the release-pending set
(R148 to R151, R153, R156, R157). -/
def Sys2Proof.Claims.completeEvaluates : Prop :=
  ∀ (s : State) (h : Nat) (l : Lot) (x : Route), s.lot? h = some l → l.holds = [] → s.route? l.route = some x →
    s.noticesGo →
    let time := l.completion.getD s.now
    let complete : Lot := { l with state := .complete, completion := some time }
    let told := (s.setLot h complete).notifies (.lotComplete (s.named h l) l.route l.qty time l.shipQty l.cumYield)
    let low := l.shipQty * 1000 < x.releaseFloor * l.qty ∧ Trip.releaseLow ∉ l.acc.waived
    let openSummary := ∃ y ∈ l.summaries, y.reconciled = false
    let others := s.rlu.pend.filter fun y => y.handle != h
    let held (u : State) (l' : Lot) : State :=
      { u.setLot h { l' with state := .held, relPending := false } with rlu := ⟨s.rlu.ship, others⟩ }
    let guard := (told.event .guardTrip 9).heldFor h complete .guard .ygd [.releaseLow] .held
    (¬low → ¬openSummary → s.rlu.ship.length < 64 → s.plantRoom 2 →
      let record := s.recordOf h l
      s.complete h = (({ told.setLot h { complete with state := .released, relPending := false } with
        rlu := ⟨joinRecord record s.rlu.ship, others⟩ } : State).notifies (.shipReady record)).event .lotReleased l.cumYield) ∧
    (¬low → ¬openSummary → 64 ≤ s.rlu.ship.length → s.plantRoom 1 →
      s.complete h = { told.setLot h { complete with relPending := true } with
        rlu := ⟨s.rlu.ship, joinPend ⟨h, (s.slot h).inst, time⟩ others⟩ }) ∧
    (low → ¬openSummary → s.plantRoom 2 → ∃ l', guard.lot? h = some l' ∧ s.complete h = held guard l') ∧
    (¬low → openSummary → s.plantRoom 2 →
      let quantity := told.heldFor h complete .quantity .ygd [] .held
      ∃ l', quantity.lot? h = some l' ∧ s.complete h = held quantity l') ∧
    (low → openSummary → s.plantRoom 3 → ∃ l' l'', guard.lot? h = some l' ∧
      let both := guard.heldFor h l' .quantity .ygd [] .held
      both.lot? h = some l'' ∧ s.complete h = held both l'')

/-- SCRAP removes every entry of the lot, sends LOT_SCRAPPED and frees the slot, whose number goes on from 255 to 1. A lot after
its last step is COMPLETE and is held, released or left pending by its evaluation. SHIP_CONFIRM of a RELEASED lot takes its record
from the ship queue and frees its slot, and the room lets a pending lot that passes evaluation be released; of any other lot it is
refused NOT_RELEASED (R9, R10, R143, R148 to R151, R159, R160). -/
def Obligations.ScrapAndConfirmFreeSlot : Prop :=
  Sys2Proof.Claims.completeEvaluates ∧ ∀ (m : Msg) (tag : Nat) (rest : List Byte) (l : Lot) (s : State), s.accepts m tag rest → s.namesLot m l → s.passTaken →
    let h := m.handle.toNat
    (∀ reason, readRelease rest = some (reason, .scrap) → s.noStopPending h → (∃ e ∈ l.holds, e.reason = reason) →
      reason ≠ .family → s.noticesGo → s.plantRoom 2 →
      Machine.exec (.releaseScrap m) s =
        .next (((l.holds.foldl (fun s e => s.event .holdReleased e.reason.code) (s.slotFreed h l)).notifies
          (.lotScrapped ⟨h, m.inst.toNat, l.name, groupOf h⟩ (s.group (groupOf h)).family l.holds l.summaries
            l.acc)).answers Kind.release m tag .ok (.scrap h m.inst.toNat))) ∧
    (rest = [] → l.state ≠ .released → s.plantRoom 1 →
      Machine.exec (.shipConfirm m) s = .next (s.answers Kind.shipConfirm m tag .notReleased .empty)) ∧
    (rest = [] → l.state = .released → s.rlu.pend = [] → s.plantRoom 1 →
      let ship := s.rlu.ship.filter fun r => r.handle != h
      Machine.exec (.shipConfirm m) s = .next (({ s.slotFreed h l with rlu := ⟨ship, []⟩ } : State).answers Kind.shipConfirm m
        tag .ok (.shipConfirm h m.inst.toNat 0 ship.length))) ∧
    (∀ (p : PendMember) (q : Lot) (x : Route), rest = [] → l.state = .released → s.rlu.pend = [p] → p.handle ≠ h →
      s.lot? p.handle = some q → s.route? q.route = some x → ¬(q.shipQty * 1000 < x.releaseFloor * q.qty) →
      (∀ y ∈ q.summaries, y.reconciled = true) → s.noticesGo → s.plantRoom 2 →
      let ship := s.rlu.ship.filter fun r => r.handle != h
      let record := s.recordOf p.handle q
      ship.length < 64 →
      Machine.exec (.shipConfirm m) s =
        .next (((((({ s.slotFreed h l with rlu := ⟨joinRecord record ship, []⟩ } : State).setLot p.handle
          { q with state := .released, relPending := false }).notifies (.shipReady record)).event .lotReleased
          q.cumYield).answers Kind.shipConfirm m tag .ok (.shipConfirm h m.inst.toNat 1 (ship.length + 1)))))

/-- What a FAMILY entry does to a lot that has none (R131 to R133): it is placed, counted and told by LOT_HELD; a WAITING lot leaves
the dispatch queue and is HELD, a COMPLETE one leaves the release-pending set and is HELD, a HELD one takes the entry, and a RUNNING
one has its stop requested and stays RUNNING. -/
def Sys2Proof.Claims.familyPlaced : Prop :=
  ∀ (s : State) (h : Nat) (l : Lot), s.lot? h = some l → (∀ e ∈ l.holds, e.reason ≠ .family) → s.noticesGo → s.plantRoom 1 →
    let placed (after : LotState) : State := s.heldFor h l .family .plant [] after
    let u := s.placeHold h ⟨.family, .plant, [], none⟩
    let isHeld (v : State) : Prop := ∃ l', v.lot? h = some l' ∧ (∃ e ∈ l'.holds, e.reason = .family) ∧ u = v.becomesHeld h l'
    (l.state = .waiting → isHeld { placed .held with
      dar := { s.dar with queue := s.dar.queue.filter fun x => x.handle != h } }) ∧
    (l.state = .complete → isHeld (placed .held)) ∧ (l.state = .held → u = placed .held) ∧
    (∀ c reg r below, l.state = .running → c < 48 → s.CellsFit → s.reg? c = some reg → (s.cell c).stack = r :: below →
      r.handle = h → (∀ d, d < c → (s.cell d).stack.head?.map Run.handle ≠ some h) →
      (s.cell c).state = .starting ∨ (s.cell c).state = .running ∨ (s.cell c).state = .paused → s.floorRoom 1 →
      u = (placed .running).stopRequested reg c r .hold)

/-- What the end of a FAMILY hold does to a lot (R132, R138, R144, R147): its FAMILY entry is removed and counted; when none is left
the target is discarded and a HELD lot goes to it, and a lot whose stop is pending keeps its state. -/
def Sys2Proof.Claims.familyDropped : Prop :=
  ∀ (s : State) (h : Nat) (l : Lot), s.lot? h = some l →
    let left := l.holds.filter fun e => e.reason != .family
    let bare : Lot := { l with holds := [], target := none }
    let dropped (k : Lot) : State := (s.setLot h k).event .holdReleased 5
    let u := s.dropFamily h
    (left ≠ [] → u = dropped { l with holds := left }) ∧
    (left = [] → l.state ≠ .held → u = dropped bare) ∧
    (left = [] → l.state = .held →
      (l.target = some .resume → u = (dropped bare).joins h { bare with state := .waiting, arrival := s.now }) ∧
      (l.target = some .advance → l.step + 1 < s.stepCount l.route → u = (dropped bare).joins h (s.atNextStep bare)) ∧
      (l.target = some .advance → s.stepCount l.route ≤ l.step + 1 → u = (dropped bare).complete h) ∧
      (l.target = some .complete → u = (dropped bare).complete h))

/-- A group request for an unbound group or one above 31 is refused UNKNOWN_GROUP. GROUP_HOLD makes the group HELD, with retire
pending from RETIRED, and gives every live lot that is not RELEASED a FAMILY entry with its LOT_HELD, in ascending order;
GROUP_RELEASE ends that, leaving no FAMILY entry in the group and sending a lot whose list empties to its target, and is refused
NOT_HELD in another state. The REPLY carries the numbers of lots. Lots of other groups stand, but for a lot that a cell in SETUP for
a lot of the group goes on to. GROUP_RETIRE retires an OPEN group and marks a HELD one (R7, R133, R137 to R139, R144). That
retire pending is cleared outside HELD, that notices go before the REPLY, and the pass after it are the model's own choices, log
entries 47, 42 and 10. -/
def Obligations.GroupRequestsMoveGroup : Prop :=
  Sys2Proof.Claims.familyPlaced ∧ Sys2Proof.Claims.familyDropped ∧
  ∀ (m : Msg) (tag g : Nat) (rest : List Byte) (s : State), s.accepts m tag rest → readGroupArg rest = some g →
    s.passTaken → s.plantRoom 1 →
    let x := s.group g
    (31 < g ∨ x.state = .unbound →
      Machine.exec (.groupHold m) s = .next (s.answers Kind.groupHold m tag .unknownGroup .empty) ∧
      Machine.exec (.groupRelease m) s = .next (s.answers Kind.groupRelease m tag .unknownGroup .empty) ∧
      Machine.exec (.groupRetire m) s = .next (s.answers Kind.groupRetire m tag .unknownGroup .empty)) ∧
    (g ≤ 31 → x.state = .held →
      Machine.exec (.groupHold m) s = .next (s.answers Kind.groupHold m tag .ok (.groupHold 0))) ∧
    (g ≤ 31 → x.state = .opened ∨ x.state = .retired → ∃ (u : State) (lots : List Nat),
      lots.Pairwise (· < ·) ∧ (∀ h, h ∈ lots ↔ groupOf h = g ∧ ∃ l, s.lot? h = some l ∧ l.state ≠ .released) ∧
      u = lots.foldl (fun v h => v.placeHold h ⟨.family, .plant, [], none⟩)
        (s.modGroup g fun x => { x with state := .held, retirePending := decide (x.state = .retired) }) ∧
      Machine.exec (.groupHold m) s =
        .next (u.enqueue .plant (s.replyFrame Kind.groupHold m tag .ok (.groupHold lots.length))).settle ∧
      u.group g = { x with state := .held, retirePending := decide (x.state = .retired) } ∧
      (∀ k, k ≠ g → u.group k = s.group k) ∧ u.scn = s.scn ∧ u.tbs = s.tbs ∧ u.pending = s.pending ∧
      (∀ h ∈ lots, ∃ l', u.lot? h = some l' ∧ ∃ e ∈ l'.holds, e.reason = .family) ∧
      (∀ k, k ∉ lots → (∀ c, c < 48 → ∀ r ∈ (s.cell c).stack.tail, r.handle ≠ k) → u.slot k = s.slot k)) ∧
    (g ≤ 31 → x.state = .opened ∨ x.state = .retired →
      Machine.exec (.groupRelease m) s = .next (s.answers Kind.groupRelease m tag .notHeld .empty)) ∧
    (g ≤ 31 → x.state = .held → ∃ (u : State) (lots : List Nat) (emptied : Nat),
      lots.Pairwise (· < ·) ∧
      (∀ h, h ∈ lots ↔ groupOf h = g ∧ ∃ l, s.lot? h = some l ∧ ∃ e ∈ l.holds, e.reason = .family) ∧
      emptied = lots.countP (fun h => (s.lot? h).all fun l => l.holds.all fun e => e.reason == .family) ∧
      u = lots.foldl (fun v h => v.dropFamily h)
        (s.modGroup g fun x => { x with state := if x.retirePending then .retired else .opened, retirePending := false }) ∧
      Machine.exec (.groupRelease m) s =
        .next (u.enqueue .plant (s.replyFrame Kind.groupRelease m tag .ok (.groupRelease lots.length emptied))).settle ∧
      u.group g = { x with state := if x.retirePending then .retired else .opened, retirePending := false } ∧
      (∀ k, k ≠ g → u.group k = s.group k) ∧ u.scn = s.scn ∧ u.tbs = s.tbs ∧ u.pending = s.pending ∧
      (∀ h l, groupOf h = g → u.lot? h = some l → ∀ e ∈ l.holds, e.reason ≠ .family) ∧
      (∀ k, k ∉ lots → u.slot k = s.slot k)) ∧
    (g ≤ 31 → x.state ≠ .unbound → Machine.exec (.groupRetire m) s = .next ((s.modGroup g fun x => { x with
      state := if x.state = .opened then .retired else x.state
      retirePending := if x.state = .held then true else x.retirePending }).answers Kind.groupRetire m tag .ok .empty))

/-- Each query answers from the state as it stands and changes nothing but the plant-bound queue, except a COUNTERS query with
its clear flag set, which sets every counter to 0 after reading it and leaves the last-condition records; a CELL query of a cell
above 47 is refused BAD_ENTRY (R176 to R179, R200). -/
def Obligations.QueriesAnswerFromState : Prop :=
  ∀ (m : Msg) (tag : Nat) (rest : List Byte) (s : State), s.accepts m tag rest → s.passTaken → s.plantRoom 1 →
    let h := m.handle.toNat
    (∀ l start, readQuery rest = some (.lot start) → s.namesLot m l → ∃ frozen, Machine.exec (.queryLot m) s =
        .next (s.answers Kind.query m tag .ok (.lot ⟨l,
          if l.state = .complete ∨ l.state = .released then some (l.shipQty, l.cumYield) else none, frozen,
          (l.summaries.drop start).take 2, decide (start + 2 < l.summaries.length)⟩)) ∧
      (∀ c, s.runCell h = some c → ∀ i, i < 16 → frozen.getLsbD i = !(s.cell c).enabled.getLsbD i)) ∧
    (∀ c, readQuery rest = some (.cell c) →
      (c < 48 → Machine.exec (.queryCell m) s =
        .next (s.answers Kind.query m tag .ok (.cell (s.cell c) (s.reg? c)))) ∧
      (47 < c → Machine.exec (.queryCell m) s = .next (s.answers Kind.query m tag .badEntry .empty))) ∧
    (∀ start, readQuery rest = some (.queue start) → Machine.exec (.queryQueue m) s =
      .next (s.answers Kind.query m tag .ok (.queue s.dar.queue.length
        (((s.dar.queue.drop start).take 256).map fun x => (x.handle, x.inst)) (decide (start + 256 < s.dar.queue.length))))) ∧
    (∀ r p, readQuery rest = some (.ship r p) → Machine.exec (.queryShip m) s =
      .next (s.answers Kind.query m tag .ok (.ship s.rlu.ship.length ((s.rlu.ship.drop r).take 4)
        (decide (r + 4 < s.rlu.ship.length)) ((s.rlu.pend.drop p).take 64) (decide (p + 64 < s.rlu.pend.length))
        s.rlu.pend.length))) ∧
    (∀ clear, readQuery rest = some (.counters clear) → ∃ rows : List (Nat × Option (Source × CounterMode)),
      Machine.exec (.queryCounters m) s =
        .next (({ s with fcn := { s.fcn with
          values := if clear then Vector.replicate 8 0 else s.fcn.values } } : State).answers Kind.query m tag .ok
          (.counters rows)) ∧
      rows.length = 8 ∧ ∀ i, i < 8 → rows[i]? = some (vget s.fcn.values 0 i,
        (vget s.tst.counters none i).map fun cfg => (cfg.source, cfg.mode))) ∧
    (readQuery rest = some .part → ∃ r : PartReport,
      Machine.exec (.queryPart m) s = .next (s.answers Kind.query m tag .ok (.part r)) ∧ r.mode = s.tbs.mode ∧
      r.floorTime = s.tbs.floorTime ∧ r.timeRejected = s.tbs.timeRejected ∧ r.inhibited = s.tbs.inhibited ∧
      r.ready = s.tbs.ready ∧ r.check = s.scn.check ∧ r.floorDepth = s.pcl.floorQ.length ∧
      r.plantDepth = s.pcl.plantQ.length ∧ r.noticeSeq = s.pcl.noticeSeq ∧ r.discards = s.pcl.discards ∧
      r.address = Config.stationAddress ∧ r.level = s.tst.settings.inhibit ∧
      ((∀ op ∈ s.scn.work, op.isWrite = false) → r.storeBusy = none) ∧
      (∀ before ref table entry e note phase after, s.scn.work = before ++ .write ref table entry e note phase :: after →
        (∀ op ∈ before, op.isWrite = false) → r.storeBusy = some (table, entry)) ∧
      r.floorCounts = [s.pcl.floorDrops, s.pcl.floorMalformed, s.pcl.floorNotTaken] ∧
      r.plantCounts = [s.pcl.plantDrops, s.pcl.plantMalformed, s.pcl.notManager, s.pcl.misdirected, s.pcl.interlock,
        s.pcl.startupDrops])
end

