-- ==== Sys2Proof/Laws/State.lean ====
section
/-! SUPPORT. What each elementary update of the state leaves as it was, block by block: a proof about a longer
operation rewrites with these and never unfolds a record update. -/

namespace Sys2Proof.Machine

set_option Elab.async false

variable (s : State)


/-! modSlot -/

@[simp] theorem State.modSlot_pending (h : Nat) (f : Slot → Slot) : (s.modSlot h f).pending = s.pending := rfl
@[simp] theorem State.modSlot_pcl (h : Nat) (f : Slot → Slot) : (s.modSlot h f).pcl = s.pcl := rfl
@[simp] theorem State.modSlot_tst (h : Nat) (f : Slot → Slot) : (s.modSlot h f).tst = s.tst := rfl
@[simp] theorem State.modSlot_ctr (h : Nat) (f : Slot → Slot) : (s.modSlot h f).ctr = s.ctr := rfl
@[simp] theorem State.modSlot_dar (h : Nat) (f : Slot → Slot) : (s.modSlot h f).dar = s.dar := rfl
@[simp] theorem State.modSlot_rlu (h : Nat) (f : Slot → Slot) : (s.modSlot h f).rlu = s.rlu := rfl
@[simp] theorem State.modSlot_scn (h : Nat) (f : Slot → Slot) : (s.modSlot h f).scn = s.scn := rfl
@[simp] theorem State.modSlot_tbs (h : Nat) (f : Slot → Slot) : (s.modSlot h f).tbs = s.tbs := rfl
@[simp] theorem State.modSlot_fcn (h : Nat) (f : Slot → Slot) : (s.modSlot h f).fcn = s.fcn := rfl

/-! modLot -/

@[simp] theorem State.modLot_pending (h : Nat) (f : Lot → Lot) : (s.modLot h f).pending = s.pending := rfl
@[simp] theorem State.modLot_pcl (h : Nat) (f : Lot → Lot) : (s.modLot h f).pcl = s.pcl := rfl
@[simp] theorem State.modLot_tst (h : Nat) (f : Lot → Lot) : (s.modLot h f).tst = s.tst := rfl
@[simp] theorem State.modLot_ctr (h : Nat) (f : Lot → Lot) : (s.modLot h f).ctr = s.ctr := rfl
@[simp] theorem State.modLot_dar (h : Nat) (f : Lot → Lot) : (s.modLot h f).dar = s.dar := rfl
@[simp] theorem State.modLot_rlu (h : Nat) (f : Lot → Lot) : (s.modLot h f).rlu = s.rlu := rfl
@[simp] theorem State.modLot_scn (h : Nat) (f : Lot → Lot) : (s.modLot h f).scn = s.scn := rfl
@[simp] theorem State.modLot_tbs (h : Nat) (f : Lot → Lot) : (s.modLot h f).tbs = s.tbs := rfl
@[simp] theorem State.modLot_fcn (h : Nat) (f : Lot → Lot) : (s.modLot h f).fcn = s.fcn := rfl

/-! modAcc -/

@[simp] theorem State.modAcc_pending (h : Nat) (f : Acc → Acc) : (s.modAcc h f).pending = s.pending := rfl
@[simp] theorem State.modAcc_pcl (h : Nat) (f : Acc → Acc) : (s.modAcc h f).pcl = s.pcl := rfl
@[simp] theorem State.modAcc_tst (h : Nat) (f : Acc → Acc) : (s.modAcc h f).tst = s.tst := rfl
@[simp] theorem State.modAcc_ctr (h : Nat) (f : Acc → Acc) : (s.modAcc h f).ctr = s.ctr := rfl
@[simp] theorem State.modAcc_dar (h : Nat) (f : Acc → Acc) : (s.modAcc h f).dar = s.dar := rfl
@[simp] theorem State.modAcc_rlu (h : Nat) (f : Acc → Acc) : (s.modAcc h f).rlu = s.rlu := rfl
@[simp] theorem State.modAcc_scn (h : Nat) (f : Acc → Acc) : (s.modAcc h f).scn = s.scn := rfl
@[simp] theorem State.modAcc_tbs (h : Nat) (f : Acc → Acc) : (s.modAcc h f).tbs = s.tbs := rfl
@[simp] theorem State.modAcc_fcn (h : Nat) (f : Acc → Acc) : (s.modAcc h f).fcn = s.fcn := rfl

/-! setLotState -/

@[simp] theorem State.setLotState_pending (h : Nat) (st : LotState) : (s.setLotState h st).pending = s.pending := rfl
@[simp] theorem State.setLotState_pcl (h : Nat) (st : LotState) : (s.setLotState h st).pcl = s.pcl := rfl
@[simp] theorem State.setLotState_tst (h : Nat) (st : LotState) : (s.setLotState h st).tst = s.tst := rfl
@[simp] theorem State.setLotState_ctr (h : Nat) (st : LotState) : (s.setLotState h st).ctr = s.ctr := rfl
@[simp] theorem State.setLotState_dar (h : Nat) (st : LotState) : (s.setLotState h st).dar = s.dar := rfl
@[simp] theorem State.setLotState_rlu (h : Nat) (st : LotState) : (s.setLotState h st).rlu = s.rlu := rfl
@[simp] theorem State.setLotState_scn (h : Nat) (st : LotState) : (s.setLotState h st).scn = s.scn := rfl
@[simp] theorem State.setLotState_tbs (h : Nat) (st : LotState) : (s.setLotState h st).tbs = s.tbs := rfl
@[simp] theorem State.setLotState_fcn (h : Nat) (st : LotState) : (s.setLotState h st).fcn = s.fcn := rfl

/-! dropTarget -/

@[simp] theorem State.dropTarget_pending (h : Nat) : (s.dropTarget h).pending = s.pending := rfl
@[simp] theorem State.dropTarget_pcl (h : Nat) : (s.dropTarget h).pcl = s.pcl := rfl
@[simp] theorem State.dropTarget_tst (h : Nat) : (s.dropTarget h).tst = s.tst := rfl
@[simp] theorem State.dropTarget_ctr (h : Nat) : (s.dropTarget h).ctr = s.ctr := rfl
@[simp] theorem State.dropTarget_dar (h : Nat) : (s.dropTarget h).dar = s.dar := rfl
@[simp] theorem State.dropTarget_rlu (h : Nat) : (s.dropTarget h).rlu = s.rlu := rfl
@[simp] theorem State.dropTarget_scn (h : Nat) : (s.dropTarget h).scn = s.scn := rfl
@[simp] theorem State.dropTarget_tbs (h : Nat) : (s.dropTarget h).tbs = s.tbs := rfl
@[simp] theorem State.dropTarget_fcn (h : Nat) : (s.dropTarget h).fcn = s.fcn := rfl

/-! modGroup -/

@[simp] theorem State.modGroup_pending (g : Nat) (f : GroupEntry → GroupEntry) : (s.modGroup g f).pending = s.pending := rfl
@[simp] theorem State.modGroup_pcl (g : Nat) (f : GroupEntry → GroupEntry) : (s.modGroup g f).pcl = s.pcl := rfl
@[simp] theorem State.modGroup_ldr (g : Nat) (f : GroupEntry → GroupEntry) : (s.modGroup g f).ldr = s.ldr := rfl
@[simp] theorem State.modGroup_ctr (g : Nat) (f : GroupEntry → GroupEntry) : (s.modGroup g f).ctr = s.ctr := rfl
@[simp] theorem State.modGroup_dar (g : Nat) (f : GroupEntry → GroupEntry) : (s.modGroup g f).dar = s.dar := rfl
@[simp] theorem State.modGroup_rlu (g : Nat) (f : GroupEntry → GroupEntry) : (s.modGroup g f).rlu = s.rlu := rfl
@[simp] theorem State.modGroup_scn (g : Nat) (f : GroupEntry → GroupEntry) : (s.modGroup g f).scn = s.scn := rfl
@[simp] theorem State.modGroup_tbs (g : Nat) (f : GroupEntry → GroupEntry) : (s.modGroup g f).tbs = s.tbs := rfl
@[simp] theorem State.modGroup_fcn (g : Nat) (f : GroupEntry → GroupEntry) : (s.modGroup g f).fcn = s.fcn := rfl

/-! modCell -/

@[simp] theorem State.modCell_pending (c : Nat) (f : Cell → Cell) : (s.modCell c f).pending = s.pending := rfl
@[simp] theorem State.modCell_pcl (c : Nat) (f : Cell → Cell) : (s.modCell c f).pcl = s.pcl := rfl
@[simp] theorem State.modCell_ldr (c : Nat) (f : Cell → Cell) : (s.modCell c f).ldr = s.ldr := rfl
@[simp] theorem State.modCell_tst (c : Nat) (f : Cell → Cell) : (s.modCell c f).tst = s.tst := rfl
@[simp] theorem State.modCell_dar (c : Nat) (f : Cell → Cell) : (s.modCell c f).dar = s.dar := rfl
@[simp] theorem State.modCell_rlu (c : Nat) (f : Cell → Cell) : (s.modCell c f).rlu = s.rlu := rfl
@[simp] theorem State.modCell_scn (c : Nat) (f : Cell → Cell) : (s.modCell c f).scn = s.scn := rfl
@[simp] theorem State.modCell_tbs (c : Nat) (f : Cell → Cell) : (s.modCell c f).tbs = s.tbs := rfl
@[simp] theorem State.modCell_fcn (c : Nat) (f : Cell → Cell) : (s.modCell c f).fcn = s.fcn := rfl

/-! modTimers -/

@[simp] theorem State.modTimers_pending (c : Nat) (f : Timers → Timers) : (s.modTimers c f).pending = s.pending := rfl
@[simp] theorem State.modTimers_pcl (c : Nat) (f : Timers → Timers) : (s.modTimers c f).pcl = s.pcl := rfl
@[simp] theorem State.modTimers_ldr (c : Nat) (f : Timers → Timers) : (s.modTimers c f).ldr = s.ldr := rfl
@[simp] theorem State.modTimers_tst (c : Nat) (f : Timers → Timers) : (s.modTimers c f).tst = s.tst := rfl
@[simp] theorem State.modTimers_dar (c : Nat) (f : Timers → Timers) : (s.modTimers c f).dar = s.dar := rfl
@[simp] theorem State.modTimers_rlu (c : Nat) (f : Timers → Timers) : (s.modTimers c f).rlu = s.rlu := rfl
@[simp] theorem State.modTimers_scn (c : Nat) (f : Timers → Timers) : (s.modTimers c f).scn = s.scn := rfl
@[simp] theorem State.modTimers_tbs (c : Nat) (f : Timers → Timers) : (s.modTimers c f).tbs = s.tbs := rfl
@[simp] theorem State.modTimers_fcn (c : Nat) (f : Timers → Timers) : (s.modTimers c f).fcn = s.fcn := rfl

/-! modTop -/

@[simp] theorem State.modTop_pending (c : Nat) (f : Run → Run) : (s.modTop c f).pending = s.pending := rfl
@[simp] theorem State.modTop_pcl (c : Nat) (f : Run → Run) : (s.modTop c f).pcl = s.pcl := rfl
@[simp] theorem State.modTop_ldr (c : Nat) (f : Run → Run) : (s.modTop c f).ldr = s.ldr := rfl
@[simp] theorem State.modTop_tst (c : Nat) (f : Run → Run) : (s.modTop c f).tst = s.tst := rfl
@[simp] theorem State.modTop_dar (c : Nat) (f : Run → Run) : (s.modTop c f).dar = s.dar := rfl
@[simp] theorem State.modTop_rlu (c : Nat) (f : Run → Run) : (s.modTop c f).rlu = s.rlu := rfl
@[simp] theorem State.modTop_scn (c : Nat) (f : Run → Run) : (s.modTop c f).scn = s.scn := rfl
@[simp] theorem State.modTop_tbs (c : Nat) (f : Run → Run) : (s.modTop c f).tbs = s.tbs := rfl
@[simp] theorem State.modTop_fcn (c : Nat) (f : Run → Run) : (s.modTop c f).fcn = s.fcn := rfl

/-! clearCtx -/

@[simp] theorem State.clearCtx_pending (c : Nat) : (s.clearCtx c).pending = s.pending := rfl
@[simp] theorem State.clearCtx_pcl (c : Nat) : (s.clearCtx c).pcl = s.pcl := rfl
@[simp] theorem State.clearCtx_ldr (c : Nat) : (s.clearCtx c).ldr = s.ldr := rfl
@[simp] theorem State.clearCtx_tst (c : Nat) : (s.clearCtx c).tst = s.tst := rfl
@[simp] theorem State.clearCtx_dar (c : Nat) : (s.clearCtx c).dar = s.dar := rfl
@[simp] theorem State.clearCtx_rlu (c : Nat) : (s.clearCtx c).rlu = s.rlu := rfl
@[simp] theorem State.clearCtx_scn (c : Nat) : (s.clearCtx c).scn = s.scn := rfl
@[simp] theorem State.clearCtx_tbs (c : Nat) : (s.clearCtx c).tbs = s.tbs := rfl
@[simp] theorem State.clearCtx_fcn (c : Nat) : (s.clearCtx c).fcn = s.fcn := rfl

/-! toOffline -/

@[simp] theorem State.toOffline_pending (c : Nat) : (s.toOffline c).pending = s.pending := rfl
@[simp] theorem State.toOffline_pcl (c : Nat) : (s.toOffline c).pcl = s.pcl := rfl
@[simp] theorem State.toOffline_ldr (c : Nat) : (s.toOffline c).ldr = s.ldr := rfl
@[simp] theorem State.toOffline_tst (c : Nat) : (s.toOffline c).tst = s.tst := rfl
@[simp] theorem State.toOffline_dar (c : Nat) : (s.toOffline c).dar = s.dar := rfl
@[simp] theorem State.toOffline_rlu (c : Nat) : (s.toOffline c).rlu = s.rlu := rfl
@[simp] theorem State.toOffline_scn (c : Nat) : (s.toOffline c).scn = s.scn := rfl
@[simp] theorem State.toOffline_tbs (c : Nat) : (s.toOffline c).tbs = s.tbs := rfl
@[simp] theorem State.toOffline_fcn (c : Nat) : (s.toOffline c).fcn = s.fcn := rfl

/-! popTop -/

@[simp] theorem State.popTop_pending (c : Nat) : (s.popTop c).pending = s.pending := rfl
@[simp] theorem State.popTop_pcl (c : Nat) : (s.popTop c).pcl = s.pcl := rfl
@[simp] theorem State.popTop_ldr (c : Nat) : (s.popTop c).ldr = s.ldr := rfl
@[simp] theorem State.popTop_tst (c : Nat) : (s.popTop c).tst = s.tst := rfl
@[simp] theorem State.popTop_dar (c : Nat) : (s.popTop c).dar = s.dar := rfl
@[simp] theorem State.popTop_rlu (c : Nat) : (s.popTop c).rlu = s.rlu := rfl
@[simp] theorem State.popTop_scn (c : Nat) : (s.popTop c).scn = s.scn := rfl
@[simp] theorem State.popTop_tbs (c : Nat) : (s.popTop c).tbs = s.tbs := rfl
@[simp] theorem State.popTop_fcn (c : Nat) : (s.popTop c).fcn = s.fcn := rfl

/-! pushRun -/

@[simp] theorem State.pushRun_pending (c : Nat) (r : Run) : (s.pushRun c r).pending = s.pending := rfl
@[simp] theorem State.pushRun_pcl (c : Nat) (r : Run) : (s.pushRun c r).pcl = s.pcl := rfl
@[simp] theorem State.pushRun_ldr (c : Nat) (r : Run) : (s.pushRun c r).ldr = s.ldr := rfl
@[simp] theorem State.pushRun_tst (c : Nat) (r : Run) : (s.pushRun c r).tst = s.tst := rfl
@[simp] theorem State.pushRun_dar (c : Nat) (r : Run) : (s.pushRun c r).dar = s.dar := rfl
@[simp] theorem State.pushRun_rlu (c : Nat) (r : Run) : (s.pushRun c r).rlu = s.rlu := rfl
@[simp] theorem State.pushRun_scn (c : Nat) (r : Run) : (s.pushRun c r).scn = s.scn := rfl
@[simp] theorem State.pushRun_tbs (c : Nat) (r : Run) : (s.pushRun c r).tbs = s.tbs := rfl
@[simp] theorem State.pushRun_fcn (c : Nat) (r : Run) : (s.pushRun c r).fcn = s.fcn := rfl

/-! dropIncoming -/

@[simp] theorem State.dropIncoming_pending (c : Nat) : (s.dropIncoming c).pending = s.pending := rfl
@[simp] theorem State.dropIncoming_pcl (c : Nat) : (s.dropIncoming c).pcl = s.pcl := rfl
@[simp] theorem State.dropIncoming_ldr (c : Nat) : (s.dropIncoming c).ldr = s.ldr := rfl
@[simp] theorem State.dropIncoming_tst (c : Nat) : (s.dropIncoming c).tst = s.tst := rfl
@[simp] theorem State.dropIncoming_dar (c : Nat) : (s.dropIncoming c).dar = s.dar := rfl
@[simp] theorem State.dropIncoming_rlu (c : Nat) : (s.dropIncoming c).rlu = s.rlu := rfl
@[simp] theorem State.dropIncoming_scn (c : Nat) : (s.dropIncoming c).scn = s.scn := rfl
@[simp] theorem State.dropIncoming_tbs (c : Nat) : (s.dropIncoming c).tbs = s.tbs := rfl
@[simp] theorem State.dropIncoming_fcn (c : Nat) : (s.dropIncoming c).fcn = s.fcn := rfl

/-! completeLoad -/

@[simp] theorem State.completeLoad_pending (c : Nat) : (s.completeLoad c).pending = s.pending := rfl
@[simp] theorem State.completeLoad_pcl (c : Nat) : (s.completeLoad c).pcl = s.pcl := rfl
@[simp] theorem State.completeLoad_ldr (c : Nat) : (s.completeLoad c).ldr = s.ldr := rfl
@[simp] theorem State.completeLoad_tst (c : Nat) : (s.completeLoad c).tst = s.tst := rfl
@[simp] theorem State.completeLoad_dar (c : Nat) : (s.completeLoad c).dar = s.dar := rfl
@[simp] theorem State.completeLoad_rlu (c : Nat) : (s.completeLoad c).rlu = s.rlu := rfl
@[simp] theorem State.completeLoad_scn (c : Nat) : (s.completeLoad c).scn = s.scn := rfl
@[simp] theorem State.completeLoad_tbs (c : Nat) : (s.completeLoad c).tbs = s.tbs := rfl
@[simp] theorem State.completeLoad_fcn (c : Nat) : (s.completeLoad c).fcn = s.fcn := rfl

/-! restartSilence -/

@[simp] theorem State.restartSilence_pending (c : Nat) : (s.restartSilence c).pending = s.pending := rfl
@[simp] theorem State.restartSilence_pcl (c : Nat) : (s.restartSilence c).pcl = s.pcl := rfl
@[simp] theorem State.restartSilence_ldr (c : Nat) : (s.restartSilence c).ldr = s.ldr := rfl
@[simp] theorem State.restartSilence_tst (c : Nat) : (s.restartSilence c).tst = s.tst := rfl
@[simp] theorem State.restartSilence_dar (c : Nat) : (s.restartSilence c).dar = s.dar := rfl
@[simp] theorem State.restartSilence_rlu (c : Nat) : (s.restartSilence c).rlu = s.rlu := rfl
@[simp] theorem State.restartSilence_scn (c : Nat) : (s.restartSilence c).scn = s.scn := rfl
@[simp] theorem State.restartSilence_tbs (c : Nat) : (s.restartSilence c).tbs = s.tbs := rfl
@[simp] theorem State.restartSilence_fcn (c : Nat) : (s.restartSilence c).fcn = s.fcn := rfl

/-! countDrop -/

@[simp] theorem State.countDrop_pending (c : Nat) (d : Drop) : (s.countDrop c d).pending = s.pending := rfl
@[simp] theorem State.countDrop_pcl (c : Nat) (d : Drop) : (s.countDrop c d).pcl = s.pcl := rfl
@[simp] theorem State.countDrop_ldr (c : Nat) (d : Drop) : (s.countDrop c d).ldr = s.ldr := rfl
@[simp] theorem State.countDrop_tst (c : Nat) (d : Drop) : (s.countDrop c d).tst = s.tst := rfl
@[simp] theorem State.countDrop_dar (c : Nat) (d : Drop) : (s.countDrop c d).dar = s.dar := rfl
@[simp] theorem State.countDrop_rlu (c : Nat) (d : Drop) : (s.countDrop c d).rlu = s.rlu := rfl
@[simp] theorem State.countDrop_scn (c : Nat) (d : Drop) : (s.countDrop c d).scn = s.scn := rfl
@[simp] theorem State.countDrop_tbs (c : Nat) (d : Drop) : (s.countDrop c d).tbs = s.tbs := rfl
@[simp] theorem State.countDrop_fcn (c : Nat) (d : Drop) : (s.countDrop c d).fcn = s.fcn := rfl

/-! startPass -/

@[simp] theorem State.startPass_pending : (s.startPass).pending = s.pending := rfl
@[simp] theorem State.startPass_pcl : (s.startPass).pcl = s.pcl := rfl
@[simp] theorem State.startPass_ldr : (s.startPass).ldr = s.ldr := rfl
@[simp] theorem State.startPass_tst : (s.startPass).tst = s.tst := rfl
@[simp] theorem State.startPass_ctr : (s.startPass).ctr = s.ctr := rfl
@[simp] theorem State.startPass_rlu : (s.startPass).rlu = s.rlu := rfl
@[simp] theorem State.startPass_scn : (s.startPass).scn = s.scn := rfl
@[simp] theorem State.startPass_tbs : (s.startPass).tbs = s.tbs := rfl
@[simp] theorem State.startPass_fcn : (s.startPass).fcn = s.fcn := rfl

/-! leaveQueue -/

@[simp] theorem State.leaveQueue_pending (h : Nat) : (s.leaveQueue h).pending = s.pending := rfl
@[simp] theorem State.leaveQueue_pcl (h : Nat) : (s.leaveQueue h).pcl = s.pcl := rfl
@[simp] theorem State.leaveQueue_ldr (h : Nat) : (s.leaveQueue h).ldr = s.ldr := rfl
@[simp] theorem State.leaveQueue_tst (h : Nat) : (s.leaveQueue h).tst = s.tst := rfl
@[simp] theorem State.leaveQueue_ctr (h : Nat) : (s.leaveQueue h).ctr = s.ctr := rfl
@[simp] theorem State.leaveQueue_rlu (h : Nat) : (s.leaveQueue h).rlu = s.rlu := rfl
@[simp] theorem State.leaveQueue_scn (h : Nat) : (s.leaveQueue h).scn = s.scn := rfl
@[simp] theorem State.leaveQueue_tbs (h : Nat) : (s.leaveQueue h).tbs = s.tbs := rfl
@[simp] theorem State.leaveQueue_fcn (h : Nat) : (s.leaveQueue h).fcn = s.fcn := rfl

/-! toIdle -/

@[simp] theorem State.toIdle_pending (c : Nat) : (s.toIdle c).pending = s.pending := rfl
@[simp] theorem State.toIdle_pcl (c : Nat) : (s.toIdle c).pcl = s.pcl := rfl
@[simp] theorem State.toIdle_ldr (c : Nat) : (s.toIdle c).ldr = s.ldr := rfl
@[simp] theorem State.toIdle_tst (c : Nat) : (s.toIdle c).tst = s.tst := rfl
@[simp] theorem State.toIdle_rlu (c : Nat) : (s.toIdle c).rlu = s.rlu := rfl
@[simp] theorem State.toIdle_scn (c : Nat) : (s.toIdle c).scn = s.scn := rfl
@[simp] theorem State.toIdle_tbs (c : Nat) : (s.toIdle c).tbs = s.tbs := rfl
@[simp] theorem State.toIdle_fcn (c : Nat) : (s.toIdle c).fcn = s.fcn := rfl

/-! leavePending -/

@[simp] theorem State.leavePending_pending (h : Nat) : (s.leavePending h).pending = s.pending := rfl
@[simp] theorem State.leavePending_pcl (h : Nat) : (s.leavePending h).pcl = s.pcl := rfl
@[simp] theorem State.leavePending_tst (h : Nat) : (s.leavePending h).tst = s.tst := rfl
@[simp] theorem State.leavePending_ctr (h : Nat) : (s.leavePending h).ctr = s.ctr := rfl
@[simp] theorem State.leavePending_dar (h : Nat) : (s.leavePending h).dar = s.dar := rfl
@[simp] theorem State.leavePending_scn (h : Nat) : (s.leavePending h).scn = s.scn := rfl
@[simp] theorem State.leavePending_tbs (h : Nat) : (s.leavePending h).tbs = s.tbs := rfl
@[simp] theorem State.leavePending_fcn (h : Nat) : (s.leavePending h).fcn = s.fcn := rfl

/-! toHeld -/

@[simp] theorem State.toHeld_pending (h : Nat) : (s.toHeld h).pending = s.pending := rfl
@[simp] theorem State.toHeld_pcl (h : Nat) : (s.toHeld h).pcl = s.pcl := rfl
@[simp] theorem State.toHeld_tst (h : Nat) : (s.toHeld h).tst = s.tst := rfl
@[simp] theorem State.toHeld_ctr (h : Nat) : (s.toHeld h).ctr = s.ctr := rfl
@[simp] theorem State.toHeld_dar (h : Nat) : (s.toHeld h).dar = s.dar := rfl
@[simp] theorem State.toHeld_scn (h : Nat) : (s.toHeld h).scn = s.scn := rfl
@[simp] theorem State.toHeld_tbs (h : Nat) : (s.toHeld h).tbs = s.tbs := rfl
@[simp] theorem State.toHeld_fcn (h : Nat) : (s.toHeld h).fcn = s.fcn := rfl

/-! event -/

@[simp] theorem State.event_pending (e : EventSource) (v : Nat) : (s.event e v).pending = s.pending := rfl
@[simp] theorem State.event_pcl (e : EventSource) (v : Nat) : (s.event e v).pcl = s.pcl := rfl
@[simp] theorem State.event_ldr (e : EventSource) (v : Nat) : (s.event e v).ldr = s.ldr := rfl
@[simp] theorem State.event_tst (e : EventSource) (v : Nat) : (s.event e v).tst = s.tst := rfl
@[simp] theorem State.event_ctr (e : EventSource) (v : Nat) : (s.event e v).ctr = s.ctr := rfl
@[simp] theorem State.event_dar (e : EventSource) (v : Nat) : (s.event e v).dar = s.dar := rfl
@[simp] theorem State.event_rlu (e : EventSource) (v : Nat) : (s.event e v).rlu = s.rlu := rfl
@[simp] theorem State.event_scn (e : EventSource) (v : Nat) : (s.event e v).scn = s.scn := rfl
@[simp] theorem State.event_tbs (e : EventSource) (v : Nat) : (s.event e v).tbs = s.tbs := rfl

/-! sample -/

@[simp] theorem State.sample_pending : (s.sample).pending = s.pending := rfl
@[simp] theorem State.sample_pcl : (s.sample).pcl = s.pcl := rfl
@[simp] theorem State.sample_ldr : (s.sample).ldr = s.ldr := rfl
@[simp] theorem State.sample_tst : (s.sample).tst = s.tst := rfl
@[simp] theorem State.sample_ctr : (s.sample).ctr = s.ctr := rfl
@[simp] theorem State.sample_dar : (s.sample).dar = s.dar := rfl
@[simp] theorem State.sample_rlu : (s.sample).rlu = s.rlu := rfl
@[simp] theorem State.sample_scn : (s.sample).scn = s.scn := rfl
@[simp] theorem State.sample_tbs : (s.sample).tbs = s.tbs := rfl

/-! tickTimers -/

@[simp] theorem State.tickTimers_pending : (s.tickTimers).pending = s.pending := rfl
@[simp] theorem State.tickTimers_pcl : (s.tickTimers).pcl = s.pcl := rfl
@[simp] theorem State.tickTimers_ldr : (s.tickTimers).ldr = s.ldr := rfl
@[simp] theorem State.tickTimers_tst : (s.tickTimers).tst = s.tst := rfl
@[simp] theorem State.tickTimers_dar : (s.tickTimers).dar = s.dar := rfl
@[simp] theorem State.tickTimers_rlu : (s.tickTimers).rlu = s.rlu := rfl
@[simp] theorem State.tickTimers_tbs : (s.tickTimers).tbs = s.tbs := rfl
@[simp] theorem State.tickTimers_fcn : (s.tickTimers).fcn = s.fcn := rfl

/-! endOp -/

@[simp] theorem State.endOp_pending : (s.endOp).pending = s.pending := rfl
@[simp] theorem State.endOp_pcl : (s.endOp).pcl = s.pcl := rfl
@[simp] theorem State.endOp_ldr : (s.endOp).ldr = s.ldr := rfl
@[simp] theorem State.endOp_tst : (s.endOp).tst = s.tst := rfl
@[simp] theorem State.endOp_ctr : (s.endOp).ctr = s.ctr := rfl
@[simp] theorem State.endOp_dar : (s.endOp).dar = s.dar := rfl
@[simp] theorem State.endOp_rlu : (s.endOp).rlu = s.rlu := rfl
@[simp] theorem State.endOp_tbs : (s.endOp).tbs = s.tbs := rfl
@[simp] theorem State.endOp_fcn : (s.endOp).fcn = s.fcn := rfl

/-! joinWork -/

@[simp] theorem State.joinWork_pending (op : StoreOp) : (s.joinWork op).pending = s.pending := rfl
@[simp] theorem State.joinWork_pcl (op : StoreOp) : (s.joinWork op).pcl = s.pcl := rfl
@[simp] theorem State.joinWork_ldr (op : StoreOp) : (s.joinWork op).ldr = s.ldr := rfl
@[simp] theorem State.joinWork_tst (op : StoreOp) : (s.joinWork op).tst = s.tst := rfl
@[simp] theorem State.joinWork_ctr (op : StoreOp) : (s.joinWork op).ctr = s.ctr := rfl
@[simp] theorem State.joinWork_dar (op : StoreOp) : (s.joinWork op).dar = s.dar := rfl
@[simp] theorem State.joinWork_rlu (op : StoreOp) : (s.joinWork op).rlu = s.rlu := rfl
@[simp] theorem State.joinWork_tbs (op : StoreOp) : (s.joinWork op).tbs = s.tbs := rfl
@[simp] theorem State.joinWork_fcn (op : StoreOp) : (s.joinWork op).fcn = s.fcn := rfl

/-! countStartupDrop -/

@[simp] theorem State.countStartupDrop_pending : (s.countStartupDrop).pending = s.pending := rfl
@[simp] theorem State.countStartupDrop_ldr : (s.countStartupDrop).ldr = s.ldr := rfl
@[simp] theorem State.countStartupDrop_tst : (s.countStartupDrop).tst = s.tst := rfl
@[simp] theorem State.countStartupDrop_ctr : (s.countStartupDrop).ctr = s.ctr := rfl
@[simp] theorem State.countStartupDrop_dar : (s.countStartupDrop).dar = s.dar := rfl
@[simp] theorem State.countStartupDrop_rlu : (s.countStartupDrop).rlu = s.rlu := rfl
@[simp] theorem State.countStartupDrop_scn : (s.countStartupDrop).scn = s.scn := rfl
@[simp] theorem State.countStartupDrop_tbs : (s.countStartupDrop).tbs = s.tbs := rfl
@[simp] theorem State.countStartupDrop_fcn : (s.countStartupDrop).fcn = s.fcn := rfl

/-! countNotManager -/

@[simp] theorem State.countNotManager_pending : (s.countNotManager).pending = s.pending := rfl
@[simp] theorem State.countNotManager_ldr : (s.countNotManager).ldr = s.ldr := rfl
@[simp] theorem State.countNotManager_tst : (s.countNotManager).tst = s.tst := rfl
@[simp] theorem State.countNotManager_ctr : (s.countNotManager).ctr = s.ctr := rfl
@[simp] theorem State.countNotManager_dar : (s.countNotManager).dar = s.dar := rfl
@[simp] theorem State.countNotManager_rlu : (s.countNotManager).rlu = s.rlu := rfl
@[simp] theorem State.countNotManager_scn : (s.countNotManager).scn = s.scn := rfl
@[simp] theorem State.countNotManager_tbs : (s.countNotManager).tbs = s.tbs := rfl
@[simp] theorem State.countNotManager_fcn : (s.countNotManager).fcn = s.fcn := rfl

/-! Cell.enter and recordEquipment -/

@[simp] theorem Cell.enter_state (x : Cell) (st : CellState) : (x.enter st).state = st := rfl
@[simp] theorem Cell.enter_testerReady (x : Cell) (st : CellState) : (x.enter st).testerReady = x.testerReady := rfl
@[simp] theorem Cell.enter_handler (x : Cell) (st : CellState) : (x.enter st).handler = x.handler := rfl
@[simp] theorem Cell.enter_runActive (x : Cell) (st : CellState) : (x.enter st).runActive = x.runActive := rfl
@[simp] theorem Cell.enter_kit (x : Cell) (st : CellState) : (x.enter st).kit = x.kit := rfl
@[simp] theorem Cell.enter_loaded (x : Cell) (st : CellState) : (x.enter st).loaded = x.loaded := rfl
@[simp] theorem Cell.enter_setpoint (x : Cell) (st : CellState) : (x.enter st).setpoint = x.setpoint := rfl
@[simp] theorem Cell.enter_atSetpoint (x : Cell) (st : CellState) : (x.enter st).atSetpoint = x.atSetpoint := rfl
@[simp] theorem Cell.enter_expiry (x : Cell) (st : CellState) : (x.enter st).expiry = x.expiry := rfl
@[simp] theorem Cell.enter_enabled (x : Cell) (st : CellState) : (x.enter st).enabled = x.enabled := rfl
@[simp] theorem Cell.enter_confirmed (x : Cell) (st : CellState) : (x.enter st).confirmed = x.confirmed := rfl
@[simp] theorem Cell.enter_reportPending (x : Cell) (st : CellState) : (x.enter st).reportPending = x.reportPending := rfl
@[simp] theorem Cell.enter_stack (x : Cell) (st : CellState) : (x.enter st).stack = x.stack := rfl
@[simp] theorem Cell.enter_incoming (x : Cell) (st : CellState) : (x.enter st).incoming = x.incoming := rfl
@[simp] theorem Cell.enter_ctx (x : Cell) (st : CellState) : (x.enter st).ctx = x.ctx := rfl
@[simp] theorem Cell.enter_order (x : Cell) (st : CellState) : (x.enter st).order = x.order := rfl
@[simp] theorem Cell.enter_orderCurrent (x : Cell) (st : CellState) : (x.enter st).orderCurrent = x.orderCurrent := rfl
@[simp] theorem Cell.enter_drops (x : Cell) (st : CellState) : (x.enter st).drops = x.drops := rfl
@[simp] theorem Cell.enter_lastDrop (x : Cell) (st : CellState) : (x.enter st).lastDrop = x.lastDrop := rfl

section

variable (b : StatusBody) (st : CellState) (restart : Bool) (x : Cell)

@[simp] theorem recordEquipment_state : (recordEquipment b st restart x).state = x.state := rfl
@[simp] theorem recordEquipment_cause : (recordEquipment b st restart x).cause = x.cause := rfl
@[simp] theorem recordEquipment_testerReady : (recordEquipment b st restart x).testerReady = some b.ready := rfl
@[simp] theorem recordEquipment_handler : (recordEquipment b st restart x).handler = some b.handler := rfl
@[simp] theorem recordEquipment_runActive : (recordEquipment b st restart x).runActive = some b.runActive := rfl
@[simp] theorem recordEquipment_setpoint : (recordEquipment b st restart x).setpoint = some b.setpoint := rfl
@[simp] theorem recordEquipment_atSetpoint : (recordEquipment b st restart x).atSetpoint = b.atSetpoint := rfl
@[simp] theorem recordEquipment_expiry : (recordEquipment b st restart x).expiry = x.expiry := rfl
@[simp] theorem recordEquipment_enabled : (recordEquipment b st restart x).enabled = x.enabled := rfl
@[simp] theorem recordEquipment_confirmed : (recordEquipment b st restart x).confirmed = x.confirmed := rfl
@[simp] theorem recordEquipment_reportPending : (recordEquipment b st restart x).reportPending = x.reportPending := rfl
@[simp] theorem recordEquipment_stack : (recordEquipment b st restart x).stack = x.stack := rfl
@[simp] theorem recordEquipment_incoming : (recordEquipment b st restart x).incoming = x.incoming := rfl
@[simp] theorem recordEquipment_ctx : (recordEquipment b st restart x).ctx = x.ctx := rfl
@[simp] theorem recordEquipment_items : (recordEquipment b st restart x).items = x.items := rfl
@[simp] theorem recordEquipment_stopReason : (recordEquipment b st restart x).stopReason = x.stopReason := rfl
@[simp] theorem recordEquipment_timers : (recordEquipment b st restart x).timers = x.timers := rfl
@[simp] theorem recordEquipment_order : (recordEquipment b st restart x).order = x.order := rfl
@[simp] theorem recordEquipment_orderCurrent : (recordEquipment b st restart x).orderCurrent = x.orderCurrent := rfl
@[simp] theorem recordEquipment_drops : (recordEquipment b st restart x).drops = x.drops := rfl
@[simp] theorem recordEquipment_lastDrop : (recordEquipment b st restart x).lastDrop = x.lastDrop := rfl

end

end Sys2Proof.Machine
end

