-- ==== Sys2Proof/Laws/Vectors.lean ====
section
/-! SUPPORT. Reading and changing one element of a fixed-size table. -/

namespace Sys2Proof.Machine

set_option Elab.async false

variable {α : Type} {n : Nat}

/-- A table reads as changed at the changed place. -/
theorem vget_vmod_self (v : Vector α n) (d : α) (f : α → α) {i : Nat} (h : i < n) :
    vget (vmod v i f) d i = f (vget v d i) := by
  simp [vget, vmod, h]

/-- A table reads as before at every other place. -/
theorem vget_vmod_ne (v : Vector α n) (d : α) (f : α → α) {i j : Nat} (h : i ≠ j) :
    vget (vmod v i f) d j = vget v d j := by
  unfold vget vmod
  split
  · simp only [Vector.getElem?_setIfInBounds, h, if_false]
  · rfl

/-- A change outside the table changes nothing. -/
theorem vmod_outside (v : Vector α n) (f : α → α) {i : Nat} (h : n ≤ i) : vmod v i f = v := by
  simp [vmod, h]

/-- A table read outside its bounds gives the default. -/
theorem vget_outside (v : Vector α n) (d : α) {i : Nat} (h : n ≤ i) : vget v d i = d := by
  simp [vget, h]

/-- A changed table's element, wherever it is read. -/
theorem vget_vmod (v : Vector α n) (d : α) (f : α → α) (i j : Nat) :
    vget (vmod v i f) d j = if i = j ∧ i < n then f (vget v d j) else vget v d j := by
  by_cases hij : i = j
  · subst hij
    by_cases hn : i < n
    · simp [vget_vmod_self v d f hn, hn]
    · simp [vmod_outside v f (Nat.le_of_not_lt hn), hn]
  · simp [vget_vmod_ne v d f hij, hij]

/-- A table made from a function reads as the function. -/
theorem vget_ofFn (f : Fin n → α) (d : α) {i : Nat} (h : i < n) : vget (Vector.ofFn f) d i = f ⟨i, h⟩ := by
  simp [vget, h]

/-- A table of one value reads as the value. -/
theorem vget_replicate (x d : α) {i : Nat} (h : i < n) : vget (Vector.replicate n x) d i = x := by
  simp [vget, h]

end Sys2Proof.Machine
end

