-- ==== Sys2Proof/Laws/Keeps.lean ====
section
/-! SUPPORT. What the work of the cell tracker, dispatch arbiter, yield guard, hold unit and release unit never
touches and never overfills: one relation, and one lemma for each shared operation saying that it stands. -/

namespace Sys2Proof.Machine

set_option Elab.async false

/-- From `s` to `t` the waiting commands, tables, store, mode, lines, time and links stand as they were, and no
capacity is exceeded that was kept before. -/
structure Keeps (s t : State) : Prop where
  pending   : t.pending = s.pending
  tst       : t.tst = s.tst
  scn       : t.scn = s.scn
  tbs       : t.tbs = s.tbs
  floorLink : t.pcl.floorLink = s.pcl.floorLink
  plantLink : t.pcl.plantLink = s.pcl.plantLink
  queues    : s.queuesFit → t.queuesFit
  sequence  : s.sequenceFits → t.sequenceFits
  numbers   : s.numbersFit → t.numbersFit
  ship      : s.shipFits → t.shipFits
  uses      : s.useCountsFit → t.useCountsFit

namespace Keeps

theorem refl (s : State) : Keeps s s :=
  ⟨rfl, rfl, rfl, rfl, rfl, rfl, id, id, id, id, id⟩

theorem trans {s t u : State} (h : Keeps s t) (k : Keeps t u) : Keeps s u :=
  ⟨k.pending.trans h.pending, k.tst.trans h.tst, k.scn.trans h.scn, k.tbs.trans h.tbs, k.floorLink.trans h.floorLink,
    k.plantLink.trans h.plantLink, fun x => k.queues (h.queues x), fun x => k.sequence (h.sequence x),
    fun x => k.numbers (h.numbers x), fun x => k.ship (h.ship x), fun x => k.uses (h.uses x)⟩

/-- A change of the cells, the dispatch arbiter and the counters alone. -/
theorem of_floor {s t : State}
    (h : (t.pending, t.tst, t.scn, t.tbs) = (s.pending, s.tst, s.scn, s.tbs) ∧
      (t.pcl, t.ldr, t.rlu) = (s.pcl, s.ldr, s.rlu) := by exact ⟨rfl, rfl⟩) : Keeps s t := by
  simp only [Prod.mk.injEq] at h
  obtain ⟨⟨hp, ht, hs, hb⟩, hc, hl, hr⟩ := h
  refine ⟨hp, ht, hs, hb, by rw [hc], by rw [hc], ?_, ?_, ?_, ?_, ?_⟩ <;>
    simp only [State.queuesFit, State.sequenceFits, State.numbersFit, State.shipFits, State.useCountsFit, State.liveOn,
      State.slot, hc, hl, hr, imp_self]

/-! ### Single updates. Each lemma extends a relation already established. -/

variable {s t : State}

theorem modCell (h : Keeps s t) (c : Nat) (f : Cell → Cell) : Keeps s (t.modCell c f) :=
  h.trans of_floor

theorem modTimers (h : Keeps s t) (c : Nat) (f : Timers → Timers) : Keeps s (t.modTimers c f) :=
  h.trans of_floor

theorem modTop (h : Keeps s t) (c : Nat) (f : Run → Run) : Keeps s (t.modTop c f) :=
  h.trans of_floor

theorem clearCtx (h : Keeps s t) (c : Nat) : Keeps s (t.clearCtx c) := h.trans of_floor

theorem popTop (h : Keeps s t) (c : Nat) : Keeps s (t.popTop c) := h.trans of_floor

theorem pushRun (h : Keeps s t) (c : Nat) (r : Run) : Keeps s (t.pushRun c r) :=
  h.trans of_floor

theorem dropIncoming (h : Keeps s t) (c : Nat) : Keeps s (t.dropIncoming c) :=
  h.trans of_floor

theorem toOffline (h : Keeps s t) (c : Nat) : Keeps s (t.toOffline c) := h.trans of_floor

theorem startPass (h : Keeps s t) : Keeps s t.startPass := h.trans of_floor

theorem leaveQueue (h : Keeps s t) (k : Nat) : Keeps s (t.leaveQueue k) := h.trans of_floor

theorem toIdle (h : Keeps s t) (c : Nat) : Keeps s (t.toIdle c) := h.trans of_floor

theorem event (h : Keeps s t) (e : EventSource) (v : Nat) : Keeps s (t.event e v) :=
  h.trans of_floor

/-- A count over a table after one element changed. -/
theorem countP_vmod (v : Vector Slot 512) (k : Nat) (f : Slot → Slot) (hk : k < 512) (p : Slot → Bool) :
    (vmod v k f).toList.countP p = v.toList.countP p - (if p v[k] then 1 else 0) + if p (f v[k]) then 1 else 0 := by
  have hv : vmod v k f = v.set k (f v[k]) := by
    simp only [vmod, hk, Vector.getElem?_eq_getElem, Vector.setIfInBounds, Vector.set, Array.setIfInBounds, Vector.size_toArray,
      dite_true]
  rw [hv]
  simp only [Vector.toList_set]
  rw [List.countP_set (by simpa using hk)]
  simp only [Vector.getElem_toList]

/-- The live lots on a route are counted from the slots' routes alone. -/
theorem liveOn_vmod (v : Vector Slot 512) (k : Nat) (f : Slot → Slot) (hf : ∀ x, (f x).lot.map Lot.route = x.lot.map Lot.route)
    (r : Nat) : (vmod v k f).toList.countP (fun x => x.lot.map Lot.route == some r) =
      v.toList.countP (fun x => x.lot.map Lot.route == some r) := by
  by_cases hk : k < 512
  · rw [countP_vmod v k f hk]
    simp only [hf]
    split
    · rename_i hp
      have : 0 < v.toList.countP fun x => x.lot.map Lot.route == some r :=
        List.countP_pos_iff.mpr ⟨v[k], by simp, hp⟩
      omega
    · omega
  · rw [vmod_outside v f (Nat.le_of_not_lt hk)]

/-- A slot changed with its number kept in range and its lot kept on its route. -/
theorem modSlot (h : Keeps s t) (k : Nat) (f : Slot → Slot)
    (hf : ∀ x, (1 ≤ x.inst ∧ x.inst ≤ 255) → 1 ≤ (f x).inst ∧ (f x).inst ≤ 255)
    (hr : ∀ x, (f x).lot.map Lot.route = x.lot.map Lot.route) : Keeps s (t.modSlot k f) := by
  refine h.trans ⟨rfl, rfl, rfl, rfl, rfl, rfl, id, id, fun hn => ?_, id, fun hu r hr' => ?_⟩
  · intro j hj
    have := hn j hj
    simp only [State.slot, State.modSlot, vget_vmod] at this ⊢
    split
    · exact hf _ this
    · exact this
  · have := hu r hr'
    simp only [State.liveOn, State.modSlot] at this ⊢
    rw [liveOn_vmod _ _ _ hr]
    exact this

/-- A lot changed with its route kept. -/
theorem modLotTo (h : Keeps s t) (k : Nat) (f : Lot → Lot) (hr : ∀ l, (f l).route = l.route) : Keeps s (t.modLot k f) :=
  h.modSlot k _ (fun _ hx => hx) fun x => by cases x.lot <;> simp [hr]

theorem modLot (h : Keeps s t) (k : Nat) (f : Lot → Lot) (hr : ∀ l, (f l).route = l.route := by intro l; rfl) :
    Keeps s (t.modLot k f) := h.modLotTo k f hr

theorem modAcc (h : Keeps s t) (k : Nat) (f : Acc → Acc) : Keeps s (t.modAcc k f) := h.modLot k _

theorem setLotState (h : Keeps s t) (k : Nat) (st : LotState) : Keeps s (t.setLotState k st) := h.modLot k _

theorem dropTarget (h : Keeps s t) (k : Nat) : Keeps s (t.dropTarget k) := h.modLot k _

/-- A change of the port's counts, leaving links, sequence and queues. -/
theorem counts {t' : State} (h : Keeps s t)
    (e : (t'.pending, t'.tst, t'.scn, t'.tbs, t'.ldr, t'.rlu) = (t.pending, t.tst, t.scn, t.tbs, t.ldr, t.rlu))
    (q : (t'.pcl.floorLink, t'.pcl.plantLink, t'.pcl.floorQ, t'.pcl.plantQ, t'.pcl.noticeSeq) =
      (t.pcl.floorLink, t.pcl.plantLink, t.pcl.floorQ, t.pcl.plantQ, t.pcl.noticeSeq)) : Keeps s t' := by
  simp only [Prod.mk.injEq] at e q
  obtain ⟨hp, ht, hs, hb, hl, hr⟩ := e
  obtain ⟨h1, h2, h3, h4, h5⟩ := q
  refine h.trans ⟨hp, ht, hs, hb, h1, h2, ?_, ?_, ?_, ?_, ?_⟩ <;>
    simp only [State.queuesFit, State.sequenceFits, State.numbersFit, State.shipFits, State.useCountsFit, State.liveOn,
      State.slot, h3, h4, h5, hl, hr, imp_self]

/-! ### Frames -/

theorem enqueue (h : Keeps s t) (p : Port) (f : Frame) : Keeps s (t.enqueue p f) := by
  refine h.trans ?_
  unfold State.enqueue
  cases p <;> dsimp only
  · split
    · refine ⟨rfl, rfl, rfl, rfl, rfl, rfl, fun hq => ⟨?_, hq.2⟩, id, id, id, id⟩
      simp only [List.length_append, List.length_singleton]; omega
    · exact event (t := { t with pcl := { t.pcl with floorDrops := bump t.pcl.floorDrops 1 } })
        ((refl t).counts rfl rfl) _ _
  · split
    · refine ⟨rfl, rfl, rfl, rfl, rfl, rfl, fun hq => ⟨hq.1, ?_⟩, id, id, id, id⟩
      simp only [List.length_append, List.length_singleton]; omega
    · exact event (t := { t with pcl := { t.pcl with plantDrops := bump t.pcl.plantDrops 1 } })
        ((refl t).counts rfl rfl) _ _

theorem forward (h : Keeps s t) (k : Code16) (m : Msg) (b : List Byte) : Keeps s (t.forward k m b) := h.enqueue _ _

theorem order (h : Keeps s t) (c : Nat) (r : Option Run) (o : Order) : Keeps s (t.order c r o) := h.enqueue _ _

theorem replyAs (h : Keeps s t) (e k : Code16) (r : ReqRef) (c : ReplyCode) (b : ReplyBody) :
    Keeps s (t.replyAs e k r c b) := h.enqueue _ _

theorem reply (h : Keeps s t) (k : Code16) (r : ReqRef) (c : ReplyCode) (b : ReplyBody) : Keeps s (t.reply k r c b) :=
  h.replyAs _ _ _ _ _

theorem notice (h : Keeps s t) (b : NoticeBody) : Keeps s (t.notice b) := by
  refine h.trans ?_
  have h0 : Keeps t { t with pcl := { t.pcl with noticeSeq := (t.pcl.noticeSeq + 1) % 65536 } } :=
    ⟨rfl, rfl, rfl, rfl, rfl, rfl, id, fun _ => Nat.mod_lt _ (by decide), id, id, id⟩
  unfold State.notice
  dsimp only
  split
  · exact h0.counts rfl rfl
  · exact h0.enqueue _ _

/-! ### Lots, queue and cell states -/

theorem joinQueue (h : Keeps s t) (k : Nat) (n : Bool) : Keeps s (t.joinQueue k n) := by
  unfold State.joinQueue
  dsimp only
  split
  · exact startPass ((h.modLot _ (fun l => { l with state := .waiting, arrival := if n then t.now else l.arrival })).trans of_floor)
  · exact h.modLot _ _

theorem clearOrder (h : Keeps s t) (c : Nat) : Keeps s (t.clearOrder c) := by
  unfold State.clearOrder
  dsimp only
  split
  · exact (h.modCell _ _).startPass
  · exact h.modCell _ _

theorem toRunning (h : Keeps s t) (c : Nat) : Keeps s (t.toRunning c) := by
  unfold State.toRunning
  dsimp only
  split
  · exact (h.modCell _ _).startPass
  · exact h.modCell _ _

theorem toFault (h : Keeps s t) (c : Nat) (x : FaultCause) (l : Option (Nat × Nat)) : Keeps s (t.toFault c x l) := by
  unfold State.toFault
  dsimp only
  split
  · exact ((h.modCell _ _).notice _).order _ _ _
  · exact (h.modCell _ _).notice _

theorem requestStop (h : Keeps s t) (c : Nat) (r : StopReason) : Keeps s (t.requestStop c r) := by
  unfold State.requestStop
  split <;> first | exact h | exact (h.modCell _ _).order _ _ _

/-! ### Holds -/

theorem addHold (h : Keeps s t) (k : Nat) (n : NewHold) : Keeps s (t.addHold k n) := (h.modLot _ _).event _ _

theorem heldNotice (h : Keeps s t) (k : Nat) (r : HoldReason) (a : LotState) : Keeps s (t.heldNotice k r a) := by
  unfold State.heldNotice
  split
  · split
    · exact h.notice _
    · exact h
  · exact h

theorem placeQuiet (h : Keeps s t) (k : Nat) (n : NewHold) : Keeps s (t.placeQuiet k n) := by
  unfold State.placeQuiet
  dsimp only
  split
  · exact (h.addHold _ _).heldNotice _ _ _
  · exact h.addHold _ _

theorem leavePending (h : Keeps s t) (k : Nat) : Keeps s (t.leavePending k) := by
  unfold State.leavePending
  dsimp only
  exact modLot (t := { t with rlu := { t.rlu with pend := t.rlu.pend.filter fun m => m.handle != k } })
    (h.trans ⟨rfl, rfl, rfl, rfl, rfl, rfl, id, id, id, id, id⟩) _ _

theorem toHeld (h : Keeps s t) (k : Nat) : Keeps s (t.toHeld k) := (h.leavePending k).setLotState _ _

theorem removeEntry (h : Keeps s t) (k : Nat) (r : HoldReason) : Keeps s (t.removeEntry k r) := (h.modLot _ _).event _ _

/-! ### Release -/

theorem joinRecord_length (x : Record) (l : List Record) : (joinRecord x l).length = l.length + 1 := by
  induction l with
  | nil => rfl
  | cons y r ih =>
    unfold joinRecord
    split
    · rfl
    · simp [ih]

theorem releaseLot (h : Keeps s t) (k : Nat) (room : t.rlu.ship.length < shipCapacity) : Keeps s (t.releaseLot k) := by
  unfold State.releaseLot
  split
  · exact h
  · rename_i l _
    have h0 : Keeps s { t with rlu := { t.rlu with ship := joinRecord (t.recordOf k l) t.rlu.ship } } := by
      refine h.trans ⟨rfl, rfl, rfl, rfl, rfl, rfl, id, id, id, fun _ => ?_, id⟩
      show (joinRecord _ _).length ≤ _
      rw [joinRecord_length]
      exact room
    exact (((h0.leavePending k).setLotState _ _).notice _).event _ _

theorem withPend (h : Keeps s t) (p : List PendMember) : Keeps s { t with rlu := { t.rlu with pend := p } } :=
  h.trans ⟨rfl, rfl, rfl, rfl, rfl, rfl, id, id, id, id, id⟩

theorem joinPending (h : Keeps s t) (k : Nat) (l : Lot) : Keeps s (t.joinPending k l) := by
  unfold State.joinPending
  dsimp only
  exact ((h.leavePending k).withPend _).modLot _ _

theorem evaluateAs (h : Keeps s t) (k : Nat) (l : Lot) (low open_ : Bool) : Keeps s (
    if low || open_ then
      (if open_ then (if low then (t.event .guardTrip (Trip.code .releaseLow)).placeQuiet k ⟨.guard, .ygd, [.releaseLow], none⟩
          else t).placeQuiet k ⟨.quantity, .ygd, [], none⟩
        else if low then (t.event .guardTrip (Trip.code .releaseLow)).placeQuiet k ⟨.guard, .ygd, [.releaseLow], none⟩
          else t).toHeld k
    else if t.rlu.ship.length < shipCapacity then t.releaseLot k else t.joinPending k l) := by
  have h1 : Keeps s (if low then (t.event .guardTrip (Trip.code .releaseLow)).placeQuiet k ⟨.guard, .ygd, [.releaseLow], none⟩
      else t) := by
    split
    · exact (h.event _ _).placeQuiet _ _
    · exact h
  split
  · apply toHeld
    split
    · exact h1.placeQuiet _ _
    · exact h1
  · split
    · exact h.releaseLot _ (by assumption)
    · exact h.joinPending _ _

theorem evaluate (h : Keeps s t) (k : Nat) : Keeps s (t.evaluate k) := by
  unfold State.evaluate
  split
  · exact h
  · exact h.evaluateAs _ _ _ _

theorem complete (h : Keeps s t) (k : Nat) : Keeps s (t.complete k) := by
  unfold State.complete
  dsimp only
  split
  · exact h.modLot _ _
  · exact ((h.modLot _ _).notice _).evaluate _

theorem releasePending (n : Nat) : ∀ {t : State}, Keeps s t → Keeps s (t.releasePending n) := by
  induction n with
  | zero => intro t h; exact h
  | succ n ih =>
    intro t h
    unfold State.releasePending
    split
    · exact h
    · split
      · exact ih (h.evaluate _)
      · exact h

theorem nextInst_fits {n : Nat} (h : 1 ≤ n ∧ n ≤ 255) : 1 ≤ nextInst n ∧ nextInst n ≤ 255 := by
  unfold nextInst
  split <;> omega

/-- A freed slot leaves the count of its lot's route and no other. -/
theorem uses_freeSlot (u : State) (k : Nat) (hu : u.useCountsFit) : (u.freeSlot k).useCountsFit := by
  unfold State.freeSlot
  split
  · exact hu
  · rename_i l hl
    intro r hr
    have hk : k < 512 := by
      by_contra hk
      simp [State.lot?, State.slot, vget_outside _ _ (Nat.le_of_not_lt hk), Slot.none] at hl
    have hx : (u.ldr.slots[k]).lot = some l := by
      simpa [State.lot?, State.slot, vget, hk] using hl
    have := hu r hr
    simp only [State.liveOn, State.modSlot] at this ⊢
    rw [countP_vmod _ _ _ hk, vget_vmod, this, hx]
    by_cases hlr : l.route = r
    · subst hlr
      simp [hr]
    · simp [hlr]

theorem freeSlot (h : Keeps s t) (k : Nat) : Keeps s (t.freeSlot k) := by
  refine h.trans ?_
  have hu := uses_freeSlot t k
  unfold State.freeSlot at hu ⊢
  split at hu
  · exact refl t
  · refine ⟨rfl, rfl, rfl, rfl, rfl, rfl, id, id, fun hn => ?_, id, hu⟩
    intro j hj
    have := hn j hj
    simp only [State.slot, State.modSlot, vget_vmod] at this ⊢
    split
    · exact nextInst_fits this
    · exact this

/-! ### Segments and step end -/

theorem closeSegmentAs (h : Keeps s t) (k c : Nat) (x : CloseCause) (b : Bool) (n : NewHold) : Keeps s (
    if b then ((t.modLot k fun l => { l with segments := closeLast l x }).modCell c (clearSegMark k)).placeQuiet k n
    else (t.modLot k fun l => { l with segments := closeLast l x }).modCell c (clearSegMark k)) := by
  split
  · exact ((h.modLot _ _).modCell _ _).placeQuiet _ _
  · exact (h.modLot _ _).modCell _ _

theorem closeSegment (h : Keeps s t) (c k : Nat) (x : CloseCause) : Keeps s (t.closeSegment c k x) :=
  h.closeSegmentAs _ _ _ _ _

theorem closeIfOpen (h : Keeps s t) (c : Nat) (r : Run) (x : CloseCause) : Keeps s (t.closeIfOpen c r x) := by
  unfold State.closeIfOpen
  split
  · exact h.closeSegment _ _ _
  · exact h

theorem openSegment (h : Keeps s t) (c : Nat) (r : Run) : Keeps s (t.openSegment c r) := (h.modLot _ _).modTop _ _

theorem foldl {β : Type} (f : State → β → State) (hf : ∀ {t : State} (b : β), Keeps s t → Keeps s (f t b)) (l : List β) :
    ∀ {t : State}, Keeps s t → Keeps s (l.foldl f t) := by
  induction l with
  | nil => intro t h; exact h
  | cons b l ih => intro t h; exact ih (hf b h)

theorem recordTrips (h : Keeps s t) (k : Nat) (ts : List Trip) : Keeps s (t.recordTrips k ts) :=
  foldl _ (fun _ h => h.event _ _) ts (h.modAcc _ _)

theorem stepEndHolds (h : Keeps s t) (k : Nat) (fl : Bool) (q : List Trip) : Keeps s (t.stepEndHolds k fl q) := by
  unfold State.stepEndHolds
  refine modLot ?_ _ _ (fun _ => rfl)
  split
  · split
    · exact (h.recordTrips _ _).addHold _ _
    · exact h.recordTrips _ _
  · apply modAcc
    apply addHold
    split
    · exact (h.recordTrips _ _).addHold _ _
    · exact h.recordTrips _ _

theorem stepEnd (h : Keeps s t) (c k : Nat) : Keeps s (t.stepEnd c k) := by
  unfold State.stepEnd
  split
  · exact h
  · rename_i l _
    have h1 : ∀ fl q, Keeps s (if ((t.stepEndHolds k fl q).top? c).any Run.segOpen then
        (t.stepEndHolds k fl q).closeSegment c k .stepEnd else t.stepEndHolds k fl q) := by
      intro fl q
      split
      · exact (h.stepEndHolds _ _ _).closeSegment _ _ _
      · exact h.stepEndHolds _ _ _
    replace h1 := h1 (finalLow (t.profileOf (t.lotStep l)) l.acc) (quantityTrips (t.profileOf (t.lotStep l)) l.acc)
    dsimp only
    generalize (if ((t.stepEndHolds k _ _).top? c).any Run.segOpen = true then _ else _) = u at h1 ⊢
    split
    · exact h1
    · split
      · apply heldNotice
        split
        · exact ((h1.modLot _ _).notice _).heldNotice _ _ _
        · exact (h1.modLot _ _).notice _
      · split
        · exact ((h1.modLot _ _).notice _).heldNotice _ _ _
        · exact (h1.modLot _ _).notice _

theorem advance (h : Keeps s t) (k : Nat) : Keeps s (t.advance k) := (h.modLot _ _).joinQueue _ _

theorem passOn (h : Keeps s t) (k : Nat) : Keeps s (t.passOn k) := by
  unfold State.passOn
  split
  · exact h
  · split
    · exact h.advance _
    · exact h.complete _

theorem toRetest (h : Keeps s t) (c k : Nat) : Keeps s (t.toRetest c k) := ((h.modLot _ _).modTop _ _).clearCtx _

theorem settleStopped (h : Keeps s t) (c : Nat) : Keeps s (t.settleStopped c).1 := by
  unfold State.settleStopped
  split
  · exact h
  · split
    · exact h
    · dsimp only
      split
      · exact (h.modAcc _ _).modTop _ _
      · split
        · exact ((h.modAcc _ _).modTop _ _).toRetest _ _
        · exact ((h.modAcc _ _).modTop _ _).stepEnd _ _

theorem sendLot (h : Keeps s t) (k : Nat) (a b : Bool) : Keeps s (t.sendLot k a b) := by
  unfold State.sendLot
  split
  · exact h.toHeld _
  · split
    · exact h.passOn _
    · exact h.joinQueue _ _

/-! ### Detach and setup -/

theorem detachTop (h : Keeps s t) (c : Nat) : Keeps s (t.detachTop c) := by
  unfold State.detachTop
  split
  · exact h
  · exact (((h.closeIfOpen _ _ _).settleStopped _).popTop _).sendLot _ _ _

theorem detachLower (h : Keeps s t) (c : Nat) : Keeps s (t.detachLower c) := by
  unfold State.detachLower
  split
  · exact h
  · exact ((h.closeIfOpen _ _ _).popTop _).sendLot _ _ _

theorem detachIncoming (h : Keeps s t) (c : Nat) : Keeps s (t.detachIncoming c) := by
  unfold State.detachIncoming
  split
  · exact h
  · exact (h.dropIncoming _).sendLot _ _ _

theorem detach (h : Keeps s t) (c : Nat) : Keeps s (t.detach c) :=
  (((h.detachTop c).detachLower c).detachIncoming c).modCell _ _

theorem abandonTop (h : Keeps s t) (c : Nat) : Keeps s (t.abandonTop c) := by
  unfold State.abandonTop
  split
  · exact h
  · exact ((h.closeIfOpen _ _ _).popTop _).sendLot _ _ _

theorem abandonSetup (h : Keeps s t) (c : Nat) : Keeps s (t.abandonSetup c) := ((h.abandonTop c).abandonTop c).toIdle c

theorem startLoad (h : Keeps s t) (c : Nat) (r : Run) (v : ProgVals) : Keeps s (t.startLoad c r v) := by
  unfold State.startLoad
  dsimp only
  split
  · exact (h.modCell _ _).order _ _ _
  · exact h.modCell _ _

theorem startKit (h : Keeps s t) (c : Nat) (r : Run) (k : Nat) : Keeps s (t.startKit c r k) := (h.modCell _ _).order _ _ _

theorem startSoak (h : Keeps s t) (c : Nat) (r : Run) (x : Temp) : Keeps s (t.startSoak c r x) :=
  (h.modCell _ _).order _ _ _

theorem sendStart (h : Keeps s t) (c : Nat) (r : Run) : Keeps s (t.sendStart c r) :=
  ((h.modCell _ _).modTop _ _).order _ _ _

theorem judgeItems (h : Keeps s t) (c : Nat) (r : Run) (b : Bool) : Keeps s (t.judgeItems c r b) := by
  unfold State.judgeItems
  dsimp only
  split
  · apply startSoak
    split
    · apply startKit
      split
      · exact h.startLoad _ _ _
      · exact h
    · split
      · exact h.startLoad _ _ _
      · exact h
  · split
    · apply startKit
      split
      · exact h.startLoad _ _ _
      · exact h
    · split
      · exact h.startLoad _ _ _
      · exact h

theorem checkSetup (h : Keeps s t) (c : Nat) : Keeps s (t.checkSetup c) := by
  unfold State.checkSetup
  split
  · exact h
  · split
    · dsimp only
      split
      · exact (h.judgeItems _ _ _).sendStart _ _
      · exact h.judgeItems _ _ _
    · exact h

theorem enterSetupN (c : Nat) (n : Nat) : ∀ {t : State}, Keeps s t → Keeps s (t.enterSetupN n c) := by
  induction n with
  | zero => intro t h; exact h.toIdle c
  | succ n ih =>
    intro t h
    unfold State.enterSetupN
    split
    · exact h.toIdle c
    · dsimp only
      split
      · split
        · exact (((h.setLotState _ _).modCell _ _).detachTop _).toIdle _
        · exact ih (((h.setLotState _ _).modCell _ _).detachTop _)
      · split
        · exact ((h.setLotState _ _).modCell _ _).abandonSetup _
        · exact (((h.setLotState _ _).modCell _ _).judgeItems _ _ _).checkSetup _

theorem enterSetup (h : Keeps s t) (c : Nat) : Keeps s (t.enterSetup c) := enterSetupN c 2 h

theorem afterTop (h : Keeps s t) (c : Nat) : Keeps s (t.afterTop c) := by
  unfold State.afterTop
  split
  · exact h.toIdle _
  · exact h.enterSetup _

theorem countFailure (h : Keeps s t) (c k : Nat) : Keeps s (t.countFailure c k) := by
  unfold State.countFailure
  dsimp only
  split
  · split
    · exact (h.modLot _ _).placeQuiet _ _
    · exact h.modLot _ _
  · exact h.modLot _ _

theorem setupFailure (h : Keeps s t) (c : Nat) (x : FaultCause) : Keeps s (t.setupFailure c x) := by
  unfold State.setupFailure
  split
  · exact h
  · exact (((((h.closeIfOpen _ _ _).popTop _).countFailure _ _).sendLot _ _ _).detachLower _).toFault _ _ _

/-! ### The effect of a hold -/

theorem holdInSetup (h : Keeps s t) (c k : Nat) : Keeps s (t.holdInSetup c k) := by
  unfold State.holdInSetup
  split
  · exact h
  · exact (((h.closeIfOpen _ _ _).popTop _).toHeld _).afterTop _

theorem holdLower (h : Keeps s t) (c k : Nat) : Keeps s (t.holdLower c k) := by
  unfold State.holdLower
  dsimp only
  split
  · exact ((h.closeSegment _ _ _).modCell _ _).toHeld _
  · exact (h.modCell _ _).toHeld _

theorem holdAssigned (h : Keeps s t) (k : Nat) (r : HoldReason) : Keeps s (t.holdAssigned k r) := by
  unfold State.holdAssigned
  split
  · split
    · exact h.holdInSetup _ _
    · exact h.requestStop _ _
  · split
    · exact (h.dropIncoming _).toHeld _
    · exact h

theorem holdEffect (h : Keeps s t) (k : Nat) (r : HoldReason) : Keeps s (t.holdEffect k r) := by
  unfold State.holdEffect
  split
  · exact h
  · split
    · exact (h.leaveQueue _).toHeld _
    · exact h.holdAssigned _ _
    · split
      · exact h.requestStop _ _
      · exact h
    · split
      · exact h.holdLower _ _
      · exact h
    · exact h.toHeld _
    · exact h
    · exact h

theorem placeHold (h : Keeps s t) (k : Nat) (n : NewHold) : Keeps s (t.placeHold k n) := by
  unfold State.placeHold
  dsimp only
  apply holdEffect
  split
  · exact (h.addHold _ _).heldNotice _ _ _
  · exact h.addHold _ _

theorem leaveHold (h : Keeps s t) (k : Nat) : Keeps s (t.leaveHold k) := by
  unfold State.leaveHold
  split
  · exact h
  · split
    · dsimp only
      split
      · split
        · exact (h.dropTarget _).passOn _
        · exact (h.dropTarget _).complete _
        · exact (h.dropTarget _).joinQueue _ _
        · exact (h.dropTarget _).joinQueue _ _
      · exact h.dropTarget _
    · exact h

/-! ### The bin stream -/

theorem demote (h : Keeps s t) (c x k i : Nat) : Keeps s (t.demote c x k i) := by
  unfold State.demote
  split
  · exact (((h.modCell _ _).order _ _ _).notice _).event _ _
  · exact h

theorem siteTrip (h : Keeps s t) (c : Nat) (r : Run) (p : Profile) (x : Nat) (k : List Trip) :
    Keeps s (t.siteTrip c r p x k) := by
  unfold State.siteTrip
  split
  · exact h
  · split
    · exact h.demote _ _ _ _
    · exact h.placeHold _ _

theorem handTrips (h : Keeps s t) (c : Nat) (r : Run) (p : Profile) (x : Nat) (g k : List Trip) :
    Keeps s (t.handTrips c r p x g k) := by
  unfold State.handTrips
  dsimp only
  apply siteTrip
  split
  · exact h.recordTrips _ _
  · exact (h.recordTrips _ _).placeHold _ _

theorem guardRecord (h : Keeps s t) (c : Nat) (r : Run) (x y z : Nat) : Keeps s (t.guardRecord c r x y z) := by
  unfold State.guardRecord
  dsimp only
  split
  · split
    · exact h.modAcc _ _
    · exact (h.modAcc _ _).handTrips _ _ _ _ _ _
  · split
    · exact h.modAcc _ _
    · exact (h.modAcc _ _).handTrips _ _ _ _ _ _

theorem countRecord (h : Keeps s t) (c : Nat) (r : Run) (x y z : Nat) : Keeps s (t.countRecord c r x y z) :=
  ((h.guardRecord _ _ _ _ _).modLot _ _).event _ _

theorem overcount (h : Keeps s t) (k : Nat) : Keeps s (t.overcount k) := (h.modAcc _ _).placeHold _ _

theorem settleRecord (h : Keeps s t) (c : Nat) (d : Drop) (x y z : Nat) : Keeps s (t.settleRecord c d x y z) := by
  unfold State.settleRecord
  split
  · exact h.countRecord _ _ _ _ _
  · exact (h.overcount _).event _ _
  · exact h.event _ _

theorem stream (h : Keeps s t) (m : Msg) (b : BinBody) (d : Drop) : Keeps s (t.stream m b d) := by
  unfold State.stream
  split
  · exact h.clearCtx _
  · split
    · exact h.modCell _ _
    · exact h

theorem takeBin (h : Keeps s t) (m : Msg) : Keeps s (t.takeBin m) := by
  unfold State.takeBin
  split
  · exact (h.event _ _).forward _ _ _
  · dsimp only
    apply forward
    split
    · exact h.settleRecord _ _ _ _ _
    · exact (h.settleRecord _ _ _ _ _).stream _ _ _

theorem compactRecords (c : Nat) (l : List CompactRec) :
    ∀ {t : State} (e : Bool), Keeps s t → Keeps s (t.compactRecords c e l).1 := by
  induction l with
  | nil => intro t e h; exact h
  | cons x rest ih =>
    intro t e h
    unfold State.compactRecords
    dsimp only
    apply ih
    split
    · exact (h.settleRecord _ _ _ _ _).clearCtx _
    · exact h.settleRecord _ _ _ _ _

theorem takeCompact (h : Keeps s t) (m : Msg) : Keeps s (t.takeCompact m) := by
  unfold State.takeCompact
  split
  · exact (h.event _ _).forward _ _ _
  · dsimp only
    split
    · exact (compactRecords _ _ _ h).forward _ _ _
    · exact (foldl _ (fun _ h => h.event _ _) _ h).forward _ _ _

/-! ### Dispatch -/

theorem pair (h : Keeps s t) (k : Nat) (l : Lot) (c : Nat) : Keeps s (t.pair k l c) :=
  ((((h.leaveQueue _).setLotState _ _).pushRun _ _).enterSetup _).event _ _

theorem preempt (h : Keeps s t) (k : Nat) (l : Lot) (c : Nat) : Keeps s (t.preempt k l c) :=
  (((((h.leaveQueue _).setLotState _ _).modCell _ _).requestStop _ _).event _ _).event _ _

theorem walkMember (h : Keeps s t) (u : List Nat) (m : Member) : Keeps s (t.walkMember u m).1 := by
  unfold State.walkMember
  split
  · exact h
  · split
    · exact h.pair _ _ _
    · split
      · split
        · exact h.preempt _ _ _
        · exact h
      · exact h

theorem walk (l : List Member) : ∀ {t : State} (u : List Nat), Keeps s t → Keeps s (t.walk u l) := by
  induction l with
  | nil => intro t u h; exact h
  | cons m rest ih => intro t u h; exact ih _ (h.walkMember _ _)

theorem dispatchPass (h : Keeps s t) : Keeps s t.dispatchPass := by
  unfold State.dispatchPass
  split
  · exact h
  · exact walk _ _ h

theorem settle (h : Keeps s t) : Keeps s t.settle := by
  unfold State.settle
  split
  · exact h.dispatchPass.trans of_floor
  · exact h

theorem judgeLapse (h : Keeps s t) (c : Nat) : Keeps s (t.judgeLapse c) := by
  unfold State.judgeLapse
  split
  · split
    · exact h.requestStop _ _
    · exact h.requestStop _ _
    · exact h.requestStop _ _
    · exact h.abandonSetup _
    all_goals exact h
  · exact h

theorem judgeLapses (h : Keeps s t) : Keeps s t.judgeLapses := foldl _ (fun _ h => h.judgeLapse _) _ h

/-! ### Cell messages -/

theorem toReady (h : Keeps s t) (c : Nat) (b : Bool) : Keeps s (t.toReady c b) := by
  unfold State.toReady
  split
  · exact h.toIdle _
  · exact h.toOffline _

theorem equipmentRestart (h : Keeps s t) (c : Nat) (b : StatusBody) : Keeps s (t.equipmentRestart c b) := by
  unfold State.equipmentRestart
  dsimp only
  generalize hu : State.detach _ c = u
  have h1 : Keeps s u := by
    subst hu
    apply detach
    split <;> first | exact h | exact h.placeQuiet _ _
  split
  · exact h1.toFault _ _ _
  · exact h1.toReady _ _

theorem statusInFault (h : Keeps s t) (c : Nat) (b : StatusBody) : Keeps s (t.statusInFault c b) := by
  unfold State.statusInFault
  split
  · split
    · exact h.order _ _ _
    · exact h.toFault _ _ _
  · split
    · exact h.toReady _ _
    · exact h

theorem statusState (h : Keeps s t) (c : Nat) (b : StatusBody) : Keeps s (t.statusState c b) := by
  unfold State.statusState
  split
  · split
    · exact h.toFault _ _ _
    · split
      · exact h.toIdle _
      · exact h
  · split
    · exact h.toFault _ _ _
    · split
      · exact h
      · exact h.toOffline _
  · split
    · exact (h.detach _).toFault _ _ _
    · exact h
  · exact h.statusInFault _ _
  · split
    · exact h.modCell _ _
    · exact h
  · split
    · exact h.toRunning _
    · exact h
  · exact h
  · exact h

theorem statusItems (h : Keeps s t) (c : Nat) : Keeps s (t.statusItems c) := by
  unfold State.statusItems
  split
  · exact (h.modCell _ _).checkSetup _
  · exact h

theorem takeExpiry (h : Keeps s t) (c : Nat) (e : Option Nat) : Keeps s (t.takeExpiry c e) := by
  unfold State.takeExpiry
  split
  · exact h
  · exact ((h.modCell _ _).judgeLapse _).startPass

theorem sendMask (h : Keeps s t) (c : Nat) : Keeps s (t.sendMask c) := (h.modCell _ _).order _ _ _

theorem restoreSites (h : Keeps s t) (c : Nat) : Keeps s (t.restoreSites c) := by
  unfold State.restoreSites
  dsimp only
  split
  · exact ((h.modCell _ _).sendMask _).startPass
  · exact (h.modCell _ _).sendMask _

theorem compareSites (h : Keeps s t) (c : Nat) (m : Mask16) : Keeps s (t.compareSites c m) := by
  unfold State.compareSites
  split
  · exact h.modCell _ _
  · exact h.sendMask _

theorem restartSilence (h : Keeps s t) (c : Nat) : Keeps s (t.restartSilence c) := h.modTimers _ _

theorem acceptStatus (h : Keeps s t) (c : Nat) (b : StatusBody) : Keeps s (t.acceptStatus c b) := by
  have h1 : Keeps s (if b.restarted then t.clearOrder c else t) := by
    split
    · exact h.clearOrder _
    · exact h
  have h2 : Keeps s (if (b.restarted && (t.cell c).holdsRun) = true then
      (if b.restarted then t.clearOrder c else t).equipmentRestart c b
      else (if b.restarted then t.clearOrder c else t).statusState c b) := by
    split
    · exact h1.equipmentRestart _ _
    · exact h1.statusState _ _
  have h3 := h2.modCell c (recordEquipment b (t.cell c).state (b.restarted && (t.cell c).holdsRun))
  unfold State.acceptStatus
  dsimp only
  apply restartSilence
  split
  · apply restoreSites
    apply takeExpiry
    split
    · exact h3.statusItems _
    · exact h3
  · apply compareSites
    apply takeExpiry
    split
    · exact h3.statusItems _
    · exact h3

theorem takeStatus (h : Keeps s t) (m : Msg) : Keeps s (t.takeStatus m) := by
  unfold State.takeStatus
  split
  · split
    · exact h.acceptStatus _ _
    · exact h
  · exact h

theorem completeLoad (h : Keeps s t) (c : Nat) : Keeps s (t.completeLoad c) := h.modCell _ _

theorem rejudgeLoad (h : Keeps s t) (c : Nat) : Keeps s (t.rejudgeLoad c) := by
  unfold State.rejudgeLoad
  split
  · dsimp only
    split
    · exact h.startLoad _ _ _
    · exact (h.completeLoad _).checkSetup _
  · exact h

theorem loadAnswer (h : Keeps s t) (c : Nat) (ok : Bool) (v w : ProgVals) : Keeps s (t.loadAnswer c ok v w) := by
  unfold State.loadAnswer
  dsimp only
  split
  · exact ((((h.clearOrder _).modCell _ _).modTimers _ _).completeLoad _).checkSetup _
  · exact (((h.clearOrder _).modCell _ _).modTimers _ _).setupFailure _ _

theorem acceptLoadDone (h : Keeps s t) (c : Nat) (ok : Bool) (v : ProgVals) : Keeps s (t.acceptLoadDone c ok v) := by
  unfold State.acceptLoadDone
  split
  · split
    · exact h.loadAnswer _ _ _ _
    · exact ((h.clearOrder _).modCell _ _).rejudgeLoad _
  · split
    · exact h.modCell _ _
    · exact h

theorem takeLoadDone (h : Keeps s t) (m : Msg) : Keeps s (t.takeLoadDone m) := by
  unfold State.takeLoadDone
  split
  · split
    · exact h.acceptLoadDone _ _ _
    · exact h
  · exact h

/-! ### Run events -/

theorem countDrop (h : Keeps s t) (c : Nat) (d : Drop) : Keeps s (t.countDrop c d) := h.modCell _ _

theorem runEvent (h : Keeps s t) (m : Msg) (p : Option Pass) (k : Cell → Run → Bool) (act : State → Nat → Run → State)
    (ha : ∀ {u : State} (c : Nat) (r : Run), Keeps s u → Keeps s (act u c r)) : Keeps s (t.runEvent m p k act) := by
  unfold State.runEvent
  dsimp only
  split
  · split
    · exact ha _ _ (h.modLot _ _)
    · exact h.countDrop _ _
  · exact h
  · exact h.countDrop _ _

theorem startRun (h : Keeps s t) (c : Nat) (r : Run) : Keeps s (t.startRun c r) := by
  unfold State.startRun
  dsimp only
  generalize hu : (if r.segOpen = true then _ else State.openSegment _ c r) = u
  have h1 : Keeps s u := by
    subst hu
    split
    · exact (h.modTop _ _).modLot _ _
    · exact ((h.modTop _ _).modLot _ _).openSegment _ _
  split
  · exact h1.toRunning _
  · exact h1

theorem takeRunStarted (h : Keeps s t) (m : Msg) : Keeps s (t.takeRunStarted m) := by
  unfold State.takeRunStarted
  split
  · exact h.runEvent _ _ _ _ fun _ _ h => h.startRun _ _
  · exact h

theorem endStep (h : Keeps s t) (c : Nat) (r : Run) : Keeps s (t.endStep c r) :=
  (((h.stepEnd _ _).popTop _).afterTop _).sendLot _ _ _

theorem startRetest (h : Keeps s t) (c k : Nat) : Keeps s (t.startRetest c k) := by
  unfold State.startRetest
  dsimp only
  split
  · exact (h.toRetest _ _).sendStart _ _
  · exact h.toRetest _ _

theorem endPass (h : Keeps s t) (c : Nat) (r : Run) (p : Pass) (n : Nat) : Keeps s (t.endPass c r p n) := by
  have h1 : Keeps s (if (t.cell c).state = .starting then t.startRun c r else t) := by
    split
    · exact h.startRun _ _
    · exact h
  unfold State.endPass
  dsimp only
  generalize (if (t.cell c).state = .starting then t.startRun c r else t) = u at h1 ⊢
  split
  · exact (h1.clearCtx _).modAcc _ _
  · split
    · exact ((h1.clearCtx _).modAcc _ _).startRetest _ _
    · exact ((h1.clearCtx _).modAcc _ _).endStep _ _

theorem markPassEnd (h : Keeps s t) (c : Nat) (r : Run) (p : Pass) (n : Nat) : Keeps s (t.markPassEnd c r p n) := by
  unfold State.markPassEnd
  dsimp only
  split
  · exact (h.startRun _ _).modTop _ _
  · exact h.modTop _ _

theorem takePassEnd (h : Keeps s t) (m : Msg) : Keeps s (t.takePassEnd m) := by
  unfold State.takePassEnd
  split
  · refine h.runEvent _ _ _ _ fun c r h => ?_
    split
    · exact h.markPassEnd _ _ _ _
    · exact h.endPass _ _ _ _
  · exact h

theorem closeTop (h : Keeps s t) (c : Nat) (x : CloseCause) : Keeps s (t.closeTop c x) := by
  unfold State.closeTop
  split
  · exact h.closeIfOpen _ _ _
  · exact h

theorem settleStop (h : Keeps s t) (c k : Nat) (b : Bool) (x : CloseCause) : Keeps s (t.settleStop c k b x) :=
  (((h.closeTop _ _).popTop _).sendLot _ _ _).afterTop _

theorem takeIncoming (h : Keeps s t) (c : Nat) : Keeps s (t.takeIncoming c) := by
  unfold State.takeIncoming
  split
  · exact (h.modCell _ _).pushRun _ _
  · exact h

theorem settlePreempt (h : Keeps s t) (c k : Nat) (b : Bool) : Keeps s (t.settlePreempt c k b) := by
  unfold State.settlePreempt
  apply afterTop
  apply takeIncoming
  split
  · exact ((h.closeTop _ _).popTop _).toHeld _
  · split
    · exact (h.popTop _).passOn _
    · exact h.setLotState _ _

theorem endStop (h : Keeps s t) (c : Nat) (r : Run) : Keeps s (t.endStop c r) := by
  unfold State.endStop
  dsimp only
  split
  · exact ((((h.clearCtx _).modTop _ _).modTimers _ _).settleStopped _).settlePreempt _ _ _
  · exact ((((h.clearCtx _).modTop _ _).modTimers _ _).settleStopped _).settleStop _ _ _ _

theorem unorderedStop (h : Keeps s t) (c : Nat) (r : Run) : Keeps s (t.unorderedStop c r) :=
  ((h.clearCtx _).modTop _ _).settleStop _ _ _ _

theorem takeRunStopped (h : Keeps s t) (m : Msg) : Keeps s (t.takeRunStopped m) := by
  unfold State.takeRunStopped
  split
  · refine h.runEvent _ _ _ _ fun c r h => ?_
    split
    · exact h.endStop _ _
    · exact h.unorderedStop _ _
  · exact h

/-! ### Expiries -/

theorem fallSilent (h : Keeps s t) (c : Nat) : Keeps s (t.fallSilent c) := (h.detach _).toOffline _

theorem stopExpired (h : Keeps s t) (c : Nat) : Keeps s (t.stopExpired c) := (h.detach _).toFault _ _ _

end Keeps

end Sys2Proof.Machine
end

