-- ==== Sys2Proof/Laws/PerInstr.lean ====
section
/-! SUPPORT. The family `Shape`: a well-formed command whose frame is opened and read carries a body that a frame
holds (R202). One lemma for each row. -/

section

set_option Elab.async false

open Sys2Proof Sys2Proof.Machine

/-- The message of a well-formed command has a body of at most 1,490 bytes (R202). -/
def Sys2Proof.Laws.Shape.Statement (i : Instr) : Prop :=
  i.wellFormed = true → ∀ m, i.message? = some m → m.body.length ≤ maxBody

/-- A request addressed to PART fits a frame. -/
theorem Sys2Proof.Laws.toPart_fits {m : Msg} (h : m.toPart = true) : m.body.length ≤ maxBody := by
  simp only [Msg.toPart, Msg.fits, Bool.and_eq_true, decide_eq_true_eq] at h; exact h.1

theorem Sys2Proof.Laws.Shape.hardReset : Shape.Statement (.hardReset) := fun _ _ h => nomatch h

theorem Sys2Proof.Laws.Shape.resetRelease : Shape.Statement (.resetRelease) := fun _ _ h => nomatch h

theorem Sys2Proof.Laws.Shape.imageLoadComplete : Shape.Statement (.imageLoadComplete) := fun _ _ h => nomatch h

theorem Sys2Proof.Laws.Shape.flashTimeout : Shape.Statement (.flashTimeout) := fun _ _ h => nomatch h

theorem Sys2Proof.Laws.Shape.secondEvent (x : _) : Shape.Statement (.secondEvent x) := fun _ _ h => nomatch h

theorem Sys2Proof.Laws.Shape.silenceTimeout (x : _) : Shape.Statement (.silenceTimeout x) := fun _ _ h => nomatch h

theorem Sys2Proof.Laws.Shape.loadTimeout (x : _) : Shape.Statement (.loadTimeout x) := fun _ _ h => nomatch h

theorem Sys2Proof.Laws.Shape.kitTimeout (x : _) : Shape.Statement (.kitTimeout x) := fun _ _ h => nomatch h

theorem Sys2Proof.Laws.Shape.soakTimeout (x : _) : Shape.Statement (.soakTimeout x) := fun _ _ h => nomatch h

theorem Sys2Proof.Laws.Shape.startTimeout (x : _) : Shape.Statement (.startTimeout x) := fun _ _ h => nomatch h

theorem Sys2Proof.Laws.Shape.stopTimeout (x : _) : Shape.Statement (.stopTimeout x) := fun _ _ h => nomatch h

theorem Sys2Proof.Laws.Shape.jamTimeout (x : _) : Shape.Statement (.jamTimeout x) := fun _ _ h => nomatch h

theorem Sys2Proof.Laws.Shape.inhibitChange (x : _) : Shape.Statement (.inhibitChange x) := fun _ _ h => nomatch h

theorem Sys2Proof.Laws.Shape.portLinkChange (x : _) (y : _) : Shape.Statement (.portLinkChange x y) := fun _ _ h => nomatch h

theorem Sys2Proof.Laws.Shape.queueSend (x : _) : Shape.Statement (.queueSend x) := fun _ _ h => nomatch h

theorem Sys2Proof.Laws.Shape.foreignFrame (x : _) (y : _) : Shape.Statement (.foreignFrame x y) := fun _ _ h => nomatch h

theorem Sys2Proof.Laws.Shape.headerUnreadable (x : _) (y : _) : Shape.Statement (.headerUnreadable x y) := fun _ _ h => nomatch h

theorem Sys2Proof.Laws.Shape.floorForwardOnly (k : Code16) (m : Msg) : Shape.Statement (.floorForwardOnly k m) := by
  rintro h _ ⟨⟩; simp only [Instr.wellFormed, Msg.fits, Bool.and_eq_true, decide_eq_true_eq] at h; exact h.1

theorem Sys2Proof.Laws.Shape.plantFrameToCell (k : Code16) (m : Msg) : Shape.Statement (.plantFrameToCell k m) := by
  rintro h _ ⟨⟩; simp only [Instr.wellFormed, Msg.fits, Bool.and_eq_true, decide_eq_true_eq] at h; exact h.1

theorem Sys2Proof.Laws.Shape.plantFrameToPlant (k : Code16) (m : Msg) : Shape.Statement (.plantFrameToPlant k m) := by
  rintro h _ ⟨⟩; simp only [Instr.wellFormed, Msg.fits, Bool.and_eq_true, decide_eq_true_eq] at h; exact h.1

theorem Sys2Proof.Laws.Shape.nonRequestToPart (k : Code16) (m : Msg) : Shape.Statement (.nonRequestToPart k m) := by
  rintro h _ ⟨⟩; simp only [Instr.wellFormed, Bool.and_eq_true] at h; exact Laws.toPart_fits h.1

theorem Sys2Proof.Laws.Shape.status (m : Msg) : Shape.Statement (.status m) := by
  rintro h _ ⟨⟩; simpa [Instr.wellFormed, Msg.fromCell, Msg.fits] using h

theorem Sys2Proof.Laws.Shape.loadDone (m : Msg) : Shape.Statement (.loadDone m) := by
  rintro h _ ⟨⟩; simpa [Instr.wellFormed, Msg.fromCell, Msg.fits] using h

theorem Sys2Proof.Laws.Shape.runStarted (m : Msg) : Shape.Statement (.runStarted m) := by
  rintro h _ ⟨⟩; simpa [Instr.wellFormed, Msg.fromCell, Msg.fits] using h

theorem Sys2Proof.Laws.Shape.passEnd (m : Msg) : Shape.Statement (.passEnd m) := by
  rintro h _ ⟨⟩; simpa [Instr.wellFormed, Msg.fromCell, Msg.fits] using h

theorem Sys2Proof.Laws.Shape.runStopped (m : Msg) : Shape.Statement (.runStopped m) := by
  rintro h _ ⟨⟩; simpa [Instr.wellFormed, Msg.fromCell, Msg.fits] using h

theorem Sys2Proof.Laws.Shape.bin (m : Msg) : Shape.Statement (.bin m) := by
  rintro h _ ⟨⟩; simpa [Instr.wellFormed, Msg.fromCell, Msg.fits] using h

theorem Sys2Proof.Laws.Shape.binCompact (m : Msg) : Shape.Statement (.binCompact m) := by
  rintro h _ ⟨⟩; simpa [Instr.wellFormed, Msg.fromCell, Msg.fits] using h

theorem Sys2Proof.Laws.Shape.lotOrder (m : Msg) : Shape.Statement (.lotOrder m) := by
  rintro h _ ⟨⟩; exact Laws.toPart_fits h

theorem Sys2Proof.Laws.Shape.sweep (m : Msg) : Shape.Statement (.sweep m) := by
  rintro h _ ⟨⟩; exact Laws.toPart_fits h

theorem Sys2Proof.Laws.Shape.tableWriteActive (m : Msg) : Shape.Statement (.tableWriteActive m) := by
  rintro h _ ⟨⟩; simp only [Instr.wellFormed, Msg.selectsNone, Bool.and_eq_true] at h; exact Laws.toPart_fits h.1

theorem Sys2Proof.Laws.Shape.tableWriteStored (m : Msg) : Shape.Statement (.tableWriteStored m) := by
  rintro h _ ⟨⟩; simp only [Instr.wellFormed, Msg.selects, Bool.and_eq_true] at h; exact Laws.toPart_fits h.1

theorem Sys2Proof.Laws.Shape.storePhaseEnd : Shape.Statement (.storePhaseEnd) := fun _ _ h => nomatch h

theorem Sys2Proof.Laws.Shape.storedWriteComplete (x : _) : Shape.Statement (.storedWriteComplete x) := fun _ _ h => nomatch h

theorem Sys2Proof.Laws.Shape.tableReadActive (m : Msg) : Shape.Statement (.tableReadActive m) := by
  rintro h _ ⟨⟩; simp only [Instr.wellFormed, Msg.selectsNone, Bool.and_eq_true] at h; exact Laws.toPart_fits h.1

theorem Sys2Proof.Laws.Shape.tableReadStored (m : Msg) : Shape.Statement (.tableReadStored m) := by
  rintro h _ ⟨⟩; simp only [Instr.wellFormed, Msg.selects, Bool.and_eq_true] at h; exact Laws.toPart_fits h.1

theorem Sys2Proof.Laws.Shape.storedReadComplete : Shape.Statement (.storedReadComplete) := fun _ _ h => nomatch h

theorem Sys2Proof.Laws.Shape.hold (m : Msg) : Shape.Statement (.hold m) := by
  rintro h _ ⟨⟩; exact Laws.toPart_fits h

theorem Sys2Proof.Laws.Shape.releaseContinue (m : Msg) : Shape.Statement (.releaseContinue m) := by
  rintro h _ ⟨⟩; simp only [Instr.wellFormed, Msg.selectsNone, Bool.and_eq_true] at h; exact Laws.toPart_fits h.1

theorem Sys2Proof.Laws.Shape.releaseRework (m : Msg) : Shape.Statement (.releaseRework m) := by
  rintro h _ ⟨⟩; simp only [Instr.wellFormed, Msg.selects, Bool.and_eq_true] at h; exact Laws.toPart_fits h.1

theorem Sys2Proof.Laws.Shape.releaseScrap (m : Msg) : Shape.Statement (.releaseScrap m) := by
  rintro h _ ⟨⟩; simp only [Instr.wellFormed, Msg.selects, Bool.and_eq_true] at h; exact Laws.toPart_fits h.1

theorem Sys2Proof.Laws.Shape.groupHold (m : Msg) : Shape.Statement (.groupHold m) := by
  rintro h _ ⟨⟩; exact Laws.toPart_fits h

theorem Sys2Proof.Laws.Shape.groupRelease (m : Msg) : Shape.Statement (.groupRelease m) := by
  rintro h _ ⟨⟩; exact Laws.toPart_fits h

theorem Sys2Proof.Laws.Shape.groupRetire (m : Msg) : Shape.Statement (.groupRetire m) := by
  rintro h _ ⟨⟩; exact Laws.toPart_fits h

theorem Sys2Proof.Laws.Shape.shipConfirm (m : Msg) : Shape.Statement (.shipConfirm m) := by
  rintro h _ ⟨⟩; exact Laws.toPart_fits h

theorem Sys2Proof.Laws.Shape.queryLot (m : Msg) : Shape.Statement (.queryLot m) := by
  rintro h _ ⟨⟩; simp only [Instr.wellFormed, Msg.selectsNone, Bool.and_eq_true] at h; exact Laws.toPart_fits h.1

theorem Sys2Proof.Laws.Shape.queryCell (m : Msg) : Shape.Statement (.queryCell m) := by
  rintro h _ ⟨⟩; simp only [Instr.wellFormed, Msg.selects, Bool.and_eq_true] at h; exact Laws.toPart_fits h.1

theorem Sys2Proof.Laws.Shape.queryQueue (m : Msg) : Shape.Statement (.queryQueue m) := by
  rintro h _ ⟨⟩; simp only [Instr.wellFormed, Msg.selects, Bool.and_eq_true] at h; exact Laws.toPart_fits h.1

theorem Sys2Proof.Laws.Shape.queryShip (m : Msg) : Shape.Statement (.queryShip m) := by
  rintro h _ ⟨⟩; simp only [Instr.wellFormed, Msg.selects, Bool.and_eq_true] at h; exact Laws.toPart_fits h.1

theorem Sys2Proof.Laws.Shape.queryCounters (m : Msg) : Shape.Statement (.queryCounters m) := by
  rintro h _ ⟨⟩; simp only [Instr.wellFormed, Msg.selects, Bool.and_eq_true] at h; exact Laws.toPart_fits h.1

theorem Sys2Proof.Laws.Shape.queryPart (m : Msg) : Shape.Statement (.queryPart m) := by
  rintro h _ ⟨⟩; simp only [Instr.wellFormed, Msg.selects, Bool.and_eq_true] at h; exact Laws.toPart_fits h.1

theorem Sys2Proof.Laws.Shape.time (m : Msg) : Shape.Statement (.time m) := by
  rintro h _ ⟨⟩; exact Laws.toPart_fits h

theorem Sys2Proof.Laws.Shape.restart (m : Msg) : Shape.Statement (.restart m) := by
  rintro h _ ⟨⟩; exact Laws.toPart_fits h

theorem Sys2Proof.Laws.Shape.imageRereadComplete : Shape.Statement (.imageRereadComplete) := fun _ _ h => nomatch h

end
end

