-- ==== Sys2Proof/Tests/Slice0.lean ====
section
/-! SUPPORT. The tests of the model: each check of WellFormed refuses an ill-formed command; worked figures and examples
of the spec; and, for every statement with hypotheses, a concrete case that meets all of them together (`witness_…`). -/

namespace Sys2Proof.Tests

open Sys2Proof.Machine

set_option Elab.async false

/-! ### A small floor

Group 8 is OPEN, route 2 has two steps of program 11, kit 3, bin map 6 and profile 1, and cell 21 is registered with
four sites. Floor time is unset, so that dispatch passes are barred. -/

def bytes (l : List Nat) : List Byte := l.map fun n => BitVec.ofNat 8 n

/-- A management request naming lot `h` with number `i`. -/
def req (body : List Nat) (h i : Nat) : Msg :=
  ⟨0, 0x111, .part, 0, BitVec.ofNat 16 h, BitVec.ofNat 8 i, 0, bytes body, []⟩

/-- A message of cell 21 naming lot 128 with number 1 at step 0. -/
def cellMsg (body : List Nat) : Msg := ⟨0, 0x2121, .plant, 21, 128, 1, 0, bytes body, []⟩

def profile : Profile := ⟨1, 0, Vector.replicate 16 1000, 16, 0, 0, 1, 0, 1, 0, 1000, 255⟩

def reg21 : Registration := ⟨0x2121, 4, 0, 7⟩

def step0 : RouteStep := ⟨.test, .cold, 11, 3, 6, 1, true, none⟩

def route2 : Route := ⟨0, [step0, ⟨.test, .room, 11, 3, 6, 1, false, none⟩]⟩

def tables : Tables :=
  { Tables.factory with
    settings := { Settings.factory with mgmtAddr := 0x111 }
    groups := vmod Tables.factory.groups 8 fun _ => ⟨.opened, 4410, BitVec.allOnes 48, false⟩
    routes := vmod Tables.factory.routes 2 fun _ => some route2
    programs := vmod Tables.factory.programs 11 fun _ => some ⟨⟨3300, 1, 77⟩, 0, 1000⟩
    binMaps := vmod Tables.factory.binMaps 6 fun _ => some [⟨1, 1, 1, .pass⟩, ⟨7, 7, 4, .retestable⟩]
    profiles := vmod Tables.factory.profiles 1 fun _ => some profile
    regs := vmod Tables.factory.regs 21 fun _ => some reg21
    counters := vmod Tables.factory.counters 0 fun _ => some ⟨.event .paired, .event, 5, false⟩ }

/-- The part in NORMAL with a record of cell 21 and a lot in slot 128. -/
def floor (x : Cell) (l : Option Lot) : State :=
  { State.reset with
    tst := tables
    ctr := vmod (Vector.replicate 48 (Cell.reset 0)) 21 fun _ => x
    ldr := {
      slots := vmod (Vector.replicate 512 ⟨1, none⟩) 128 fun _ => ⟨1, l⟩
      useCount := vmod (Vector.replicate 16 0) 2 fun _ => if l.isSome then 1 else 0 }
    pcl := Pcl.reset true true
    tbs := { State.reset.tbs with resetIn := false, mode := .normal, ready := true } }

/-- Cell 21 in OFFLINE with its four sites. -/
def idleCell (st : CellState) : Cell := { Cell.reset 15 with state := st }

def lot : Lot := lotCreated ⟨bytes [65, 66], 8, 2, 10, 2, none⟩ step0 0

def run : Run := ⟨128, 1, 0, .first, false, false, none⟩

def segment : Segment := ⟨21, 3300, 1, 0, none⟩

/-- Cell 21 in a state with a run on its stack. -/
def runCell (st : CellState) (r : Run) : Cell :=
  { Cell.reset 15 with state := st, stack := [r], loaded := some ⟨3300, 1, 77⟩ }

/-- The floor with its part in another mode. -/
def inMode (s : State) (mode : Mode) : State := { s with tbs := { s.tbs with mode := mode } }

/-- The floor at a floor time. -/
def atTime (s : State) (f : Nat) : State := { s with tbs := { s.tbs with floorTime := some f } }

/-- The floor with a store work list. -/
def withWork (s : State) (l : List StoreOp) : State := { s with scn := { s.scn with work := l } }

theorem reset_fits (x : Mask16) : (Cell.reset x).runsFit ∧ (Cell.reset x).fieldsFit := by
  refine ⟨⟨rfl, by simp [Cell.reset]⟩, ?_⟩
  simp [Cell.fieldsFit, Cell.reset, Items.none, Timers.idle]

/-- The cells of the floor fit when the record of cell 21 does. -/
theorem floor_cellsFit {x : Cell} (l : Option Lot) (h : x.runsFit ∧ x.fieldsFit) : (floor x l).CellsFit := by
  intro c hc
  by_cases e : c = 21
  · subst e
    have : (floor x l).cell 21 = x := by simp [floor, State.cell, vget_vmod]
    rw [this]; exact h
  · have : (floor x l).cell c = Cell.reset 0 := by
      simp [floor, State.cell, vget_vmod, vget_replicate _ _ hc, Ne.symm e]
    rw [this]; exact reset_fits 0

/-- The cells of the floor fit while cell 21 holds runs in a state that allows them. -/
theorem floor_busy {x : Cell} (l : Option Lot)
    (h : ¬(x.state = .offline ∨ x.state = .idle ∨ x.state = .fault) ∧ (x.stack.length = 1 ∨ x.stack.length = 2) ∧
      (x.incoming.isSome → x.state = .stopping ∧ x.stopReason = some .preempt ∧ x.stack.length = 1) := by decide)
    (hf : x.fieldsFit := by unfold Cell.fieldsFit; decide) : (floor x l).CellsFit := by
  obtain ⟨hs, hr, hi⟩ := h
  refine floor_cellsFit l ⟨⟨?_, hi⟩, hf⟩
  cases e : x.state <;> simp [e] at hs ⊢ <;> exact hr

/-- The cells of a state fit when its cell records are those of a floor that fits. -/
theorem fit_as {s t : State} (h : s.CellsFit) (e : t.ctr = s.ctr) : t.CellsFit := by
  unfold State.CellsFit State.cell; rw [e]; exact h


theorem idle_fits : (idleCell .idle).runsFit ∧ (idleCell .idle).fieldsFit :=
  ⟨⟨rfl, by decide⟩, by unfold Cell.fieldsFit; decide⟩

/-! ### WellFormed refuses -/

/-- R164: a readable header is no HEADER_UNREADABLE. -/
theorem test_wf_header : (Instr.headerUnreadable .floor ⟨0, 0, 0, bytes [5, 0, 0, 0, 0, 0, 0, 0, 0, 0]⟩).wellFormed = false := by
  decide +kernel

/-- R165: a cell kind is taken, not forwarded only; R202: a body holds at most 1,490 bytes. -/
theorem test_wf_floor : (Instr.floorForwardOnly Kind.bin (cellMsg [])).wellFormed = false ∧
    (Instr.floorForwardOnly 5 (cellMsg (List.replicate 1491 0))).wellFormed = false ∧
    (Instr.status (cellMsg (List.replicate 1491 0))).wellFormed = false := by decide +kernel

/-- R167: a frame of the plant port is its destination's row. -/
theorem test_wf_dest : (Instr.plantFrameToCell 5 (req [] 0 0)).wellFormed = false ∧
    (Instr.plantFrameToPlant 5 (req [] 0 0)).wellFormed = false ∧
    (Instr.hold (cellMsg [])).wellFormed = false := by decide +kernel

/-- R172: a request kind addressed to PART is a request. -/
theorem test_wf_kind : (Instr.nonRequestToPart Kind.time (req [] 0 0)).wellFormed = false := by decide +kernel

/-- R174, R175, R140, R176: the selector byte decides between the rows of a kind. -/
theorem test_wf_selector : (Instr.tableWriteActive (req [0, 1, 1] 0 0)).wellFormed = false ∧
    (Instr.tableWriteStored (req [0, 1, 0] 0 0)).wellFormed = false ∧
    (Instr.tableReadStored (req [0, 1, 0] 0 0)).wellFormed = false ∧
    (Instr.releaseScrap (req [0, 1, 0, 1] 0 0)).wellFormed = false ∧
    (Instr.queryPart (req [0, 1, 4] 0 0)).wellFormed = false := by decide +kernel

/-! ### Worked figures of the spec -/

/-- R183: the check value of the nine digits under this polynomial, bit order, start and inversion is the one the
cyclic check is known by. -/
theorem test_crc : crc32 (bytes [49, 50, 51, 52, 53, 54, 55, 56, 57]) = 0xCBF43926 := by decide +kernel

/-- Section 2.4, the example of overlapping ranges. -/
theorem test_bin_map :
    let m : List BinRange := [⟨1, 1, 1, .pass⟩, ⟨2, 3, 2, .pass⟩, ⟨10, 19, 3, .retestable⟩, ⟨10, 99, 5, .fail⟩, ⟨200, 250, 8, .fail⟩]
    [1, 3, 15, 40, 0, 150, 222].map (mapBin m) = [⟨1, .pass, false⟩, ⟨2, .pass, false⟩, ⟨3, .retestable, false⟩,
      ⟨5, .fail, false⟩, ⟨15, .fail, true⟩, ⟨15, .fail, true⟩, ⟨8, .fail, false⟩] := by decide +kernel

/-- Section 2.4: position 3 is written 19 to 10, is stored 10 to 19, and is reported exchanged. -/
theorem test_bin_map_write : readEntry 4 4 false (bytes [2, 200, 250, 8, 2, 19, 10, 3, 3]) =
    .ok (some (.binMap [⟨200, 250, 8, .fail⟩, ⟨10, 19, 3, .retestable⟩])) (.exchanged 1) := by decide +kernel

/-- R65 and section 4.8's example: 250,000 units on one site, and the three estimates of the pass. -/
theorem test_estimate : estimate 250000 1 60000 = 15000000 ∧ estimate 3200 14 1200 = 275 ∧ estimate 3200 16 1200 = 240 ∧
    estimate 8000 16 900 = 450 := by decide +kernel

/-- R66: only a kit change and 15 of 16 sites enabled score 680. -/
theorem test_score : scoreOf { Cell.reset 0x7FFF with
      loaded := some ⟨1, 2, 3⟩, kit := some 4, setpoint := some .hot, atSetpoint := true } 16 ⟨1, 2, 9⟩ 5 .hot = 680 := by
  decide +kernel

/-- R124: 920 of 1,001 and 919 of 1,000 report 919, and 3,679 of 4,000 reports 920. -/
theorem test_yield : [(920, 1001), (919, 1000), (3679, 4000)].map (fun x => yieldPermille x.1 x.2) =
    [some 919, some 919, some 920] := by decide +kernel

/-- Section 12.2: the class-and-hard-bin byte of a RETESTABLE record of hard bin 4 is 0x34, and its outcome 0. -/
theorem test_annotation : (floor (runCell .running run) (some lot)).annotation 21 .counted 7 = [0x34, 0] := by decide +kernel

/-- R202: the header of a REPLY addressed to PLANT, with a body of 5 bytes. -/
theorem test_header : headerBytes ⟨Kind.reply, .plant, 21, 258, 3, 4⟩ 5 = bytes [4, 1, 1, 21, 1, 2, 3, 4, 0, 5] := by
  decide +kernel

/-- R45, R136, R203: a CELL_FAULT without a lot has two absent fields, with one two present ones; a HOLD reply ends with the
return target alone. -/
theorem test_presence_bytes : (NoticeBody.cellFault 21 .startTimeout none).bytes = bytes [21, 2, 0, 0] ∧
    (NoticeBody.cellFault 21 .startTimeout (some (128, 1))).bytes = bytes [21, 2, 1, 0, 128, 1, 1] ∧
    (ReplyBody.hold .held 1 1 (some .advance)).bytes.drop 1 = bytes [1, 1, 1] := by decide +kernel

/-- R107, R127, R177: the window of PASS, RETESTABLE and FAIL with one PASS, whole and by its counts. -/
theorem test_window_bytes :
    let a : Acc := { lot.acc with window := [.pass, .retestable, .fail], winPass := 1 }
    windowBytes a = bytes [0, 3, 1, 3, 2, 0, 1] ∧ windowCounts a = bytes [0, 3, 0, 1] := by decide +kernel

/-- R25, R203: a bin map of 32 ranges is taken, one of none is BAD_ENTRY, and one of 33 is BAD_ENTRY or MALFORMED. -/
theorem test_bin_map_counts :
    let ranges (n : Nat) := (List.replicate n (bytes [1, 1, 1, 1])).flatten
    (match readEntry 4 0 false (bytes [32] ++ ranges 32) with | .ok (some (.binMap l)) _ => l.length | _ => 0) = 32 ∧
    readEntry 4 0 false (bytes [0]) = .bad ∧
    readEntry 4 0 false (bytes [33] ++ ranges 33) = if Config.longCountIsLength then .malformed else .bad := by
  refine ⟨by decide +kernel, by decide +kernel, ?_⟩
  unfold readEntry readContents readBinMap readRanges readListCount
  generalize Config.longCountIsLength = b
  cases b <;> decide +kernel

/-- R25, R187: an area whose range has its low above its high is loaded as it stands, and a write of it exchanged. -/
theorem test_stored_range :
    decodeArea 4 0 (bytes [0, 1, 9, 5, 3, 1]) = some (some (.binMap [⟨9, 5, 3, .pass⟩])) ∧
    readEntry 4 0 false (bytes [1, 9, 5, 3, 1]) = .ok (some (.binMap [⟨5, 9, 3, .pass⟩])) (.exchanged 1) := by decide +kernel

/-- R113, R187: an area with W 10 is loaded with W 10, and a write of it clamped to 16. -/
theorem test_stored_window :
    let b := entryBytes 0 (.profile { profile with window := 10 })
    decodeArea 5 0 (0 :: b) = some (some (.profile { profile with window := 10 })) ∧
    readEntry 5 0 false b = .ok (some (.profile { profile with window := 16 })) (.window true 16) := by decide +kernel

/-- R9: the number after 255 is 1. -/
theorem test_next_number : nextInst 255 = 1 ∧ nextInst 7 = 8 := by decide

/-- Section 11.5's example: an EDGE counter of lots HELD with threshold 3 over the samples 4, 2, 3, 5. -/
theorem test_edge :
    let cfg : CounterCfg := ⟨.occupancy .lotsHeld, .edge, 3, false⟩
    ([4, 2, 3, 5].foldl (fun (x : Nat × Option Bool) v => (sampledValue cfg v x.2 x.1, sampledLast cfg v x.2)) (0, none)) =
      (1, some true) := by decide +kernel

/-- Table R204: an unmapped record is counted in hard bin 15 as FAIL, with a mismatch (R26). -/
theorem test_unmapped : let a := countFirst lot.acc profile (mapBin [] 3) 0 15 true true
    (a.tested1, a.good1, vget a.hardBins 0 15, a.unmapped, a.mismatch) = (1, 0, 1, 1, 1) := by decide +kernel

/-! ### Witnesses: what the small floor meets -/

section Floor

variable {x : Cell} {l : Option Lot} {m : Msg} {tag : Nat} {rest : List Byte}

theorem floor_takes : (floor x l).takes := ⟨rfl, by simp [floor]⟩

theorem floor_accepts (h : m.src = 0x111) (ht : readTag m.body = some (tag, rest)) : (floor x l).accepts m tag rest :=
  ⟨floor_takes, .inr h, ht⟩

theorem floor_plantRoom : (floor x l).plantRoom 2 := by simp [State.plantRoom, floor, Pcl.reset, queueCapacity]

theorem floor_plantRoom1 : (floor x l).plantRoom 1 := by simp [State.plantRoom, floor, Pcl.reset, queueCapacity]

theorem floor_floorRoom : (floor x l).floorRoom 1 := by simp [State.floorRoom, floor, Pcl.reset, queueCapacity]

theorem floor_floorRoom4 : (floor x l).floorRoom 4 := by simp [State.floorRoom, floor, Pcl.reset, queueCapacity]

theorem floor_plantRoom3 : (floor x l).plantRoom 3 := by simp [State.plantRoom, floor, Pcl.reset, queueCapacity]

theorem floor_noticesGo : (floor x l).noticesGo := ⟨by simp [floor, tables], rfl⟩

theorem floor_reg : (floor x l).reg? 21 = some reg21 := by simp [State.reg?, floor, tables, vget_vmod]

theorem floor_cell : (floor x l).cell 21 = x := by simp [State.cell, floor, vget_vmod]

theorem floor_stack : ((floor x l).cell 21).stack = x.stack := by rw [floor_cell]

theorem floor_slot : (floor x l).slot 128 = ⟨1, l⟩ := by simp [State.slot, floor, vget_vmod]

theorem floor_knows (body : List Nat) : (floor x l).knowsCell (cellMsg body) reg21 := ⟨by show (21#8).toNat < 48; decide, floor_reg, rfl⟩

theorem floor_bound (x : Cell) (l : Option Lot) :
    groupOf 128 < 32 ∧ ((floor x l).group (groupOf 128)).state ≠ .unbound := by
  simp [State.group, floor, tables, groupOf, vget_vmod]

theorem floor_names {body : List Nat} {k : Lot} : (floor x (some k)).namesLot (cellMsg body) k :=
  ⟨(floor_bound x (some k)).1, (floor_bound x (some k)).2, floor_slot⟩

theorem floor_namesReq {body : List Nat} {k : Lot} : (floor x (some k)).namesLot (req body 128 1) k :=
  ⟨(floor_bound x (some k)).1, (floor_bound x (some k)).2, floor_slot⟩

theorem floor_noStop {k : Lot} (h : x.state ≠ .stopping) : (floor x (some k)).noStopPending 128 := by
  intro c hc ht
  by_cases e : c = 21
  · subst e; rw [floor_cell]; exact h
  · have : (floor x (some k)).cell c = Cell.reset 0 := by
      simp [floor, State.cell, vget_vmod, vget_replicate _ _ hc, Ne.symm e]
    rw [this]; simp [Cell.reset]

end Floor

/-! ### Witnesses: the whole machine -/

/-- A state that has every invariant, with a command waiting. -/
def invariantState : State :=
  { floor (idleCell .idle) (some lot) with
    pending := [.portLinkChange .plant false]
    dar := ⟨[⟨128, 1, 2, 0, .first⟩], false⟩ }

theorem witness_StepKeepsCapacities : invariantState.Fits ∧ ∃ t, step invariantState = .next t := by
  refine ⟨⟨by unfold State.queuesFit; decide, by unfold State.sequenceFits; decide, ?_, by unfold State.shipFits; decide,
    by unfold State.workFits; decide, by unfold State.readyFollows; decide⟩, _, rfl⟩
  intro h hh
  simp only [invariantState, State.slot, floor, vget_vmod, vget_replicate _ _ hh]
  split <;> decide

theorem witness_StepKeepsCellsFit : invariantState.CellsFit ∧ ∃ t, step invariantState = .next t :=
  ⟨floor_cellsFit (some lot) idle_fits, _, rfl⟩

theorem witness_StepKeepsListsOrdered : invariantState.ListsOrdered ∧ ∃ t, step invariantState = .next t :=
  ⟨⟨List.pairwise_singleton _ _, .nil, .nil⟩, _, rfl⟩

theorem witness_StepKeepsUseCounts : invariantState.useCountsFit ∧ ∃ t, step invariantState = .next t := by
  refine ⟨?_, _, rfl⟩
  unfold State.useCountsFit State.liveOn; decide +kernel

theorem witness_StepTakesEveryPass : invariantState.passTaken ∧ ∃ t, step invariantState = .next t := ⟨rfl, _, rfl⟩

theorem witness_ForwardedFrameReadsBack : (cellMsg (List.replicate 1490 7)).body.length ≤ maxBody := by decide +kernel

theorem witness_StoredContentsReadBack :
    readEntry 7 1 false (bytes [8, 21, 1]) = .ok (some (.pin ⟨8, 21, true⟩)) .none ∧
    readEntry 3 0 true [] = .ok none .none := by decide +kernel

/-! ### Witnesses: the ports and the classifier -/

def raw (etype : Code16) : RawFrame := ⟨0x222, 0x333, etype, bytes [1, 2]⟩

def frame : Frame := ⟨0, 0, 0x88, .foreign []⟩

/-- The floor with frames in both queues. -/
def queued (n : Nat) : State :=
  { floor (idleCell .idle) none with
    pcl := { Pcl.reset true true with floorQ := List.replicate n frame, plantQ := List.replicate n frame } }

theorem witness_QueueSendsOldestFrame : (queued 2).tbs.resetIn = false ∧ (queued 2).pcl.floorQ = frame :: [frame] ∧
    (queued 2).pcl.plantQ = frame :: [frame] := ⟨rfl, rfl, rfl⟩

theorem witness_ForeignFramePassesThrough : (queued 255).tbs.resetIn = false ∧ (queued 255).passTaken ∧
    (raw 0x88).etype ≠ (queued 255).tst.settings.frameType ∧ (queued 255).plantRoom 1 ∧ (queued 255).floorRoom 1 := by
  unfold State.passTaken State.plantRoom State.floorRoom; decide +kernel

theorem witness_FullQueueDropsFrame : (queued 256).pcl.floorQ.length = queueCapacity ∧
    (queued 256).pcl.plantQ.length = queueCapacity ∧
    vget (queued 256).tst.counters none 0 = some ⟨.event .paired, .event, 5, false⟩ := by decide +kernel

theorem witness_UnreadableHeaderIsDropped : (queued 1).tbs.resetIn = false ∧ (queued 1).passTaken ∧
    (raw 0x9A31).etype = (queued 1).tst.settings.frameType ∧ headerReadable (raw 0x9A31).data = false := by
  unfold State.passTaken; decide +kernel

theorem witness_FloorForwardsWhatItDoesNotTake : (queued 1).tbs.resetIn = false ∧ (queued 1).passTaken ∧
    isCellKind Kind.stopRun = false ∧ isCellKind 0x0108 = false ∧ (queued 1).plantRoom 1 := by
  unfold State.passTaken State.plantRoom; decide +kernel

theorem witness_StartingForwardsCellMessages : (Instr.bin (cellMsg [])).cellMsg? = some (Kind.bin, cellMsg []) ∧
    (inMode (queued 1) .starting).tbs.resetIn = false ∧ (inMode (queued 1) .starting).tbs.mode = .starting ∧
    (inMode (queued 1) .starting).passTaken ∧ (inMode (queued 1) .starting).plantRoom 1 := by
  unfold State.passTaken State.plantRoom; decide +kernel

theorem witness_RequestsThatNobodyTakes : (Instr.time (cellMsg [])).request? = some (Kind.time, cellMsg []) ∧
    (queued 1).tbs.resetIn = false ∧ (queued 1).passTaken ∧ (inMode (queued 1) .starting).tbs.mode = .starting ∧
    (queued 1).tbs.mode ≠ .starting ∧ (queued 1).tst.settings.mgmtAddr ≠ 0 ∧
    (cellMsg []).src ≠ (queued 1).tst.settings.mgmtAddr := by unfold State.passTaken; decide +kernel

theorem witness_InterlockBlocksOrders :
    let unmanaged : State := { queued 1 with tst := Tables.factory }
    let cut : State := { queued 1 with pcl := { (queued 1).pcl with plantLink := false } }
    (({ req [] 0 0 with dest := .cell } : Msg).dest = .cell ∧ isOrderKind 0x0200 = false ∧ isOrderKind 0x0201 = true ∧
      isOrderKind 0x0206 = true ∧ isOrderKind 0x0207 = false) ∧
    ((queued 1).tbs.resetIn = false ∧ (queued 1).passTaken ∧ (queued 1).floorRoom 1 ∧ (queued 1).plantRoom 1 ∧
      (queued 1).tbs.mode ≠ .starting ∧ (queued 1).noticesGo ∧ (inMode (queued 1) .starting).tbs.mode = .starting) ∧
    (unmanaged.tbs.resetIn = false ∧ unmanaged.tbs.mode ≠ .starting ∧ ¬unmanaged.noticesGo ∧ ¬cut.noticesGo) ∧
    (queued 256).tbs.mode ≠ .starting ∧ (queued 256).noticesGo ∧ ¬(queued 256).plantRoom 1 := by
  unfold State.passTaken State.plantRoom State.floorRoom State.noticesGo; decide +kernel

theorem witness_FrameToPlantIsMisdirected : (queued 1).takes ∧ (queued 1).passTaken ∧ (cellMsg []).dest = .plant := by
  unfold State.takes State.passTaken; decide +kernel

theorem witness_UnreadableRequestIsMalformed : (queued 1).accepts (req [0, 9] 0 0) 9 [] ∧ (queued 1).passTaken ∧
    (queued 1).plantRoom 1 ∧ (req [0, 9] 0 0).dest = .part ∧ isRequestKind 0x030E = false ∧
    (Instr.hold (req [0] 0 0)).request? = some (Kind.hold, req [0] 0 0) ∧ (queued 1).takes ∧
    (req [0] 0 0).src = (queued 1).tst.settings.mgmtAddr ∧ readTag (req [0] 0 0).body = none := by
  unfold State.accepts State.takes State.passTaken State.plantRoom; decide +kernel

/-! ### Witnesses: figures and judgements -/

theorem witness_SoftBinTakesFirstRange : (∀ q ∈ [(⟨2, 3, 2, .pass⟩ : BinRange)], ¬q.holds 4) ∧
    (⟨4, 9, 5, .fail⟩ : BinRange).holds 4 := by unfold BinRange.holds; decide

theorem witness_ScoreCountsMismatches : (idleCell .idle).loaded = none ∧ (idleCell .idle).kit ≠ some 3 ∧
    (runCell .idle run).loaded = some ⟨3300, 1, 77⟩ ∧ ¬((idleCell .idle).setpoint = some .cold ∧ (idleCell .idle).atSetpoint = true) := by
  decide

/-- A cell that reached IDLE with its calibration known. -/
def readyCell : Cell := { idleCell .idle with expiry := some 10000 }

/-- A floor with a second lot in slot 129, whose number is 1. -/
def withLot (s : State) (l : Lot) : State := s.modSlot 129 fun _ => ⟨1, some l⟩

/-- A run of the second lot with its segment open. -/
def otherRun : Run := ⟨129, 1, 0, .first, true, false, none⟩

/-- A class-0 lot waiting in slot 128, and a lot of a class RUNNING on cell 21 in slot 129. -/
def rival (cls : Nat) : State :=
  withLot (atTime (floor { runCell .running otherRun with expiry := some 10000 } (some { lot with cls := 0 })) 1000)
    { lot with state := .running, cls := cls }

/-- The walk of one member: its only eligible cell; its only victim, in class 2 and 3 but not 1; neither. -/
theorem witness_DispatchPassPairs :
    let s := atTime (floor readyCell (some lot)) 1000
    let m : Member := ⟨128, 1, 2, 0, .first⟩
    let due (s : State) : State := { s with dar := ⟨[m], true⟩ }
    ((due s).dar.passDue = true ∧ (due (floor readyCell none)).tbs.floorTime = none ∧ (due s).tbs.inhibited = false ∧
      (due s).tbs.mode ≠ .safe ∧ (due s).tbs.floorTime ≠ none ∧ s.lot? m.handle = some lot ∧ (s.cell 21).stack = [] ∧
      (∀ c, c < 48 → (s.eligible 128 lot c = true ↔ c = 21))) ∧
    s.floorRoom 4 ∧ (rival 2).CellsFit ∧ (rival 2).floorRoom 1 ∧
    ((rival 2).lot? m.handle = some { lot with cls := 0 } ∧ (rival 2).reg? 21 = some reg21 ∧
      (rival 2).cell 21 = { runCell .running otherRun with expiry := some 10000 } ∧
      (∀ c, c < 48 → (rival 2).eligible 128 { lot with cls := 0 } c = false) ∧
      (∀ c, c < 48 → ((rival 2).isVictim 128 { lot with cls := 0 } c = true ↔ c = 21)) ∧
      (rival 3).isVictim 128 { lot with cls := 0 } 21 = true ∧
      (∀ c, c < 48 → (rival 1).isVictim 128 { lot with cls := 0 } c = false) ∧ lot.cls ≠ 0 ∧
      (∀ c, c < 48 → (floor readyCell (some lot)).eligible 128 lot c = false)) :=
  ⟨by decide +kernel, by unfold State.floorRoom; decide +kernel,
    fit_as (floor_busy (x := { runCell .running otherRun with expiry := some 10000 }) none) rfl,
    by unfold State.floorRoom; decide +kernel, by decide +kernel⟩

/-- Cell 21 with everything the first step of route 2 needs. -/
def fittedCell : Cell :=
  { readyCell with loaded := some ⟨3300, 1, 77⟩, kit := some 3, setpoint := some .cold, atSetpoint := true }

/-- A cell in SETUP for a run it can carry: every item mismatched, an order of an earlier setup standing, an item pending, and
none with none mismatched. -/
theorem witness_SetupIsJudged :
    let s (x : Cell) := atTime (floor { x with state := .setup, stack := [run] } (some lot)) 1000
    let ordered : Cell := { fittedCell with order := some ⟨3300, 1, 77⟩ }
    (s readyCell).carries 21 run ∧ (s readyCell).floorRoom 3 ∧ ((s readyCell).cell 21).stack = run :: [] ∧
    (s readyCell).reg? 21 = some reg21 ∧ ((s readyCell).cell 21).loaded = none ∧
    ((s readyCell).cell 21).kit ≠ some ((s readyCell).runStep run).kit ∧ ((s readyCell).cell 21).setpoint = none ∧
    ((s ordered).cell 21).order ≠ none ∧ (s readyCell).lot? 128 = some lot ∧ ((s readyCell).cell 21).items = Items.none ∧
    (((s readyCell).judgeItems 21 run false).cell 21).items ≠ Items.none ∧
    (((s fittedCell).judgeItems 21 run false).cell 21).items = Items.none ∧
    (s fittedCell).floorRoom 1 ∧ (⟨true, false, false⟩ : Items) ≠ Items.none := by
  refine ⟨⟨by decide +kernel, ?_⟩, by unfold State.floorRoom; decide +kernel, ?_⟩
  · intro f e hf he; cases hf; cases he; decide
  · unfold State.floorRoom; decide +kernel

/-- A run at the top of its cell, alone or above another, which the cell's calibration or its enabled sites cannot carry. -/
theorem witness_SetupIsBarred :
    let s (x : Cell) (below : List Run) := atTime (floor { x with state := .setup, stack := run :: below } (some lot)) 20000
    let few : Cell := { readyCell with enabled := 0 }
    ((s readyCell []).profileOf ((s readyCell []).runStep run)).minSites ≤ maskCount ((s readyCell []).cell 21).enabled ∧
    maskCount ((s few []).cell 21).enabled < ((s few []).profileOf ((s few []).runStep run)).minSites ∧
    ((s few [otherRun]).cell 21).stack = run :: [otherRun] ∧ (s few []).lot? 128 = some lot ∧ run.stopped = none ∧
    run.segOpen = false ∧ (∀ q ∈ [otherRun], q.handle ≠ run.handle) ∧ ¬(s readyCell []).carries 21 run := by
  refine ⟨by decide +kernel, by decide +kernel, by decide +kernel, by decide +kernel, rfl, rfl, by decide, ?_⟩
  intro h; exact absurd (h.2 20000 10000 (by decide +kernel) (by decide +kernel)) (by decide)

theorem witness_WindowKeepsLastClasses :
    let a : Acc := { lot.acc with window := List.replicate 16 .pass, winPass := 16 }
    1 ≤ 16 ∧ a.window.length ≤ 16 ∧ a.winPass = a.window.count .pass := by decide +kernel

/-- An entry at the top of its repeat count. -/
def entry (r : HoldReason) : HoldEntry := ⟨r, 0, .plant, [], 255, some 4⟩

theorem witness_HoldListKeepsOneEntryPerReason :
    ([entry .guard, entry .site].map HoldEntry.reason).Nodup ∧ (∀ e ∈ [entry .guard, entry .site], e.repeats ≤ 255) ∧
    (∀ e ∈ [entry .guard, entry .site], e.reason ≠ .family) ∧
    [entry .guard, entry .site] = [entry .guard] ++ entry .site :: [] ∧ (entry .site).reason = .site := by decide

theorem witness_EventsCountInMatchingCounters : vget tables.counters none 1 = none ∧
    vget tables.counters none 0 = some ⟨.event .paired, .event, 5, false⟩ ∧
    (⟨.event .paired, .event, 5, false⟩ : CounterCfg).source = .event .paired ∧
    (⟨.event .paired, .event, 5, false⟩ : CounterCfg).source ≠ .event .preempted ∧
    (⟨.event .paired, .event, 5, false⟩ : CounterCfg).threshold ≤ 5 ∧
    ¬(⟨.event .paired, .event, 5, false⟩ : CounterCfg).threshold ≤ 4 := by decide +kernel

/-! ### Witnesses: lots -/

theorem witness_UnresolvedLotIsRefused :
    let s := floor (idleCell .idle) (some lot)
    (s.accepts (req [0, 9, 0] 128 2) 9 (bytes [0]) ∧ s.passTaken ∧ s.plantRoom 1) ∧
    s.refusesLot (req [0, 9, 0] 512 1) .unknownGroup ∧ s.refusesLot (req [0, 9, 0] 129 1) .unknownLot ∧
    s.refusesLot (req [0, 9, 0] 128 2) .stale ∧ (readHold (bytes [0])).isSome ∧ (readRelease (bytes [4, 0])).isSome ∧
    readQuery (bytes [0, 0]) = some (.lot 0) := by
  refine ⟨⟨floor_accepts rfl (by decide +kernel), rfl, floor_plantRoom1⟩, ?_⟩
  unfold State.refusesLot; decide +kernel

/-- The body of a LOT_ORDER with tag 9 for a group, a route and a quantity. -/
def orderBody (group route qty : Nat) : List Nat :=
  [0, 9, 2, 65, 66, group, route, qty / 16777216, qty / 65536 % 256, qty / 256 % 256, qty % 256, 2, 0]

/-- The floor with the state of group 8 changed. -/
def inGroup (s : State) (st : GroupState) (retire : Bool) : State :=
  s.modGroup 8 fun g => { g with state := st, retirePending := retire }

theorem witness_LotOrderCreatesLot :
    let s := floor (idleCell .idle) none
    let held := inGroup s .held false
    let m := req (orderBody 8 2 250000) 0 0
    (s.accepts m 9 (m.body.drop 2) ∧ s.passTaken ∧ s.plantRoom 2) ∧
    (held.accepts m 9 (m.body.drop 2) ∧ held.passTaken ∧ held.plantRoom 2 ∧ held.noticesGo ∧ (held.group 8).state = .held ∧
      (held.group 8).retirePending = false) ∧
    (∀ k, groupOf k = 8 → k < 128 → (s.lot? k).isSome) ∧
    readLotOrder (m.body.drop 2) = some ⟨bytes [65, 66], 8, 2, 250000, 2, none⟩ ∧ s.tbs.mode = .normal ∧
    s.route? 2 = some route2 ∧ groupOf 128 = 8 ∧ s.lot? 128 = none ∧ (s.group 8).state = .opened ∧
    (∀ y ∈ route2.steps, (s.program? y.program).isSome ∧ (s.binMap? y.binMap).isSome ∧ (s.profile? y.profile).isSome) := by
  refine ⟨⟨floor_accepts rfl (by decide +kernel), rfl, floor_plantRoom⟩, ?_, ?_, by decide +kernel⟩
  · unfold State.accepts State.takes State.passTaken State.plantRoom State.noticesGo; decide +kernel
  · intro k h1 h2; simp only [groupOf] at h1; omega

theorem witness_LotOrderIsCheckedInOrder :
    let s := floor (idleCell .idle) (some lot)
    let full : State := { s with ldr := { s.ldr with slots := Vector.replicate 512 ⟨1, some lot⟩ } }
    let body (group route qty : Nat) := (req (orderBody group route qty) 0 0).body.drop 2
    (s.accepts (req (orderBody 8 2 0) 0 0) 9 (body 8 2 0) ∧ s.passTaken ∧ s.plantRoom 1) ∧
    (inMode s .safe).accepts (req (orderBody 8 2 0) 0 0) 9 (body 8 2 0) ∧ (∀ h, groupOf h = 8 → (full.lot? h).isSome) ∧
    (s.group 31).state = .unbound ∧ readLotOrder (body 32 2 1) = some ⟨bytes [65, 66], 32, 2, 1, 2, none⟩ ∧
    ((inGroup s .retired false).group 8).state = .retired ∧ ((inGroup s .held true).group 8).retirePending = true ∧
    s.route? 3 = none ∧ s.route? 16 = none ∧ readLotOrder (body 8 16 1) = some ⟨bytes [65, 66], 8, 16, 1, 2, none⟩ ∧
    readLotOrder (body 8 2 250001) = some ⟨bytes [65, 66], 8, 2, 250001, 2, none⟩ := by
  refine ⟨⟨floor_accepts rfl (by decide +kernel), rfl, floor_plantRoom1⟩, ?_, ?_, by decide +kernel⟩
  · unfold State.accepts State.takes; decide +kernel
  · intro h hh
    simp only [groupOf] at hh
    simp [State.lot?, State.slot, vget_replicate _ _ (show h < 512 by omega)]

theorem witness_SweepListsAndClearsMarks :
    let s := floor (idleCell .idle) (some { lot with mark := false })
    (s.accepts (req [0, 9, 8] 0 0) 9 (bytes [8]) ∧ s.passTaken ∧ s.plantRoom 1) ∧
    readGroupArg (bytes [8]) = some 8 ∧ readGroupArg (bytes [31]) = some 31 ∧ readGroupArg (bytes [32]) = some 32 ∧
    (s.group 8).state ≠ .unbound ∧ (s.group 31).state = .unbound :=
  ⟨⟨floor_accepts rfl (by decide +kernel), rfl, floor_plantRoom1⟩, by decide +kernel⟩

/-! ### Witnesses: tables and the store -/

/-- A TABLE_WRITE of a pin into entry 1 of table 7, for a target. -/
def pinWrite (target : Nat) : Msg := req [0, 9, target, 7, 1, 0, 8, 21, 1] 0 0

def pinBody (target : Nat) : WriteBody := ⟨target, 7, 1, false, bytes [8, 21, 1]⟩

theorem pin_writes (target : Nat) (h : target = 0 ∨ target = 1) :
    (floor (idleCell .idle) none).writesEntry (pinBody target) (some (.pin ⟨8, 21, true⟩)) .none := by
  refine ⟨by show 7 ≤ 8; decide, by show 1 < 4; decide, ?_, ?_⟩
  · show readEntry 7 1 false (bytes [8, 21, 1]) = _
    decide +kernel
  · intro p hp
    cases hp
    rcases h with rfl | rfl <;> decide +kernel

theorem witness_ActiveWriteReplacesEntry :
    let s := floor (idleCell .idle) none
    s.accepts (pinWrite 0) 9 ((pinWrite 0).body.drop 2) ∧ readTableWrite ((pinWrite 0).body.drop 2) = some (pinBody 0) ∧
    (pinBody 0).target = 0 ∧ s.writesEntry (pinBody 0) (some (.pin ⟨8, 21, true⟩)) .none ∧ s.plantRoom 1 ∧
    s.inUse (pinBody 0).table (pinBody 0).entry = false :=
  ⟨floor_accepts rfl (by decide +kernel), by decide +kernel, rfl, pin_writes 0 (.inl rfl), floor_plantRoom1, by decide +kernel⟩

/-- The body of a TABLE_WRITE of group 8 to ACTIVE, with tag 9. -/
def groupWrite : List Nat := [0, 9, 0, 1, 8, 0, 0, 7, 0, 0, 0, 0, 0, 9]

/-- Writes of group 8, of cell 21's registration, of counter 0 and of the inhibit level. -/
theorem witness_ActiveWriteActsOnItsTable :
    let s := floor (idleCell .idle) (some lot)
    (s.accepts (req groupWrite 0 0) 9 ((req groupWrite 0 0).body.drop 2) ∧ s.passTaken ∧ s.plantRoom 1) ∧
    s.inUse 1 8 = true ∧ (floor (idleCell .idle) none).inUse 1 8 = false ∧
    s.inUse 6 21 = false ∧ s.inUse 8 0 = false ∧ s.inUse 0 10 = false ∧
    readEntry 1 8 false (bytes [1, 0, 7, 0, 0, 0, 0, 0, 9]) = .ok (some (.group 7 9)) .none ∧
    readEntry 6 21 false (bytes [1, 0, 0, 0, 0, 33, 33, 2, 0, 0, 7]) = .ok (some (.registration ⟨0x2121, 2, 0, 7⟩)) .none ∧
    readEntry 8 0 true [] = .ok none .none ∧ readEntry 0 10 false (bytes [1]) = .ok (some (.setting 1)) .none :=
  ⟨⟨floor_accepts rfl (by decide +kernel), rfl, floor_plantRoom1⟩, by decide +kernel⟩

theorem witness_TableReadAnswersEntry :
    let s := floor (idleCell .idle) (some lot)
    (s.accepts (req [0, 9, 0, 2, 2] 0 0) 9 (bytes [0, 2, 2]) ∧ s.passTaken ∧ s.plantRoom 1) ∧
    readTableRead (bytes [0, 2, 2]) = some (0, 2, 2) ∧ readTableRead (bytes [1, 9, 0]) = some (1, 9, 0) ∧
    readTableRead (bytes [0, 8, 8]) = some (0, 8, 8) ∧ tableEntries 8 = 8 ∧
    readTableRead (bytes [0, 8, 7]) = some (0, 8, 7) ∧ (s.route? 2).isSome ∧ readTableRead (bytes [0, 0, 10]) = some (0, 0, 10) ∧
    s.activeEntry 2 15 = none ∧ s.activeEntry 5 2 = none :=
  ⟨⟨floor_accepts rfl (by decide +kernel), rfl, floor_plantRoom1⟩, by decide +kernel⟩

def ref0 : ReqRef := ⟨0x111, 0, 0, 0, 0, 9⟩

def readOp : StoreOp := .read ref0 0 3

def writeOp (phase : Nat) : StoreOp := .write ref0 7 1 (some (.pin ⟨8, 21, true⟩)) .none phase

theorem witness_StoredReadsTakeTheirTurn :
    let s (l : List StoreOp) := withWork (floor (idleCell .idle) none) l
    (s []).accepts (req [0, 9, 1, 0, 10] 0 0) 9 (bytes [1, 0, 10]) ∧ readTableRead (bytes [1, 0, 10]) = some (1, 0, 10) ∧
    (s []).passTaken ∧ (s []).plantRoom 1 ∧ 8 ≤ (s (List.replicate 8 readOp)).scn.work.countP (fun op => !op.isWrite) ∧
    (∀ op ∈ (s (List.replicate 7 readOp)).scn.work, op.isWrite = false) ∧ (s (List.replicate 7 readOp)).scn.work.length < 8 ∧
    (∃ op ∈ (s [readOp, writeOp 1]).scn.work, op.isWrite = true) ∧
    (s [readOp, writeOp 1]).scn.work = .read ref0 0 3 :: [writeOp 1] ∧ (s [readOp]).scn.image.entry 0 3 = none := by
  unfold State.accepts State.takes State.passTaken State.plantRoom; decide +kernel

theorem witness_StoredWriteRunsItsPhases :
    let s (l : List StoreOp) := withWork (floor (idleCell .idle) none) l
    let write (phase : Nat) : StoreOp := .write ref0 7 1 (some (.pin ⟨8, 21, true⟩)) .none phase
    (s []).accepts (pinWrite 1) 9 ((pinWrite 1).body.drop 2) ∧
    (s []).writesEntry (pinBody 1) (some (.pin ⟨8, 21, true⟩)) .none ∧ ((s []).passTaken ∧ (s []).plantRoom 1) ∧
    readTableWrite ((pinWrite 1).body.drop 2) = some (pinBody 1) ∧
    (∀ op ∈ (s [readOp]).scn.work, op.isWrite = false) ∧ (∃ op ∈ (s [writeOp 1]).scn.work, op.isWrite = true) ∧
    (s [writeOp 2]).scn.work = write 2 :: [] ∧ (s [writeOp 3]).scn.work = write 3 :: [] ∧
    7 < (s []).scn.image.areas.length ∧ 1 < ((s []).scn.image.areas.getD 7 []).length := by
  refine ⟨?_, pin_writes 1 (.inr rfl), ⟨rfl, floor_plantRoom1⟩, by decide +kernel⟩
  unfold State.accepts State.takes; decide +kernel

/-- The flash device has not answered: at an operation, or at the load of start-up. -/
def silent (l : List StoreOp) (loading : Loading) : State :=
  let s := floor (idleCell .idle) none
  { s with scn := { s.scn with work := l, flashLeft := some 0, loading := loading } }

theorem witness_FlashTimeoutEndsOperation :
    (silent [readOp] .none).scn.flashLeft = some 0 ∧ (silent [readOp] .none).scn.loading = .none ∧
    (silent [readOp] .none).passTaken ∧ (silent [readOp] .none).plantRoom 1 ∧
    (silent [readOp] .none).scn.work = .read ref0 0 3 :: [] ∧
    (silent [writeOp 1] .none).scn.work = .write ref0 7 1 (some (.pin ⟨8, 21, true⟩)) .none 1 :: [] ∧
    (silent [] .startUp).scn.loading = .startUp ∧ (silent [] (.reread ref0)).scn.loading = .reread ref0 ∧
    (silent [] (.reread ref0)).plantRoom 1 := by
  unfold State.passTaken State.plantRoom; decide +kernel

/-! ### Witnesses: resets -/

theorem witness_HardResetClearsState :
    (withWork State.reset [writeOp 1]).scn.work = .write ref0 7 1 (some (.pin ⟨8, 21, true⟩)) .none 1 :: [] ∧
    State.reset.tbs.resetIn = true := by decide +kernel

/-- An image whose only programmed entries are a pin and group 8. -/
def goodImage : Image :=
  programCheck (programEntry (programEntry Image.blank 7 1 (some (.pin ⟨8, 21, true⟩))) 1 8 (some (.group 7 9)))

/-- An image with its format mark whose check value has just been programmed is valid. -/
theorem programmed_valid (im : Image) (h : im.mark = .good) : (programCheck im).fault = none := by
  simp [Image.fault, programCheck, Image.isBlank, Image.body, h]

theorem goodImage_valid : goodImage.fault = none := programmed_valid _ rfl

theorem witness_StartUpSetsTables :
    let s (im : Image) : State := { State.reset with scn := { State.reset.scn with image := im, loading := .startUp } }
    (s goodImage).scn.image.fault = none ∧ (s goodImage).scn.loading = .startUp ∧
    (s Image.blank).scn.image.fault = some .blank ∧ goodImage.entry 7 1 = some (.pin ⟨8, 21, true⟩) ∧
    goodImage.entry 1 8 = some (.group 7 9) ∧ goodImage.entry 1 9 = none :=
  ⟨goodImage_valid, by decide +kernel⟩

theorem witness_RestartInNormal :
    let s := floor (idleCell .idle) (some lot)
    s.accepts (req [0, 9] 0 0) 9 [] ∧ s.passTaken ∧ s.plantRoom 1 ∧ s.noticesGo ∧ s.scn.work = [] ∧ s.tbs.mode = .normal ∧
    (withWork s [readOp]).scn.work ≠ [] ∧ (withWork s [readOp]).accepts (req [0, 9] 0 0) 9 [] ∧
    ¬({ s with tst := Tables.factory } : State).noticesGo := by
  refine ⟨floor_accepts rfl (by decide +kernel), rfl, floor_plantRoom1, floor_noticesGo, rfl, rfl, by decide, ?_⟩
  unfold State.accepts State.takes State.noticesGo; decide +kernel

/-- A group that was bound before a re-read and one that was not, bound in the image and not. -/
theorem witness_RestartInSafe :
    let s := inMode (floor (idleCell .idle) (some lot)) .safe
    let u (im : Image) : State := { s with scn := { s.scn with image := im, loading := .reread ref0 } }
    s.accepts (req [0, 9] 0 0) 9 [] ∧ (u goodImage).scn.image.fault = none ∧ (u goodImage).plantRoom 1 ∧
    s.scn.work = [] ∧ s.tbs.mode = .safe ∧ (u goodImage).scn.loading = .reread ref0 ∧
    (u Image.blank).scn.image.fault = some .blank ∧ goodImage.entry 1 8 = some (.group 7 9) ∧ (s.group 8).state ≠ .unbound ∧
    goodImage.entry 1 9 = none ∧ (State.reset.group 8).state = .unbound := by
  refine ⟨?_, goodImage_valid, floor_plantRoom1 (x := idleCell .idle) (l := some lot), by decide +kernel⟩
  unfold State.accepts State.takes; decide +kernel

/-! ### Witnesses: time and the line -/

/-- The body of a TIME with tag 9. -/
def timeBody (v : Nat) : List Nat := [0, 9, v / 16777216, v / 65536 % 256, v / 256 % 256, v % 256]

theorem unlapsed {s : State} {v : Nat} (h : ∀ c, c < 48 → (s.cell c).state ∈ [CellState.offline, .idle, .stopping, .fault] ∨
    (s.cell c).expiry.all (fun e => decide (v < e)) = true) : s.noLapse v := by
  intro c e hc hs he
  rcases h c hc with h | h
  · rcases hs with hs | hs | hs | hs <;> rw [hs] at h <;> exact absurd h (by decide)
  · rw [he] at h; simpa using h

/-- A running cell whose calibration lapses at 10,000, before and at it, and an idle one that has lapsed. -/
theorem witness_TimeSetsFloorTime :
    let s := floor { runCell .running run with expiry := some 10000 } (some lot)
    let idle := floor readyCell none
    (s.accepts (req (timeBody 9999) 0 0) 9 (bytes [0, 0, 39, 15]) ∧ readTime (bytes [0, 0, 39, 15]) = some 9999 ∧ s.passTaken ∧
      s.plantRoom 1 ∧ s.accepts (req (timeBody 10000) 0 0) 9 (bytes [0, 0, 39, 16]) ∧
      readTime (bytes [0, 0, 39, 16]) = some 10000) ∧
    s.tbs.floorTime = none ∧ (atTime s 10000).tbs.floorTime = some 10000 ∧ (atTime s 9999).tbs.floorTime = some 9999 ∧
    s.noLapse 9999 ∧ (atTime s 9998).noLapse 9999 ∧ ¬s.noLapse 10000 ∧ idle.noLapse 10000 := by
  have h : (floor { runCell .running run with expiry := some 10000 } (some lot)).noLapse 9999 := unlapsed (by decide +kernel)
  refine ⟨⟨floor_accepts rfl (by decide +kernel), by decide +kernel, rfl, floor_plantRoom1, floor_accepts rfl (by decide +kernel),
    by decide +kernel⟩, rfl, rfl, rfl, h, h, ?_, unlapsed (by decide +kernel)⟩
  intro h; exact absurd (h 21 10000 (by decide) (by decide +kernel) (by decide +kernel)) (by decide)

/-- R52, R53, R193: floor time at a cell's calibration expiry stops its run, and a second event short of it does not. -/
theorem test_lapse :
    let s := atTime (floor { runCell .running run with expiry := some 10000 } (some lot)) 9998
    [(s.second ⟨.last, []⟩).cell 21, ((s.second ⟨.last, []⟩).second ⟨.last, []⟩).cell 21, ((s.offerTime 10000)).cell 21].map
      (fun x => (x.state, x.stopReason)) =
      [(.running, none), (.stopping, some .calibration), (.stopping, some .calibration)] := by decide +kernel

/-- Counter 3 adds up the cells in FAULT; the stop timer of cell 21 has a second left. -/
def counting : State :=
  let s := floor { runCell .stopping run with
    stopReason := some .hold
    expiry := some 5
    timers := { Timers.idle with stop := some 1 } } (some lot)
  { atTime s 7 with
    tst := { tables with counters := vmod tables.counters 3 fun _ => some ⟨.occupancy .cellsFault, .accumulate, 0, false⟩ } }

/-- A lapsed cell in STOPPING, at the first floor times and at the last; and the expiry of its stop timer, listed. -/
theorem witness_SecondEventCounts :
    counting.passTaken ∧ counting.noLapse 8 ∧ (atTime counting 4294967295).tbs.floorTime = some 4294967295 ∧
    counting.tbs.resetIn = false ∧
    (∀ x ∈ [((21 : Fin 48), CellTimer.silence)], timerOf x.2 (counting.tickTimers.cell x.1.val).timers ≠ some 0) ∧
    ((Instr.stopTimeout 21, CellTimer.stop) ∈ [(Instr.silenceTimeout 21, CellTimer.silence), (.stopTimeout 21, .stop)]) ∧
    counting.tickTimers.runsTo [] counting.tickTimers ∧
    (∃ x, counting.tickTimers.runsTo ([((21 : Fin 48), CellTimer.stop)].map expiryRow) x ∧ (x.cell 21).state = .fault) := by
  refine ⟨rfl, unlapsed (by decide +kernel), rfl, rfl, by decide +kernel, by decide, rfl, _, ⟨_, rfl, rfl⟩, by decide +kernel⟩

/-- R194: a stop expiry of the same second is taken before the sample, which then finds the cell in FAULT, or after it. -/
theorem test_sample_after_expiry :
    [[], [((21 : Fin 48), CellTimer.stop)]].map (fun taken =>
      let s := counting.second ⟨.last, taken⟩
      (vget s.fcn.values 0 3, (s.cell 21).state)) = [(0, .stopping), (1, .fault)] := by decide +kernel

theorem witness_InhibitChangeMovesTheLine :
    let s := floor (idleCell .idle) none
    let line (on : Bool) : State := { s with tbs := { s.tbs with inhibited := on } }
    s.passTaken ∧ State.reset.tbs.resetIn = true ∧ (line true).tbs.resetIn = false ∧ (line true).scn.loading ≠ .startUp ∧
    (line true).tbs.inhibited = true ∧ Level.low ≠ (line true).tst.settings.inhibit ∧ (line true).tbs.mode ≠ .starting ∧
    ¬(line false).tbs.inhibited = true := by unfold State.passTaken; decide +kernel

/-! ### Witnesses: the cells -/

/-- A cell with its run and timers of its state. -/
def dueCell (st : CellState) (reason : Option StopReason) (timers : Timers) : Cell :=
  { runCell st run with stopReason := reason, timers := timers, items := ⟨decide (st = .setup), false, false⟩ }

/-- The run with its segment open. -/
def opened : Run := { run with segOpen := true }

/-- A lot with segments, the last of which may be open, and hold entries. -/
def openLot (n : Nat) (holds : List HoldEntry) : Lot :=
  { lot with state := .running, segments := List.replicate n segment, holds := holds }

/-- A run with its third segment open, of a lot with a hold; and one with its fourth open. -/
theorem witness_SilenceSetsCellOffline :
    let x : Cell := { dueCell .running none { Timers.idle with silence := some 0 } with stack := [opened] }
    let s (l : Lot) := floor x (some l)
    (s lot).CellsFit ∧ (s (openLot 3 [])).soleRun 21 opened (openLot 3 []) ∧
    (s (openLot 1 [entry .site])).soleRun 21 opened (openLot 1 [entry .site]) ∧ (s (openLot 4 [])).noticesGo ∧
    (s (openLot 4 [])).plantRoom 1 ∧ ((s lot).cell 21).timers.silence = some 0 ∧ ((s (openLot 4 [])).cell 21).stack = [opened] ∧
    ((s lot).cell 21).incoming = none ∧ opened.stopped = none ∧ (s (openLot 4 [])).lot? 128 = some (openLot 4 []) ∧
    (openLot 4 []).segments.length = 4 ∧ (∀ e ∈ (openLot 4 [entry .site]).holds, e.reason ≠ .equipment) := by
  refine ⟨floor_busy _, ?_, ?_, floor_noticesGo, floor_plantRoom1, by decide +kernel⟩ <;> unfold State.soleRun <;> decide +kernel

/-- The second failure and the third. -/
theorem witness_SetupTimeoutFaultsCell :
    let setup := floor (dueCell .setup none { Timers.idle with load := some 0, kit := some 0, soak := some 0 }) (some lot)
    let l (n : Nat) : Lot := { openLot 3 [entry .site] with state := .assigned, setupFails := n }
    let s (n : Nat) := floor { dueCell .starting none { Timers.idle with start := some 0 } with stack := [opened] } (some (l n))
    setup.CellsFit ∧ (s 1).CellsFit ∧ setup.soleRun 21 run lot ∧ (s 1).soleRun 21 opened (l 1) ∧ (s 2).soleRun 21 opened (l 2) ∧
    (s 1).noticesGo ∧ (s 1).plantRoom 2 ∧ Timers.load (setup.cell 21).timers = some 0 ∧ Timers.kit (setup.cell 21).timers = some 0 ∧
    Timers.soak (setup.cell 21).timers = some 0 ∧ Timers.start ((s 1).cell 21).timers = some 0 ∧ (l 1).setupFails < 2 ∧
    2 ≤ (l 2).setupFails ∧ (∀ e ∈ (l 2).holds, e.reason ≠ .equipment) := by
  refine ⟨floor_busy _, floor_busy _, ?_, ?_, ?_, floor_noticesGo, floor_plantRoom, by decide +kernel⟩ <;>
    unfold State.soleRun <;> decide +kernel

theorem witness_StopAndJamTimeoutsAct :
    let l := openLot 3 [entry .site]
    let stop := floor { dueCell .stopping (some .hold) { Timers.idle with stop := some 0 } with stack := [opened] } (some l)
    let jam := floor (dueCell .paused none { Timers.idle with jam := some 0 }) (some lot)
    let late := atTime (floor { runCell .running run with expiry := some 500 } (some lot)) 500
    stop.CellsFit ∧ stop.soleRun 21 opened l ∧ stop.noticesGo ∧ stop.plantRoom 1 ∧
    (jam.CellsFit ∧ jam.passTaken ∧ jam.floorRoom 1 ∧ jam.reg? 21 = some reg21) ∧ late.CellsFit ∧
    (stop.cell 21).timers.stop = some 0 ∧ (jam.cell 21).stack = run :: [] ∧ (jam.cell 21).timers.jam = some 0 ∧
    late.tbs.floorTime = some 500 ∧ (late.cell 21).expiry = some 500 ∧ (late.cell 21).state = .running ∧
    (late.cell 21).stack = run :: [] ∧ (stop.cell 21).state = .stopping ∧ stop.tbs.floorTime = none := by
  refine ⟨floor_busy _, ?_, floor_noticesGo, floor_plantRoom1, ⟨floor_busy _, rfl, floor_floorRoom, floor_reg⟩,
    fit_as (floor_busy (x := { runCell .running run with expiry := some 500 }) (some lot)) rfl, by decide +kernel⟩
  unfold State.soleRun; decide +kernel

/-- A lapse in SETUP, of a sole run resumed and of a run above a lower one. -/
theorem witness_LapseAbandonsSetup :
    let x : Cell := { dueCell .setup none Timers.idle with expiry := some 500, stack := [opened] }
    let y : Cell := { x with stack := [opened, otherRun] }
    let s := atTime (floor x (some (openLot 3 [entry .site]))) 500
    let two := withLot (atTime (floor y (some (openLot 1 []))) 500) (openLot 3 [])
    s.CellsFit ∧ two.CellsFit ∧ s.soleRun 21 opened (openLot 3 [entry .site]) ∧
    s.tbs.floorTime = some 500 ∧ (s.cell 21).expiry = some 500 ∧ (s.cell 21).state = .setup ∧
    (two.cell 21).stack = [opened, otherRun] ∧ opened.handle ≠ otherRun.handle ∧ two.lot? 128 = some (openLot 1 []) ∧
    two.lot? 129 = some (openLot 3 []) ∧ (openLot 3 []).segments.length < 4 := by
  refine ⟨fit_as (floor_busy (x := { dueCell .setup none Timers.idle with expiry := some 500, stack := [opened] }) none) rfl,
    fit_as (floor_busy (x := { dueCell .setup none Timers.idle with expiry := some 500, stack := [opened, otherRun] }) none) rfl,
    ?_, by decide +kernel⟩
  unfold State.soleRun; decide +kernel

/-- The body of a STATUS of a ready tester: handler, kit 3, no program, a setpoint reached, sites 0 to 3, no expiry, and the
flags run-active, restarted, maintenance-clear and site-restore. -/
def statusBytes (handler setpoint : Nat) (flags : List Nat) : List Nat :=
  [1, handler, 1, 3, 0, setpoint, 1, 0, 15, 0] ++ flags

def statusOf (handler : Handler) (setpoint : Temp) (active restarted clear restore : Bool) : StatusBody :=
  ⟨true, handler, some 3, none, setpoint, true, 15, none, active, restarted, clear, restore⟩

/-- Idle, with maintenance-clear in FAULT, with site-restore, and with an unowned run. -/
theorem witness_StatusMovesIdleCell :
    let fault : Cell := { Cell.reset 7 with state := .fault, cause := some .stopTimeout }
    let s (x : Cell) := floor x none
    let m (flags : List Nat) := cellMsg (statusBytes 2 1 flags)
    (s (idleCell .idle)).takes ∧ (s (idleCell .idle)).passTaken ∧ (s (idleCell .idle)).knowsCell (m [0, 0, 0, 0]) reg21 ∧ (s (idleCell .idle)).noticesGo ∧
    (s (idleCell .idle)).plantRoom 2 ∧ (s (idleCell .idle)).floorRoom 4 ∧ (s (idleCell .idle)).CellsFit ∧ (s (Cell.reset 15)).CellsFit ∧
    (s fault).CellsFit ∧ readStatus (m [0, 0, 0, 0]).body = some (statusOf .idle .room false false false false) ∧
    readStatus (m [0, 0, 1, 0]).body = some (statusOf .idle .room false false true false) ∧
    readStatus (m [0, 0, 0, 1]).body = some (statusOf .idle .room false false false true) ∧
    readStatus (m [1, 1, 0, 0]).body = some (statusOf .idle .room true true false false) ∧
    ((s (idleCell .idle)).cell 21).state = .idle ∧ ((s (Cell.reset 15)).cell 21).state = .offline ∧
    ((s fault).cell 21).state = .fault ∧ (statusOf .idle .room false false false false).sites ≠ fault.enabled :=
  ⟨floor_takes, rfl, floor_knows _, floor_noticesGo, floor_plantRoom, floor_floorRoom4, floor_cellsFit _ idle_fits,
    floor_cellsFit _ (reset_fits 15), floor_cellsFit _ ⟨⟨rfl, by decide⟩, by unfold Cell.fieldsFit; decide⟩, by decide +kernel⟩

/-- A jam and its end; in SETUP a KIT item left, the last items done, and an unowned run; a restart under an ordinary run. -/
theorem witness_StatusPausesAndResumes :
    let started (st : CellState) := floor (dueCell st none { Timers.idle with jam := if st = .paused then some 7 else none }) (some lot)
    let items (load : Bool) : Cell := { dueCell .setup none Timers.idle with items := ⟨load, true, true⟩ }
    let setup (load : Bool) := floor (items load) (some lot)
    let l := openLot 1 [entry .site]
    let restart := floor { dueCell .running none Timers.idle with stack := [opened] } (some l)
    let m (handler : Nat) (flags : List Nat) := cellMsg (statusBytes handler 0 flags)
    let plain (h : Handler) := statusOf h .cold false false false false
    ((started .running).takes ∧ (started .running).passTaken ∧ (started .running).knowsCell (m 1 [0, 0, 0, 0]) reg21 ∧
      (started .running).noticesGo ∧ (started .running).plantRoom 3 ∧ (started .running).floorRoom 1) ∧
    (started .running).CellsFit ∧ (started .paused).CellsFit ∧ (setup true).CellsFit ∧ (setup false).CellsFit ∧
    restart.CellsFit ∧ (setup true).soleRun 21 run lot ∧ restart.soleRun 21 opened l ∧
    readStatus (m 1 [0, 0, 0, 0]).body = some (plain .jammed) ∧ readStatus (m 0 [0, 0, 0, 0]).body = some (plain .running) ∧
    readStatus (m 0 [1, 0, 0, 0]).body = some { plain .running with runActive := true } ∧
    readStatus (m 0 [0, 1, 0, 0]).body = some { plain .running with restarted := true } ∧
    ((started .running).cell 21).state = .running ∧ ((started .paused).cell 21).state = .paused ∧
    (plain .jammed).expiry = ((started .running).cell 21).expiry ∧ (plain .jammed).sites = ((started .running).cell 21).enabled ∧
    ((setup false).cell 21).state = .setup ∧ ((setup false).cell 21).stack = run :: [] ∧ (items true).items.load = true ∧
    (items false).items.load = false ∧ (setup false).lot? 128 = some lot ∧ (items false).loaded = some ⟨3300, 1, 77⟩ ∧
    ((setup false).programOf ((setup false).runStep run)).vals = ⟨3300, 1, 77⟩ ∧
    (plain .running).kit = some ((setup false).runStep run).kit ∧
    (plain .running).setpoint = ((setup false).runStep run).temp ∧ (plain .running).atSetpoint = true ∧
    (∀ e ∈ l.holds, e.reason ≠ .interrupted) := by
  refine ⟨⟨floor_takes, rfl, floor_knows _, floor_noticesGo, floor_plantRoom3, floor_floorRoom⟩, floor_busy _, floor_busy _,
    floor_busy _, floor_busy _, floor_busy _, ?_, ?_, by decide +kernel⟩ <;> unfold State.soleRun <;> decide +kernel

/-- A STATUS without an expiry under a run whose expiry is known, in RUNNING with a jam, in SETUP with an item left, and in
STOPPING. -/
theorem witness_StatusBringsExpiry :
    let s (st : CellState) (reason : Option StopReason) :=
      floor { dueCell st reason Timers.idle with expiry := some 500 } (some lot)
    let m := cellMsg (statusBytes 1 0 [0, 0, 0, 1])
    ((s .running none).takes ∧ (s .running none).CellsFit ∧ (s .setup none).CellsFit ∧ (s .stopping (some .hold)).CellsFit ∧
      (s .running none).knowsCell m reg21) ∧
    readStatus m.body = some (statusOf .jammed .cold false false false true) ∧
    (statusOf .jammed .cold false false false true).restarted = false ∧
    (statusOf .jammed .cold false false false true).runActive = false ∧
    (statusOf .jammed .cold false false false true).expiry ≠ ((s .running none).cell 21).expiry ∧
    ((s .running none).cell 21).state = .running ∧ ((s .setup none).cell 21).state = .setup ∧
    ((s .setup none).cell 21).stack = run :: [] ∧ ((s .stopping (some .hold)).cell 21).state = .stopping :=
  ⟨⟨floor_takes, floor_busy _, floor_busy _, floor_busy _, floor_knows _⟩, by decide +kernel⟩

/-- A LOAD_DONE of program 3,300 revision 1, OK or FAIL. -/
def loadDone (result : Nat) : Msg := cellMsg [result, 12, 228, 1, 0, 0, 0, 77]

/-- An answer with another item pending and as the last one, an answer to an earlier setup's order in SETUP, IDLE and RUNNING,
with the step's program and without, and one without an order in IDLE and RUNNING. -/
theorem witness_LoadDoneAnswersTheOrder :
    let x (kit current : Bool) : Cell := { dueCell .setup none Timers.idle with
      kit := some 3, setpoint := some .cold, atSetpoint := true, order := some ⟨3300, 1, 77⟩, orderCurrent := current
      items := ⟨true, kit, false⟩ }
    let s (kit current : Bool) := floor (x kit current) (some lot)
    let late (st : CellState) : Cell := { runCell st run with order := some ⟨3300, 1, 77⟩ }
    ((s true true).takes ∧ (s true true).CellsFit ∧ (s true true).passTaken ∧ (s true true).knowsCell (loadDone 0) reg21 ∧
      (s true true).plantRoom 1 ∧ (s false true).floorRoom 1) ∧ (s false true).CellsFit ∧ (s false false).CellsFit ∧
    (floor (late .running) (some lot)).CellsFit ∧
    readLoadDone (loadDone 0).body = some (true, ⟨3300, 1, 77⟩) ∧ readLoadDone (loadDone 1).body = some (false, ⟨3300, 1, 77⟩) ∧
    ((floor (idleCell .idle) none).cell 21).order = none ∧ ((floor (idleCell .idle) none).cell 21).state = .idle ∧
    ((floor (runCell .running run) none).cell 21).order = none ∧ ((s true true).cell 21).order = some ⟨3300, 1, 77⟩ ∧
    ((s true true).cell 21).orderCurrent = true ∧ ((s true true).cell 21).items.load = true ∧
    ((s true true).cell 21).items.kit = true ∧ ((s false true).cell 21).items.kit = false ∧
    ((s false true).cell 21).items.soak = false ∧ ((s false true).cell 21).stack = run :: [] ∧ (s false true).lot? 128 = some lot ∧
    ((s false true).programOf ((s false true).runStep run)).vals = ⟨3300, 1, 77⟩ ∧
    ((s false true).cell 21).kit = some ((s false true).runStep run).kit ∧
    ((s false true).cell 21).setpoint = some ((s false true).runStep run).temp ∧
    ((s false false).cell 21).orderCurrent = false ∧ ((floor (late .running) none).cell 21).orderCurrent = false :=
  ⟨⟨floor_takes, floor_busy _, rfl, floor_knows _, floor_plantRoom1, floor_floorRoom⟩, floor_busy _, floor_busy _, floor_busy _,
    by decide +kernel⟩

/-- A run that awaits its start, in STARTING and in STOPPING; a fourth segment stands; and one whose segment is open. -/
theorem witness_RunStartedOpensSegment :
    let r : Run := { run with awaiting := true }
    let l := openLot 4 []
    let s (st : CellState) (reason : Option StopReason) := floor { runCell st r with stopReason := reason } (some l)
    ((s .starting none).takes ∧ (s .starting none).passTaken ∧ (s .starting none).knowsCell (cellMsg []) reg21 ∧
      (s .starting none).namesLot (cellMsg []) l ∧ r.namedBy (cellMsg []) ∧ (s .starting none).plantRoom 1) ∧
    (s .starting none).CellsFit ∧ (s .stopping (some .hold)).CellsFit ∧ (cellMsg []).body = [] ∧ r.awaiting = true ∧
    r.segOpen = false ∧ ((s .starting none).cell 21).stack = r :: [] ∧ ((s .starting none).cell 21).state = .starting ∧
    ((s .stopping (some .hold)).cell 21).state = .stopping ∧ ((s .starting none).cell 21).loaded = some ⟨3300, 1, 77⟩ ∧
    (floor (runCell .starting { r with segOpen := true }) (some l)).CellsFit ∧ ({ r with segOpen := true } : Run).namedBy (cellMsg []) :=
  ⟨⟨floor_takes, rfl, floor_knows _, floor_names, ⟨rfl, rfl, rfl⟩, floor_plantRoom1⟩, floor_busy _, floor_busy _, rfl, rfl, rfl,
    floor_stack, by decide +kernel, by decide +kernel, by decide +kernel, floor_busy _, ⟨rfl, rfl, rfl⟩⟩

/-- A run event dropped for each reason of R85, for RUN_STARTED, PASS_END and RUN_STOPPED alike: a body not of its kind, an
unregistered cell, the lookup of R8, no run of the lot, another step, another pass, and a run that awaits no start or whose
pass end is marked. -/
theorem witness_RunEventsDropped :
    let s := floor { runCell .stopping { run with stopped := some (.first, 10) } with stopReason := some .hold } (some lot)
    let m := cellMsg [1, 0, 0, 0, 10]
    let at_ (handle inst step : Nat) : Msg := ⟨0, 0x2121, .plant, 21, BitVec.ofNat 16 handle, BitVec.ofNat 8 inst, BitVec.ofNat 8 step, [], []⟩
    s.takes ∧ s.passTaken ∧ s.plantRoom 1 ∧ s.knowsCell m reg21 ∧ s.dropsEvent (at_ 512 1 0) none .unknownGroup ∧
    s.dropsEvent (at_ 129 1 0) none .unknownLot ∧ s.dropsEvent (at_ 128 2 0) none .stale ∧
    (floor (idleCell .idle) (some lot)).dropsEvent (at_ 128 1 0) none .notRunning ∧ s.dropsEvent (at_ 128 1 1) none .wrongStep ∧
    s.dropsEvent m (some .retest) .wrongPass ∧ s.namesTop m (some .first) { run with stopped := some (.first, 10) } ∧
    m.body.isEmpty = false ∧ readPassEnd (bytes [0, 0]) = none ∧ s.reg? 22 = none ∧ run.awaiting = false ∧
    (readPassEnd m.body).map Prod.fst = some .retest := by
  refine ⟨floor_takes, rfl, floor_plantRoom1, floor_knows _, .inl (.inl ⟨.inl ⟨rfl, by decide⟩, rfl⟩),
    .inl (.inr (.inl ⟨?_, rfl⟩)), .inl (.inr (.inr ⟨?_, rfl⟩)), .inr ⟨lot, floor_names (body := []), .inl ⟨rfl, ?_⟩⟩,
    .inr ⟨lot, floor_names (body := []), .inr ⟨_, _, floor_stack, ⟨rfl, rfl⟩, .inl ⟨rfl, by decide⟩⟩⟩,
    .inr ⟨lot, floor_names, .inr ⟨_, _, floor_stack, ⟨rfl, rfl⟩, .inr ⟨rfl, rfl, _, rfl, by decide⟩⟩⟩,
    ⟨⟨lot, floor_names⟩, ?_, ⟨rfl, rfl, rfl⟩, fun p h => ?_⟩, by decide +kernel⟩
  · unfold State.refusesLot; decide +kernel
  · unfold State.refusesLot; decide +kernel
  · intro r below h
    have : ((floor (idleCell .idle) (some lot)).cell 21).stack = [] := by decide +kernel
    exact absurd (this ▸ h) (by simp)
  · decide +kernel
  · cases h; rfl

/-- A PASS_END of the first pass with fed count 10. -/
def passEnd : Msg := cellMsg [0, 0, 0, 0, 10]

/-- A lot whose first pass is over, with a number of retestable units. -/
def testedLot (retestable : Nat) : Lot :=
  { lot with acc := { lot.acc with tested1 := 10, good1 := 10 - retestable, retestable1 := retestable } }

/-- A guard profile that trips FINAL_LOW below all units and allows no unit to be lost. -/
def exacting : Profile := { profile with finalFloor := 1000, lostAllow := 0 }

/-- The floor with another guard profile 1. -/
def guardedBy (s : State) (p : Profile) : State :=
  { s with tst := { s.tst with profiles := vmod s.tst.profiles 1 fun _ => some p } }

/-- A step end: no check tripped, FINAL_LOW and LOST_HIGH tripped with no entry standing and with one of theirs. -/
theorem witness_StepCloses :
    let l (tested : Nat) (holds : List HoldEntry) : Lot :=
      { openLot 0 holds with segments := [] ++ [segment], acc := { lot.acc with tested1 := tested, good1 := tested } }
    let s (p : Profile) (tested : Nat) (holds : List HoldEntry) := guardedBy (floor (runCell .running opened) (some (l tested holds))) p
    (s exacting 8 []).noticesGo ∧ (s exacting 8 []).plantRoom 3 ∧ (s exacting 8 []).lot? 128 = some (l 8 []) ∧
    ((s exacting 8 []).cell 21).stack = opened :: [] ∧ opened.segOpen = true ∧ (l 8 []).segments = [] ++ [segment] ∧
    ((s exacting 8 []).profileOf ((s exacting 8 []).lotStep (l 8 []))) = exacting ∧
    ((l 8 []).acc.good1 + (l 8 []).acc.good2) * 1000 < exacting.finalFloor * (l 8 []).acc.unitsIn ∧
    exacting.lostAllow + (l 8 []).acc.tested1 < (l 8 []).acc.unitsIn ∧
    ¬exacting.lostAllow + (l 10 []).acc.tested1 < (l 10 []).acc.unitsIn ∧
    (∃ e ∈ (l 8 [entry .guard, entry .quantity]).holds, e.reason = .guard) := by
  refine ⟨⟨by decide +kernel, rfl⟩, by unfold State.plantRoom; decide +kernel, by decide +kernel⟩

/-- A retest due; a step end in the first pass and in the retest, at a step with another after it and at the last, with entries and
without, above a lower run and not; and a pass end in STOPPING. -/
theorem witness_PassEndEndsPassOrStep :
    let l (step n : Nat) (holds : List HoldEntry) : Lot :=
      { testedLot n with state := .running, step := step, segments := [segment], holds := holds }
    let r (step : Nat) (pass : Pass) : Run := { opened with step := step, pass := pass }
    let s (st : CellState) (reason : Option StopReason) (step : Nat) (pass : Pass) (n : Nat) (holds : List HoldEntry) :=
      floor { runCell st (r step pass) with stopReason := reason } (some (l step n holds))
    let two := withLot (floor { runCell .running (r 0 .first) with stack := [r 0 .first, otherRun] } (some (l 0 0 [])))
      { lot with state := .preempted }
    ((s .running none 0 .first 1 []).takes ∧ (s .running none 0 .first 1 []).passTaken ∧
      (s .running none 0 .first 1 []).knowsCell passEnd reg21 ∧ (s .running none 0 .first 1 []).namesLot passEnd (l 0 1 []) ∧
      (r 0 .first).namedBy passEnd ∧ (r 1 .first).namedBy { passEnd with step := 1 } ∧
      (s .running none 0 .first 1 []).floorRoom 1 ∧ (s .running none 0 .first 1 []).plantRoom 1) ∧
    (s .running none 0 .first 1 []).CellsFit ∧ (s .paused none 1 .first 0 []).CellsFit ∧
    (s .stopping (some .hold) 0 .first 1 []).CellsFit ∧ (s .running none 0 .retest 0 []).CellsFit ∧ two.CellsFit ∧
    two.carries 21 otherRun ∧ (s .running none 0 .first 1 []).dueRetest (l 0 1 []) .first ∧
    ¬(s .running none 0 .first 0 []).dueRetest (l 0 0 []) .first ∧ ¬(s .running none 0 .retest 1 []).dueRetest (l 0 1 []) .retest ∧
    readPassEnd passEnd.body = some (.first, 10) ∧ readPassEnd (bytes [1, 0, 0, 0, 10]) = some (.retest, 10) ∧
    (two.cell 21).stack = r 0 .first :: [otherRun] ∧ otherRun.handle ≠ (r 0 .first).handle ∧
    (l 0 0 []).step + 1 < (s .running none 0 .first 0 []).stepCount (l 0 0 []).route ∧
    (s .running none 1 .first 0 []).stepCount (l 1 0 []).route ≤ (l 1 0 []).step + 1 ∧
    (l 0 0 [entry .site]).holds ≠ [] ∧ (r 0 .first).stopped = none ∧ (r 0 .first).awaiting = false ∧
    ((s .stopping (some .hold) 0 .first 1 []).cell 21).state = .stopping := by
  refine ⟨⟨floor_takes, rfl, floor_knows _, floor_names, ⟨rfl, rfl, rfl⟩, ⟨rfl, rfl, rfl⟩, floor_floorRoom, floor_plantRoom1⟩,
    floor_busy _, floor_busy _, floor_busy _, floor_busy _, fit_as (floor_busy (x := { runCell .running opened with
      stack := [opened, otherRun] }) none) rfl, ⟨by decide +kernel, ?_⟩, ?_⟩
  · intro f e hf; cases hf
  · unfold State.dueRetest; decide +kernel

/-- A PASS_END of a run that awaits its start: in STARTING, before its first segment and in a retest, and in STOPPING. -/
theorem witness_PassEndStarts :
    let r (open_ : Bool) : Run := { run with awaiting := true, segOpen := open_ }
    let s (st : CellState) (reason : Option StopReason) (open_ : Bool) :=
      floor { runCell st (r open_) with stopReason := reason } (some (openLot 1 []))
    ((s .starting none false).takes ∧ (s .starting none false).passTaken ∧ (s .starting none false).knowsCell passEnd reg21 ∧
      (s .starting none false).namesLot passEnd (openLot 1 []) ∧ (r false).namedBy passEnd ∧ (s .stopping (some .hold) true).plantRoom 1) ∧
    (s .starting none false).CellsFit ∧ (s .starting none true).CellsFit ∧ (s .stopping (some .hold) true).CellsFit ∧
    ((s .starting none false).cell 21).stack = r false :: [] ∧ ((s .starting none false).cell 21).loaded = some ⟨3300, 1, 77⟩ ∧
    (r true).stopped = none ∧ (r true).awaiting = true ∧ (r true).pass = .first :=
  ⟨⟨floor_takes, rfl, floor_knows _, floor_names, ⟨rfl, rfl, rfl⟩, floor_plantRoom1⟩, floor_busy _, floor_busy _, floor_busy _,
    by decide +kernel⟩

/-- A stop not ordered and each ordered one, of a run alone, above a lower run, never started, at its fourth segment, and with its
pass end marked, a retest due and none. -/
theorem witness_RunStoppedFreesCell :
    let r (open_ : Bool) (mark : Option (Pass × Nat)) : Run := { opened with segOpen := open_, stopped := mark }
    let low : Run := { otherRun with segOpen := false }
    let x (stack : List Run) (reason : StopReason) : Cell := { runCell .stopping opened with stack := stack, stopReason := some reason }
    let s (x : Cell) (l : Lot) := floor x (some l)
    let marked (n : Nat) : Lot := { testedLot n with state := .running, segments := [segment] }
    let two : State := withLot (s (x [opened, low] .hold) (openLot 3 [])) { lot with state := .preempted }
    let plain := s (x [opened] .hold) (openLot 3 [])
    (s (runCell .running opened) (openLot 3 [])).CellsFit ∧ (s (x [r false none] .calibration) lot).CellsFit ∧
    (s (x [r true (some (.first, 10))] .hold) (marked 1)).CellsFit ∧ two.CellsFit ∧
    (plain.takes ∧ plain.passTaken ∧ plain.knowsCell (cellMsg []) reg21 ∧ plain.namesLot (cellMsg []) (openLot 3 []) ∧
      opened.namedBy (cellMsg []) ∧ plain.plantRoom 1 ∧ plain.noticesGo) ∧
    (runCell .running opened).stopsFor .fault ∧ (x [opened] .hold).stopsFor .hold ∧ (x [opened] .quantity).stopsFor .hold ∧
    (x [opened] .calibration).stopsFor .calibration ∧ (x [opened] .jamTimeout).stopsFor .jamTimeout ∧ two.carries 21 low ∧
    plain.dueRetest (marked 1) .first ∧ ¬plain.dueRetest (marked 0) .first ∧ (two.cell 21).stack = opened :: [low] ∧
    low.handle ≠ opened.handle ∧ (openLot 3 []).segments.length < 4 ∧ (openLot 4 []).segments.length = 4 ∧
    (∀ e ∈ (openLot 4 [entry .site]).holds, e.reason ≠ .equipment) := by
  refine ⟨floor_busy _, floor_busy _, floor_busy _, fit_as (floor_busy (x := { runCell .stopping opened with
      stack := [opened, { otherRun with segOpen := false }], stopReason := some .hold }) none) rfl,
    ⟨floor_takes, rfl, floor_knows _, floor_names, ⟨rfl, rfl, rfl⟩, floor_plantRoom1, floor_noticesGo⟩, ?_⟩
  refine ⟨.inl ⟨.inr (.inl rfl), rfl⟩, .inr ⟨rfl, .inl ⟨.inl rfl, rfl⟩⟩, .inr ⟨rfl, .inl ⟨.inr rfl, rfl⟩⟩,
    .inr ⟨rfl, .inr (.inl ⟨rfl, rfl⟩)⟩, .inr ⟨rfl, .inr (.inr ⟨rfl, rfl⟩)⟩, ⟨by decide +kernel, ?_⟩, ?_⟩
  · intro f e hf; cases hf
  · unfold State.dueRetest; decide +kernel

/-- A stop for a preemption with an incoming run and after its withdrawal, of a lot without entries and with one, with a pass end
marked or not. -/
theorem witness_PreemptSettles :
    let low : Run := { otherRun with segOpen := false }
    let x (r : Run) (incoming : Option Run) : Cell :=
      { runCell .stopping r with stopReason := some .preempt, incoming := incoming }
    let s (incoming : Option Run) (holds : List HoldEntry) := withLot (floor (x opened incoming) (some (openLot 3 holds)))
      { lot with cls := 0, state := .assigned }
    let marked : Run := { opened with stopped := some (.first, 10) }
    ((s (some low) []).takes ∧ (s (some low) []).passTaken ∧ opened.namedBy (cellMsg []) ∧ (s (some low) []).CellsFit ∧
      (floor (x marked none) (some (testedLot 1))).CellsFit) ∧ (s (some low) []).carries 21 low ∧ (s none []).carries 21 opened ∧
    (s (some low) []).reg? 21 = some reg21 ∧ (s (some low) []).slot 128 = ⟨1, some (openLot 3 [])⟩ ∧
    ((s (some low) []).cell 21).incoming = some low ∧ low.handle ≠ opened.handle ∧ ((s none []).cell 21).incoming = none ∧
    ((s (some low) []).cell 21).stopReason = some .preempt ∧ (openLot 3 [entry .site]).holds ≠ [] ∧
    (openLot 3 []).segments.length < 4 := by
  refine ⟨⟨⟨rfl, by decide +kernel⟩, rfl, ⟨rfl, rfl, rfl⟩, fit_as (floor_busy (x := { runCell .stopping opened with
      stopReason := some .preempt, incoming := some { otherRun with segOpen := false } }) none) rfl, floor_busy _⟩,
    ⟨by decide +kernel, ?_⟩, ⟨by decide +kernel, ?_⟩, by decide +kernel⟩ <;> intro f e hf <;> cases hf

/-! ### Witnesses: bin records

Profile 1 trips nothing on a first record; `strict` trips YIELD_LOW on every record that is no PASS, `steady` SITE_RUN. -/

def strict : Profile := { profile with yieldFloor := 1000 }

def steady : Profile := { profile with consecLimit := 1 }

/-- The floor of a record: cell 21 with a run of the lot, its context, its sites and the guard profile. -/
def recording (p : Profile) (st : CellState) (r : Run) (sites : Mask16) (l : Lot) : State :=
  let s := floor { runCell st r with
    stopReason := if st = .stopping then some .quantity else none
    enabled := sites
    confirmed := sites
    ctx := some ⟨128, 1, 0, r.pass⟩ } (some l)
  { s with tst := { tables with profiles := vmod tables.profiles 1 fun _ => some p } }

/-- A BIN of site 3, soft bin 7 and tester hard bin 4 with its stream flag set. -/
def binOf (pass : Nat) : Msg := cellMsg [pass, 3, 7, 4, 1, 0, 9]

/-- The accumulators after a first-pass record of class RETESTABLE of site 3. -/
def afterOne (p : Profile) (a : Acc) : Acc := countFirst a p ⟨4, .retestable, false⟩ 3 4 true true

theorem takes_record {p : Profile} {st : CellState} {r : Run} {sites : Mask16} {l : Lot} (hs : st.countsBins)
    (h : sites.getLsbD 3 = true) (hr : r.handle = 128) (hi : r.inst = 1) (h0 : r.step = 0) :
    (recording p st r sites l).takesRecord 21 ⟨128, 1, 0, r.pass⟩ 3 r := by
  have hc : ((recording p st r sites l).cell 21) = { runCell st r with
      stopReason := if st = .stopping then some .quantity else none
      enabled := sites
      confirmed := sites
      ctx := some ⟨128, 1, 0, r.pass⟩ } := floor_cell (l := some l)
  refine ⟨?_, ?_, by rw [hr, hi, h0], ?_, .inl ?_⟩
  · rw [hc]; exact hs
  · rw [hc]; rfl
  · simp only [State.siteCount, State.reg?, recording, tables, vget_vmod]; decide
  · rw [hc]; exact h

/-- With profile 1 no kind trips; with the others one does, and demotion has sites to spare or not. -/
theorem witness_BinRecordIsCounted :
    let s (p : Profile) (sites : Mask16) := recording p .running opened sites (openLot 1 [])
    let a (p : Profile) := afterOne p lot.acc
    ((s profile 15).takes ∧ (s profile 15).passTaken ∧ (s profile 15).knowsCell (binOf 0) reg21 ∧
      (s profile 15).namesLot (binOf 0) (openLot 1 []) ∧ opened.namedBy (binOf 0) ∧ (s profile 15).noticesGo ∧
      (s profile 15).plantRoom 2 ∧ (s profile 15).floorRoom 1 ∧ (s profile 15).CellsFit) ∧
    (s profile 15).takesRecord 21 ⟨128, 1, 0, .first⟩ 3 opened ∧ ¬opened.passFull (openLot 1 []).acc ∧
    (∀ t, ¬tripsLot profile (a profile) t) ∧ (∀ t, ¬tripsSite profile (a profile) .retestable 3 t) ∧
    tripsLot strict (a strict) .yieldLow ∧ (∀ t, ¬tripsSite strict (a strict) .retestable 3 t) ∧
    (∀ t, ¬tripsLot steady (a steady) t) ∧ tripsSite steady (a steady) .retestable 3 (.siteRun 3) ∧
    (s profile 15).mapped opened 7 = ⟨4, .retestable, false⟩ ∧ (s profile 15).profileOf ((s profile 15).runStep opened) = profile ∧
    (s steady 15).profileOf ((s steady 15).runStep opened) = steady ∧ steady.minSites + 1 ≤ maskCount ((s steady 15).cell 21).enabled ∧
    maskCount ((s steady 8).cell 21).enabled < steady.minSites + 1 ∧ ((s profile 15).cell 21).stack = opened :: [] ∧
    (∀ d, d < 21 → ((s profile 15).cell d).stack.head?.map Run.handle ≠ some 128) ∧
    ((s profile 15).cell 21).ctx = some ⟨128, 1, 0, .first⟩ ∧ (openLot 1 []).state = .running ∧
    (s profile 15).lot? 128 = some (openLot 1 []) := by
  have lotWide (p : Profile) (h : p = profile ∨ p = steady) : ∀ t, ¬tripsLot p (afterOne p lot.acc) t := by
    rintro t ⟨-, ⟨-, -, hy⟩ | ⟨b, -, hb, -, hh⟩ | ⟨-, hw, -⟩ | ⟨-, hm⟩⟩ <;> rcases h with rfl | rfl
    all_goals first
      | exact absurd hy (by decide +kernel)
      | exact absurd hw (by decide +kernel)
      | exact absurd hm (by decide +kernel)
      | (revert b; decide +kernel)
  have site (p : Profile) (h : p = profile ∨ p = strict) : ∀ t, ¬tripsSite p (afterOne p lot.acc) .retestable 3 t := by
    rintro t ⟨-, ⟨-, hk, -⟩ | ⟨-, hk, -⟩⟩ <;> rcases h with rfl | rfl <;> exact absurd hk (by decide)
  refine ⟨⟨floor_takes, rfl, floor_knows _, floor_names, ⟨rfl, rfl, rfl⟩, floor_noticesGo, floor_plantRoom, floor_floorRoom,
    fit_as (floor_busy (x := { runCell .running opened with
      enabled := 15, confirmed := 15, ctx := some ⟨128, 1, 0, .first⟩ }) (some (openLot 1 []))) rfl⟩,
    takes_record (.inr (.inl rfl)) (by decide) rfl rfl rfl, ?_, lotWide _ (.inl rfl), site _ (.inl rfl),
    ⟨by decide +kernel, .inl (by decide +kernel)⟩, site _ (.inr rfl), lotWide _ (.inr rfl),
    ⟨by decide +kernel, .inr (by decide +kernel)⟩, by decide +kernel⟩
  unfold Run.passFull; decide +kernel

/-- A retest record, with the mismatches under the limit and over it. -/
theorem witness_RetestRecordIsCounted :
    let r : Run := { opened with pass := .retest }
    let l : Lot := { openLot 1 [] with pass := .retest, acc := { lot.acc with tested1 := 10, retestable1 := 3, mismatch := 255 } }
    let s := recording profile .running r 15 l
    let low := recording { profile with mismatchLimit := 256 } .running r 15 l
    (s.takes ∧ s.passTaken ∧ s.knowsCell (binOf 1) reg21 ∧ s.namesLot (binOf 1) l ∧ s.plantRoom 2 ∧ s.noticesGo ∧ s.floorRoom 1) ∧
    s.takesRecord 21 ⟨128, 1, 0, .retest⟩ 3 r ∧ ¬r.passFull l.acc ∧ (s.mapped r 7).unmapped = false ∧ (s.mapped r 7).hard = 4 ∧
    (s.mapped r 8).unmapped = true ∧ (s.profileOf (s.runStep r)).mismatchLimit < min 65535 (l.acc.mismatch + 1) ∧
    min 65535 (l.acc.mismatch + 1) ≤ (low.profileOf (low.runStep r)).mismatchLimit ∧ Trip.binMismatch ∉ l.acc.waived ∧
    (s.cell 21).stack = r :: [] := by
  refine ⟨⟨floor_takes, rfl, floor_knows _, floor_names, floor_plantRoom, floor_noticesGo, floor_floorRoom⟩,
    takes_record (.inr (.inl rfl)) (by decide) rfl rfl rfl, ?_, by decide +kernel⟩
  unfold Run.passFull; decide +kernel

/-- A record refused for each check from 3 to 9 of R99, full and compact. -/
theorem witness_BinRecordRefused :
    let s := recording profile .running opened 7 lot
    let naming (handle inst : Nat) : Msg := ⟨0, 0x2121, .plant, 21, BitVec.ofNat 16 handle, BitVec.ofNat 8 inst, 0, (binOf 0).body, []⟩
    let none_ := floor (idleCell .idle) (some lot)
    s.takes ∧ s.passTaken ∧ s.plantRoom 1 ∧ s.knowsCell (binOf 0) reg21 ∧ s.missesLot (naming 512 1) .unknownGroup ∧
    s.missesLot (naming 129 1) .unknownLot ∧ s.missesLot (naming 128 2) .stale ∧ s.namesLot (binOf 0) lot ∧
    none_.refusesRecord 21 ⟨128, 1, 0, .first⟩ 3 .notRunning ∧ s.refusesRecord 21 ⟨128, 1, 1, .first⟩ 3 .wrongStep ∧
    s.refusesRecord 21 ⟨128, 1, 0, .retest⟩ 3 .wrongPass ∧ s.refusesRecord 21 ⟨128, 1, 0, .first⟩ 3 .siteDisabled ∧
    s.refusesRecord 21 ⟨128, 1, 0, .first⟩ 4 .siteDisabled ∧ (s.cell 21).ctx = some ⟨128, 1, 0, .first⟩ ∧
    (none_.cell 21).ctx = none ∧ s.reg? 22 = none ∧ (binOf 0).body.length = 7 ∧ (s.cell 21).stack.head? = some opened := by
  have top : (recording profile .running opened 7 lot).cell 21 = { runCell .running opened with
      enabled := 7, confirmed := 7, ctx := some ⟨128, 1, 0, .first⟩ } := floor_cell (l := some lot)
  have mine : ((recording profile .running opened 7 lot).cell 21).state.countsBins ∧
      ((recording profile .running opened 7 lot).cell 21).stack.head? = some opened ∧ opened.handle = 128 ∧ opened.inst = 1 := by
    rw [top]; exact ⟨.inr (.inl rfl), rfl, rfl, rfl⟩
  have refused {site : Nat} (h : (7#16).getLsbD site = false) :
      (recording profile .running opened 7 lot).refusesRecord 21 ⟨128, 1, 0, .first⟩ site .siteDisabled :=
    .inr ⟨_, mine, .inr (.inr ⟨rfl, rfl, rfl, fun ⟨_, k⟩ => by rw [top] at k; exact absurd k (by simp [h])⟩)⟩
  refine ⟨floor_takes, rfl, floor_plantRoom1, floor_knows _, .inl ⟨.inl ⟨rfl, by decide⟩, rfl⟩, .inr (.inl ⟨?_, rfl⟩),
    .inr (.inr ⟨?_, rfl⟩), floor_names, .inl ⟨rfl, ?_⟩, .inr ⟨_, mine, .inl ⟨rfl, by decide⟩⟩,
    .inr ⟨_, mine, .inr (.inl ⟨rfl, rfl, by decide⟩)⟩, refused (by decide), refused (by decide), by decide +kernel⟩
  · unfold State.refusesLot; decide +kernel
  · unfold State.refusesLot; decide +kernel
  · rintro r ⟨-, h, -⟩
    have : ((floor (idleCell .idle) (some lot)).cell 21).stack = [] := by decide +kernel
    rw [this] at h; cases h

/-- A record past the units of its pass: the hold placed while RUNNING, and merged in STOPPING. -/
theorem witness_OvercountHolds :
    let l (holds : List HoldEntry) : Lot := { openLot 1 holds with acc := { lot.acc with tested1 := 10 } }
    let s (st : CellState) (holds : List HoldEntry) := recording profile st opened 15 (l holds)
    ((s .running []).takes ∧ (s .running []).passTaken ∧ (s .running []).knowsCell (binOf 0) reg21 ∧
      (s .running []).namesLot (binOf 0) (l []) ∧ (s .running []).plantRoom 2 ∧ (s .running []).noticesGo ∧
      (s .running []).floorRoom 1) ∧ (s .running []).takesRecord 21 ⟨128, 1, 0, .first⟩ 3 opened ∧
    (s .stopping [entry .quantity]).takesRecord 21 ⟨128, 1, 0, .first⟩ 3 opened ∧ opened.passFull (l []).acc ∧
    (s .running []).CellsFit ∧ (s .stopping [entry .quantity]).CellsFit ∧
    ([entry .quantity].map HoldEntry.reason).Nodup ∧ ((s .stopping [entry .quantity]).cell 21).state = .stopping ∧
    [entry .quantity] = [] ++ entry .quantity :: [] ∧ (∀ d, d < 21 → ((s .running []).cell d).stack.head?.map Run.handle ≠ some 128) := by
  refine ⟨⟨floor_takes, rfl, floor_knows _, floor_names, floor_plantRoom, floor_noticesGo, floor_floorRoom⟩,
    takes_record (.inr (.inl rfl)) (by decide) rfl rfl rfl, takes_record (.inr (.inr (.inr rfl))) (by decide) rfl rfl rfl,
    .inl ⟨rfl, rfl⟩, fit_as (floor_busy (x := { runCell .running opened with
      enabled := 15, confirmed := 15, ctx := some ⟨128, 1, 0, .first⟩ }) none) rfl,
    fit_as (floor_busy (x := { runCell .stopping opened with
      stopReason := some .quantity, enabled := 15, confirmed := 15, ctx := some ⟨128, 1, 0, .first⟩ }) none) rfl,
    by decide +kernel⟩

/-! ### Witnesses: holds, dispositions, shipment and queries -/

/-- A lot with a state and a list of entries. -/
def heldLot (st : LotState) (holds : List HoldEntry) : Lot := { lot with state := st, holds := holds, target := some .resume }

theorem witness_HoldPlacesEngineeringEntry :
    let s (x : Cell) (l : Lot) := floor x (some l)
    let m := req [0, 9, 0] 128 1
    let busy := s (runCell .running run) (heldLot .running [])
    ((s (idleCell .idle) lot).accepts m 9 (bytes [0]) ∧ (s (idleCell .idle) lot).namesLot m lot ∧
      (s (idleCell .idle) lot).passTaken ∧ (s (idleCell .idle) lot).noticesGo ∧ (s (idleCell .idle) lot).plantRoom 2) ∧
    (busy.CellsFit ∧ busy.reg? 21 = some reg21 ∧ busy.floorRoom 1) ∧ readHold (bytes [0]) = some none ∧
    (heldLot .released []).state = .released ∧ lot.state = .waiting ∧ lot.holds = [] ∧ (busy.cell 21).stack = run :: [] ∧
    (∀ d, d < 21 → (busy.cell d).stack.head?.map Run.handle ≠ some 128) ∧ (busy.cell 21).state = .running ∧
    ((s (runCell .starting run) (heldLot .assigned [])).cell 21).state = .starting ∧
    (heldLot .held [entry .engineering]).holds = [entry .engineering] :=
  ⟨⟨floor_accepts rfl (by decide +kernel), floor_namesReq, rfl, floor_noticesGo, floor_plantRoom⟩,
    ⟨floor_busy _, floor_reg, floor_floorRoom⟩, by decide +kernel⟩

/-- A lot after its last step: its carried quantity, whether its quantities were reconciled, and its waived kinds. -/
def finished (carried : Nat) (reconciled : Bool) (waived : List Trip) : Lot :=
  { lot with
    step := 1, state := .running, acc := { lot.acc with waived := waived }
    summaries := [⟨1, .test, .room, 10, 10, 10, carried, 0, 0, 0, carried, false, [], [], false, reconciled⟩] }

/-- A lot whose run is in SETUP alone and above a lower run, incoming, preempted and in STOPPING; and a COMPLETE lot. -/
theorem witness_HoldRemovesRun :
    let s (x : Cell) (st : LotState) := floor x (some { openLot 3 [] with state := st })
    let setup : Cell := { runCell .setup opened with stack := [opened, otherRun] }
    let two := withLot (s setup .assigned) { lot with state := .preempted }
    let incoming : Cell := { runCell .stopping otherRun with stopReason := some .preempt, incoming := some run }
    let beneath : Cell := { runCell .setup otherRun with stack := [otherRun, opened] }
    let stopping : Cell := { runCell .stopping opened with stopReason := some .hold }
    two.CellsFit ∧ (s incoming .assigned).CellsFit ∧ (s beneath .preempted).CellsFit ∧ (s stopping .running).CellsFit ∧
    two.carries 21 otherRun ∧ (two.accepts (req [0, 9, 0] 128 1) 9 (bytes [0]) ∧ two.passTaken ∧ two.noticesGo ∧ two.plantRoom 2) ∧
    (two.cell 21).stack = opened :: [otherRun] ∧ otherRun.handle ≠ 128 ∧
    (∀ d, d < 21 → (two.cell d).stack.head?.map Run.handle ≠ some 128) ∧
    (∀ d, d < 48 → ((s incoming .assigned).cell d).stack.head?.map Run.handle ≠ some 128) ∧
    (∀ d, d < 21 → ((s incoming .assigned).cell d).incoming.map Run.handle ≠ some 128) ∧
    ((s incoming .assigned).cell 21).incoming.map Run.handle = some 128 ∧
    ((s beneath .preempted).cell 21).stack = [otherRun, opened] ∧
    (∀ d, d < 21 → ¬∃ q ∈ ((s beneath .preempted).cell d).stack.tail, q.handle = 128) ∧ (openLot 3 []).segments.length < 4 := by
  refine ⟨fit_as (floor_busy (x := { runCell .setup opened with stack := [opened, otherRun] }) none) rfl, floor_busy _, floor_busy _,
    floor_busy _, ⟨by decide +kernel, ?_⟩, ?_⟩
  · intro f e hf; cases hf
  · unfold State.accepts State.takes State.passTaken State.noticesGo State.plantRoom; decide +kernel

/-- A CONTINUE of the only entry, for each target: an ordinary entry, FINAL_LOW of a step that has closed, and RELEASE_LOW. -/
theorem witness_ContinueSendsOn :
    let l (target : Target) (e : HoldEntry) : Lot := { finished 4 true [] with state := .held, holds := [e], target := some target }
    let low : HoldEntry := { entry .guard with trips := [.finalLow] }
    let s (target : Target) (e : HoldEntry) := floor (idleCell .idle) (some (l target e))
    let m := req [0, 9, 0, 0] 128 1
    ((s .complete low).accepts m 9 (bytes [0, 0]) ∧ (s .complete low).namesLot m (l .complete low) ∧ (s .complete low).passTaken ∧
      (s .complete low).plantRoom 1 ∧ (s .complete low).noStopPending 128) ∧
    readRelease (bytes [0, 0]) = some (low.reason, .continue_) ∧ readRelease (bytes [1, 0]) = some ((entry .site).reason, .continue_) ∧
    (∃ y ∈ (l .resume low).summaries, y.step = (l .resume low).step) ∧ Trip.finalLow ∈ low.trips ∧
    (s .advance low).stepCount 2 ≤ (l .advance low).step + 1 ∧ ¬(s .advance low).stepCount 2 ≤ lot.step + 1 ∧
    Trip.finalLow ∉ ({ entry .guard with trips := [.releaseLow] } : HoldEntry).trips :=
  ⟨⟨floor_accepts rfl (by decide +kernel), floor_namesReq, rfl, floor_plantRoom1, floor_noStop (by decide)⟩, by decide +kernel⟩

theorem witness_ReleaseDisposesOfEntry :
    let s := floor (idleCell .idle) (some (heldLot .held [entry .engineering]))
    let m := req [0, 9, 4, 0] 128 1
    (s.accepts m 9 (bytes [4, 0]) ∧ s.namesLot m (heldLot .held [entry .engineering]) ∧ s.passTaken ∧ s.plantRoom 1 ∧
      s.noStopPending 128) ∧
    readRelease (bytes [4, 0]) = some (.engineering, .continue_) ∧ readRelease (bytes [4, 1]) = some (.engineering, .rework) ∧
    readRelease (bytes [5, 0]) = some (.family, .continue_) ∧
    ((floor (runCell .stopping run) (some lot)).cell 21).stack.head?.map Run.handle = some 128 ∧
    ((floor (runCell .stopping run) (some lot)).cell 21).state = .stopping ∧
    (∀ e ∈ (heldLot .held [entry .engineering]).holds, e.reason ≠ .site) ∧
    (∃ e ∈ (heldLot .held [entry .family]).holds, e.reason = .family) ∧
    vget ({ lot with reworked := vmod lot.reworked 0 fun _ => true } : Lot).reworked false 0 = true ∧
    (heldLot .held [entry .engineering, entry .site]).holds = [] ++ entry .engineering :: [entry .site] ∧
    ([entry .engineering, entry .site].map HoldEntry.reason).Nodup ∧ (heldLot .held [entry .guard]).target = some .resume ∧
    Trip.finalLow ∉ (entry .guard).trips ∧ vget lot.reworked false 0 = false :=
  ⟨⟨floor_accepts rfl (by decide +kernel), floor_namesReq, rfl, floor_plantRoom1, floor_noStop (by decide)⟩, by decide +kernel⟩

/-- An evaluation that releases, one at a full ship queue, and one for each check that holds the lot. -/
theorem witness_CompleteEvaluates :
    let x : Route := { route2 with releaseFloor := 500 }
    let s (l : Lot) (n : Nat) : State :=
      let f := floor (idleCell .idle) (some l)
      { f with
        tst := { tables with routes := vmod tables.routes 2 fun _ => some x }
        rlu := ⟨List.replicate n (f.recordOf 128 l), []⟩ }
    let low (l : Lot) := l.shipQty * 1000 < x.releaseFloor * l.qty ∧ Trip.releaseLow ∉ l.acc.waived
    let unsettled (l : Lot) := ∃ y ∈ l.summaries, y.reconciled = false
    (s (finished 5 true []) 63).noticesGo ∧ (s (finished 5 true []) 63).plantRoom 3 ∧ (finished 5 true []).holds = [] ∧
    (s (finished 5 true []) 63).lot? 128 = some (finished 5 true []) ∧ (s (finished 5 true []) 63).route? 2 = some x ∧
    (s (finished 5 true []) 63).rlu.ship.length < 64 ∧ 64 ≤ (s (finished 5 true []) 64).rlu.ship.length ∧
    ¬low (finished 5 true []) ∧ ¬low (finished 4 true [.releaseLow]) ∧ low (finished 4 true []) ∧ ¬unsettled (finished 4 true []) ∧
    unsettled (finished 5 false []) ∧ low (finished 4 false []) := by
  refine ⟨⟨by decide +kernel, rfl⟩, by unfold State.plantRoom; decide +kernel, by decide +kernel⟩

theorem witness_ScrapAndConfirmFreeSlot :
    let held := floor (idleCell .idle) (some (heldLot .held [entry .engineering]))
    let s := floor (idleCell .idle) (some (heldLot .released []))
    let full : State := { withLot s { lot with state := .complete } with
      rlu := ⟨List.replicate 64 (s.recordOf 128 lot), [⟨129, 1, 5⟩]⟩ }
    (held.accepts (req [0, 9, 4, 2] 128 1) 9 (bytes [4, 2]) ∧ held.namesLot (req [0, 9, 4, 2] 128 1) (heldLot .held [entry .engineering]) ∧
      held.noStopPending 128 ∧ held.noticesGo ∧ held.plantRoom 2 ∧ held.passTaken) ∧
    (s.accepts (req [0, 9] 128 1) 9 [] ∧ s.namesLot (req [0, 9] 128 1) (heldLot .released [])) ∧
    (full.noticesGo ∧ full.plantRoom 2) ∧ readRelease (bytes [4, 2]) = some (.engineering, .scrap) ∧ s.rlu.pend = [] ∧
    (heldLot .held []).state ≠ .released ∧ full.rlu.pend = [⟨129, 1, 5⟩] ∧ full.lot? 129 = some { lot with state := .complete } ∧
    full.route? 2 = some route2 ∧ ¬(lot.shipQty * 1000 < route2.releaseFloor * lot.qty) ∧
    (∀ y ∈ lot.summaries, y.reconciled = true) ∧ (full.rlu.ship.filter fun r => r.handle != 128).length < 64 := by
  refine ⟨⟨floor_accepts rfl (by decide +kernel), floor_namesReq, floor_noStop (by decide), floor_noticesGo, floor_plantRoom, rfl⟩,
    ⟨floor_accepts rfl (by decide +kernel), floor_namesReq⟩, ?_, by decide +kernel⟩
  unfold State.noticesGo State.plantRoom; decide +kernel

/-- A WAITING, a COMPLETE, a HELD and a RUNNING lot that take a FAMILY entry. -/
theorem witness_FamilyPlaced :
    let s (l : Lot) (x : Cell) := floor x (some l)
    let busy := s (heldLot .running []) (runCell .running run)
    (s lot (idleCell .idle)).noticesGo ∧ (s lot (idleCell .idle)).plantRoom 1 ∧ (busy.CellsFit ∧ busy.reg? 21 = some reg21 ∧
      busy.floorRoom 1) ∧ (s lot (idleCell .idle)).lot? 128 = some lot ∧ lot.state = .waiting ∧
    (∀ e ∈ (heldLot .held [entry .site]).holds, e.reason ≠ .family) ∧ (busy.cell 21).stack = run :: [] ∧
    (∀ d, d < 21 → (busy.cell d).stack.head?.map Run.handle ≠ some 128) ∧ (busy.cell 21).state = .running :=
  ⟨floor_noticesGo, floor_plantRoom1, ⟨floor_busy _, floor_reg, floor_floorRoom⟩, by decide +kernel⟩

/-- A lot with a FAMILY entry alone and beside another, HELD and with its stop pending, and each target. -/
theorem witness_FamilyDropped :
    let l (target : Target) : Lot := { heldLot .held [entry .family] with target := some target }
    let s := floor (idleCell .idle) (some (l .advance))
    s.lot? 128 = some (l .advance) ∧ ((l .advance).holds.filter fun e => e.reason != .family) = [] ∧
    ([entry .family, entry .site].filter fun e => e.reason != .family) ≠ [] ∧ (l .advance).step + 1 < s.stepCount (l .advance).route ∧
    s.stepCount (finished 5 true []).route ≤ (finished 5 true []).step + 1 ∧ (heldLot .running [entry .family]).state ≠ .held := by
  decide +kernel

theorem witness_GroupRequestsMoveGroup :
    let s := floor (idleCell .idle) (some lot)
    (s.accepts (req [0, 9, 8] 0 0) 9 (bytes [8]) ∧ s.passTaken ∧ s.plantRoom 1) ∧ readGroupArg (bytes [8]) = some 8 ∧
    readGroupArg (bytes [31]) = some 31 ∧ readGroupArg (bytes [32]) = some 32 ∧ (s.group 31).state = .unbound ∧
    (s.group 8).state = .opened ∧ ((inGroup s .held true).group 8).state = .held ∧
    ((inGroup s .retired false).group 8).state = .retired :=
  ⟨⟨floor_accepts rfl (by decide +kernel), rfl, floor_plantRoom1⟩, by decide +kernel⟩

theorem witness_QueriesAnswerFromState :
    let s := floor (idleCell .idle) (some lot)
    (s.accepts (req [0, 9, 0, 0] 128 1) 9 (bytes [0, 0]) ∧ s.namesLot (req [0, 9, 0, 0] 128 1) lot ∧ s.passTaken ∧ s.plantRoom 1) ∧
    readQuery (bytes [0, 0]) = some (.lot 0) ∧ readQuery (bytes [1, 47]) = some (.cell 47) ∧
    readQuery (bytes [1, 48]) = some (.cell 48) ∧ readQuery (bytes [2, 1, 0]) = some (.queue 256) ∧
    readQuery (bytes [3, 0, 4, 0, 64]) = some (.ship 4 64) ∧ readQuery (bytes [4, 1]) = some (.counters true) ∧
    readQuery (bytes [5]) = some .part ∧
    (withWork s [readOp, writeOp 2]).scn.work = [readOp] ++ writeOp 2 :: [] ∧ (∀ op ∈ [readOp], op.isWrite = false) :=
  ⟨⟨floor_accepts rfl (by decide +kernel), floor_namesReq, rfl, floor_plantRoom1⟩, by decide +kernel⟩

end Sys2Proof.Tests
end

section
/-! The checks of a LOT_ORDER in their order, and what an order that passes them leaves in its slot (R12, R13). -/

namespace Sys2Proof.Machine

variable {s : State}

/-! ### A request that is taken, and its REPLY -/

/-- A step that starts no dispatch pass has none to take (R67). -/
theorem State.settle_of_passTaken (h : s.passTaken) : s.settle = s := by
  simp only [State.passTaken] at h
  simp [State.settle, h]

/-- A request that passes the management check reaches its owner, and the pass it starts follows (R168, R172). -/
theorem request_of_accepts {m : Msg} {tag : Nat} {rest : List Byte} (ha : s.accepts m tag rest) (kind : Code16)
    (take : ReqRef → List Byte → State → State) :
    request kind m take s = .next (take (reqRef m tag) rest s).settle := by
  obtain ⟨⟨hreset, hmode⟩, hsource, htag⟩ := ha
  have hmanager : s.isManager m = true := by simpa [State.isManager] using hsource
  simp [request, arrival, hreset, State.manage, State.isStarting, hmode, hmanager, htag, done]

/-- While the plant-bound queue has room a REPLY joins it and changes nothing else (R170, R173). -/
theorem State.reply_of_plantRoom (hroom : s.plantRoom 1) (kind : Code16) (m : Msg) (tag : Nat) (code : ReplyCode)
    (body : ReplyBody) : s.reply kind (reqRef m tag) code body = s.answers kind m tag code body := by
  have hlen : s.pcl.plantQ.length < queueCapacity := hroom
  simp [State.reply, State.replyAs, State.enqueue, hlen, State.answers, State.sendsPlant, State.replyFrame, reqRef]

/-! ### The six checks -/

/-- Check 4 by the tables: the route is filled, and so is every entry its steps name. -/
theorem State.routeOrderable_iff (r : Nat) : s.routeOrderable r = true ↔ ∃ x, s.route? r = some x ∧
    ∀ y ∈ x.steps, (s.program? y.program).isSome ∧ (s.binMap? y.binMap).isSome ∧ (s.profile? y.profile).isSome := by
  cases hroute : s.route? r with
  | none => simp [State.routeOrderable, hroute]
  | some x => simp [State.routeOrderable, hroute, and_assoc]

theorem mem_groupHandles (g h : Nat) : h ∈ groupHandles g ↔ groupOf h = g := by
  simp only [groupHandles, groupOf, List.mem_map, List.mem_range]
  constructor
  · rintro ⟨i, hi, rfl⟩
    omega
  · rintro rfl
    exact ⟨h % 16, by omega, by omega⟩

/-- Check 6 by the slots: no handle is found exactly when every slot of the group is live. -/
theorem State.freeHandle_eq_none_iff (g : Nat) :
    s.freeHandle g = none ↔ ∀ h, groupOf h = g → (s.lot? h).isSome := by
  simp [State.freeHandle, mem_groupHandles, Option.isSome_iff_ne_none]

/-- The handle found is one of the group's, with a FREE slot. -/
theorem State.freeHandle_spec {g h : Nat} (hf : s.freeHandle g = some h) : groupOf h = g ∧ s.lot? h = none :=
  ⟨(mem_groupHandles g h).1 (List.mem_of_find?_eq_some hf), by simpa using List.find?_some hf⟩

/-- `UNKNOWN_GROUP` (check 2). -/
def State.orderUnknown (s : State) (b : OrderBody) : Prop := 31 < b.group ∨ (s.group b.group).state = .unbound

/-- `GROUP_RETIRED` (check 3). -/
def State.orderRetired (s : State) (b : OrderBody) : Prop :=
  (s.group b.group).state = .retired ∨ ((s.group b.group).state = .held ∧ (s.group b.group).retirePending = true)

/-- `BAD_QUANTITY` (check 5). -/
def OrderBody.badQuantity (b : OrderBody) : Prop := b.qty = 0 ∨ maxQuantity < b.qty

section Checks

variable {b : OrderBody}

theorem State.orderCheck_safe (hsafe : s.tbs.mode = .safe) : s.orderCheck b = (.safeMode, 0) := if_pos hsafe

variable (hmode : s.tbs.mode ≠ .safe)
include hmode

theorem State.orderCheck_unknown (hu : s.orderUnknown b) : s.orderCheck b = (.unknownGroup, 0) :=
  (if_neg hmode).trans (if_pos hu)

variable (hknown : ¬s.orderUnknown b)
include hknown

theorem State.orderCheck_retired (hr : s.orderRetired b) : s.orderCheck b = (.groupRetired, 0) :=
  (if_neg hmode).trans ((if_neg hknown).trans (if_pos hr))

variable (hunretired : ¬s.orderRetired b)
include hunretired

theorem State.orderCheck_badRoute (hx : s.routeOrderable b.route = false) : s.orderCheck b = (.badRoute, 0) :=
  (if_neg hmode).trans ((if_neg hknown).trans ((if_neg hunretired).trans (if_pos (by simp [hx]))))

variable (hroute : s.routeOrderable b.route = true)
include hroute

theorem State.orderCheck_badQuantity (hq : b.badQuantity) : s.orderCheck b = (.badQuantity, 0) :=
  (if_neg hmode).trans ((if_neg hknown).trans ((if_neg hunretired).trans ((if_neg (by simp [hroute])).trans (if_pos hq))))

variable (hqty : ¬b.badQuantity)
include hqty

/-- An order that passes the first five checks is left to the search for a FREE slot. -/
theorem State.orderCheck_of_qty : s.orderCheck b = (s.freeHandle b.group).elim (.groupFull, 0) fun h => (.ok, h) := by
  refine (if_neg hmode).trans ((if_neg hknown).trans ((if_neg hunretired).trans ((if_neg (by simp [hroute])).trans
    ((if_neg hqty).trans ?_))))
  cases s.freeHandle b.group <;> rfl

end Checks

/-! ### What the checks decide -/

/-- A failed check is answered with its code and nothing else happens (R12). -/
theorem exec_lotOrder_refused {m : Msg} {tag : Nat} {rest : List Byte} {b : OrderBody} {code : ReplyCode}
    (ha : s.accepts m tag rest) (hb : readLotOrder rest = some b) (hpass : s.passTaken) (hroom : s.plantRoom 1)
    (hc : s.orderCheck b = (code, 0)) (hne : code ≠ .ok) :
    exec (.lotOrder m) s = .next (s.answers Kind.lotOrder m tag code .empty) := by
  have htake : takeLotOrder (reqRef m tag) rest s = s.answers Kind.lotOrder m tag code .empty := by
    rw [← State.reply_of_plantRoom hroom]
    simp [takeLotOrder, hb, hc]
  calc exec (.lotOrder m) s = .next (takeLotOrder (reqRef m tag) rest s).settle := request_of_accepts ha _ _
    _ = .next (s.answers Kind.lotOrder m tag code .empty) := by
      rw [htake]
      exact congrArg _ (State.settle_of_passTaken hpass)

/-- A handle found is taken: the lot is created and the REPLY names it (R12, R13). -/
theorem exec_lotOrder_accepted {m : Msg} {tag h : Nat} {rest : List Byte} {b : OrderBody}
    (ha : s.accepts m tag rest) (hb : readLotOrder rest = some b) (hc : s.orderCheck b = (.ok, h)) :
    exec (.lotOrder m) s = .next ((s.createLot b h).reply Kind.lotOrder (reqRef m tag) .ok
      (.lotOrder h ((s.createLot b h).slot h).inst (min b.cls 3))).settle := by
  have htake : takeLotOrder (reqRef m tag) rest s = (s.createLot b h).reply Kind.lotOrder (reqRef m tag) .ok
      (.lotOrder h ((s.createLot b h).slot h).inst (min b.cls 3)) := by
    simp [takeLotOrder, hb, hc]
  rw [← htake]
  exact request_of_accepts ha _ _

/-! ### The lot of an accepted order stands in its slot -/

/-- A change of a lot leaves every slot live or FREE as it was. -/
theorem State.lot?_isSome_modLot (k h : Nat) (f : Lot → Lot) : ((s.modLot k f).lot? h).isSome = (s.lot? h).isSome := by
  simp only [State.lot?, State.slot, State.modLot, State.modSlot, vget_vmod]
  split <;> simp

/-- The slots are read from the lot directory alone. -/
theorem State.lot?_of_ldr {t : State} (hl : t.ldr = s.ldr) (h : Nat) : t.lot? h = s.lot? h := by
  simp only [State.lot?, State.slot, hl]

@[simp] theorem State.enqueue_ldr (p : Port) (f : Frame) : (s.enqueue p f).ldr = s.ldr := by
  unfold State.enqueue
  cases p <;> dsimp only <;> split <;> rfl

@[simp] theorem State.reply_ldr (k : Code16) (ref : ReqRef) (c : ReplyCode) (b : ReplyBody) :
    (s.reply k ref c b).ldr = s.ldr := State.enqueue_ldr _ _

@[simp] theorem State.notice_ldr (b : NoticeBody) : (s.notice b).ldr = s.ldr := by
  unfold State.notice
  dsimp only
  split
  · rfl
  · exact State.enqueue_ldr _ _

@[simp] theorem State.heldNotice_ldr (h : Nat) (r : HoldReason) (after : LotState) :
    (s.heldNotice h r after).ldr = s.ldr := by
  unfold State.heldNotice
  split
  · split
    · exact State.notice_ldr _
    · rfl
  · rfl

theorem State.lot?_isSome_addHold (k h : Nat) (n : NewHold) : ((s.addHold k n).lot? h).isSome = (s.lot? h).isSome := by
  unfold State.addHold
  rw [State.lot?_of_ldr (State.event_ldr _ _ _), State.lot?_isSome_modLot]

theorem State.lot?_isSome_joinQueue (k h : Nat) (new : Bool) :
    ((s.joinQueue k new).lot? h).isSome = (s.lot? h).isSome := by
  unfold State.joinQueue
  dsimp only
  split <;> exact State.lot?_isSome_modLot k h _

/-- A created lot stands in its slot, WAITING or HELD. -/
theorem State.lot?_isSome_createLot (b : OrderBody) {h : Nat} (hh : h < 512) : ((s.createLot b h).lot? h).isSome := by
  unfold State.createLot
  dsimp only
  split
  · rw [State.lot?_of_ldr (State.heldNotice_ldr _ _ _), State.lot?_isSome_addHold]
    simp [State.lot?, State.slot, State.modSlot, vget_vmod_self _ _ _ hh]
  · rw [State.lot?_isSome_joinQueue]
    simp [State.lot?, State.slot, State.modSlot, vget_vmod_self _ _ _ hh]

/-- Settles O31: a failed check gives the code of its place in the chain, and the slot found by the last one is live
after the order. -/
theorem lotOrderIsCheckedInOrder : Obligations.LotOrderIsCheckedInOrder := by
  intro m tag rest b s ha hb hpass hroom g unknown retired badRoute badQuantity full refuses
  have refused {code : ReplyCode} (hc : s.orderCheck b = (code, 0)) (hne : code ≠ .ok) : refuses code :=
    exec_lotOrder_refused ha hb hpass hroom hc hne
  have orderable (hx : ¬badRoute) : s.routeOrderable b.route = true :=
    (State.routeOrderable_iff b.route).2 (not_not.1 hx)
  refine ⟨?safe, ?unknown, ?retired, ?route, ?quantity, ?full, ?accepted⟩
  case safe => exact fun hsafe => refused (State.orderCheck_safe hsafe) nofun
  case unknown => exact fun hm hu => refused (State.orderCheck_unknown hm hu) nofun
  case retired => exact fun hm hu hr => refused (State.orderCheck_retired hm hu hr) nofun
  case route =>
    intro hm hu hr hx
    have hx' : s.routeOrderable b.route = false := by
      simpa only [Bool.not_eq_true] using (State.routeOrderable_iff b.route).not.2 hx
    exact refused (State.orderCheck_badRoute hm hu hr hx') nofun
  case quantity => exact fun hm hu hr hx hq => refused (State.orderCheck_badQuantity hm hu hr (orderable hx) hq) nofun
  case full =>
    intro hm hu hr hx hq hf
    have hnone := (State.freeHandle_eq_none_iff b.group).2 hf
    exact refused ((State.orderCheck_of_qty hm hu hr (orderable hx) hq).trans (by rw [hnone]; rfl)) nofun
  case accepted =>
    intro hm hu hr hx hq hf
    obtain ⟨h, hfree⟩ := Option.ne_none_iff_exists'.1 (mt (State.freeHandle_eq_none_iff b.group).1 hf)
    obtain ⟨hgroup, hslot⟩ := State.freeHandle_spec hfree
    have hc : s.orderCheck b = (.ok, h) := by
      rw [State.orderCheck_of_qty hm hu hr (orderable hx) hq, hfree]
      rfl
    have hrange : h < 512 := by
      have hgroups : b.group ≤ 31 := not_lt.1 fun hlt => hu (.inl hlt)
      simp only [groupOf] at hgroup
      omega
    refine ⟨h, _, hgroup, hslot, exec_lotOrder_accepted ha hb hc, ?_⟩
    rw [State.lot?_of_ldr (State.reply_ldr _ _ _ _)]
    exact State.lot?_isSome_createLot b hrange

end Sys2Proof.Machine
end

section
/-! The setup mismatches of a cell as the spec words them, and the score of a pair they give (R66, R70). -/

namespace Sys2Proof.Machine

/-! ### The three mismatches -/

theorem loadMismatch_iff (c : Cell) (p : ProgVals) :
    loadMismatch c p = true ↔ ¬∃ w, c.loaded = some w ∧ w.number = p.number ∧ w.rev = p.rev := by
  unfold loadMismatch
  cases c.loaded with
  | none => simp
  | some w => simp [imp_iff_not_or]

theorem kitMismatch_iff (c : Cell) (kit : Nat) : kitMismatch c kit = true ↔ c.kit ≠ some kit :=
  bne_iff_ne

theorem soakMismatch_iff (c : Cell) (t : Temp) :
    soakMismatch c t = true ↔ ¬(c.setpoint = some t ∧ c.atSetpoint = true) := by
  simp [soakMismatch, imp_iff_not_or]

/-! ### The score -/

/-- A deduction made exactly when what the step needs does not stand at the cell is the one a mismatch judged as a `Bool`
gives. -/
theorem deduction_eq_ite {mismatch : Bool} {matched : Prop} {deduction full : Nat} (hm : mismatch = true ↔ ¬matched)
    (hd : (deduction = full ∧ ¬matched) ∨ (deduction = 0 ∧ matched)) :
    deduction = if mismatch then full else 0 := by
  obtain ⟨rfl, hnot⟩ | ⟨rfl, hmatched⟩ := hd
  · exact (if_pos (hm.2 hnot)).symm
  · exact (if_neg fun h => hm.1 h hmatched).symm

/-- A score lies in 0 to 1,000 (R66). -/
theorem scoreOf_le (c : Cell) (sites : Nat) (p : ProgVals) (kit : Nat) (t : Temp) : scoreOf c sites p kit t ≤ 1000 :=
  Nat.sub_le _ _

/-- Settles O24: each of the three deductions is the one its mismatch gives, and the deduction for the sites is the
same. -/
theorem scoreCountsMismatches : Obligations.ScoreCountsMismatches := by
  intro x sites v kit t load other soak hload hother hsoak
  refine ⟨?_, scoreOf_le x sites v kit t⟩
  have hload' := deduction_eq_ite (loadMismatch_iff x v) hload
  have hother' := deduction_eq_ite (kitMismatch_iff x kit) hother
  have hsoak' := deduction_eq_ite (soakMismatch_iff x t) hsoak
  rw [hload', hother', hsoak', scoreOf]

end Sys2Proof.Machine
end

section
/-! What an event makes of a floor counter, by the counter's entry: the condition as the spec words it and one equation for
each of its outcomes (R198). -/

namespace Sys2Proof.Machine

/-! ### The condition of a counter -/

theorem meets_iff (c : CounterCfg) (v : Nat) :
    meets c v = true ↔ (c.invert = false ∧ c.threshold ≤ v) ∨ (c.invert = true ∧ v < c.threshold) := by
  unfold meets
  cases c.invert with
  | false => simp
  | true => simp

/-! ### One counter's value after an event -/

section Counted

variable {cfg : CounterCfg} {e : EventSource} {v : Nat} (n : Nat)

@[simp] theorem counted_none : counted none e v n = n := rfl

theorem counted_of_source_ne (hs : cfg.source ≠ .event e) : counted (some cfg) e v n = n :=
  if_neg fun h => hs h.1

theorem counted_of_meets (hs : cfg.source = .event e) (hm : meets cfg v = true) :
    counted (some cfg) e v n = min 4294967295 (n + 1) :=
  if_pos ⟨hs, hm⟩

theorem counted_of_not_meets (hm : ¬meets cfg v = true) : counted (some cfg) e v n = n :=
  if_neg fun h => hm h.2

end Counted

/-! ### The counters after an event -/

theorem State.event_value (s : State) (e : EventSource) (v : Nat) {i : Nat} (hi : i < 8) :
    vget (s.event e v).fcn.values 0 i = counted (vget s.tst.counters none i) e v (vget s.fcn.values 0 i) :=
  vget_ofFn _ 0 hi

@[simp] theorem State.event_last (s : State) (e : EventSource) (v : Nat) : (s.event e v).fcn.last = s.fcn.last := rfl

/-- Settles O28: by the entry of the counter, which is empty, names another source, or names the event's source and has
its condition met or not. -/
theorem eventsCountInMatchingCounters : Obligations.EventsCountInMatchingCounters := by
  intro s e v i hi
  rw [State.event_value s e v hi]
  refine ⟨?empty, ?otherSource, ?ownSource, State.event_last s e v, rfl⟩
  case empty =>
    intro hc
    rw [hc, counted_none]
  case otherSource =>
    intro cfg hc hs
    rw [hc, counted_of_source_ne _ hs]
  case ownSource =>
    intro cfg hc hs
    rw [hc, ← meets_iff]
    exact ⟨counted_of_meets _ hs, counted_of_not_meets _⟩

end Sys2Proof.Machine
end

section
/-! What one command can do: the effects a command has before the dispatch pass it starts, and the next states `exec`
answers.
A statement about every step is proved by cases on these. -/

namespace Sys2Proof.Machine

/-- The effect of a command before the dispatch pass it starts is taken: of a frame, by the port and kind that route it, of a
request by its owner, and of the events of the store and the inhibit line. -/
inductive Effect (s : State) : State → Prop
  | forwarded (kind : Code16) (m : Msg) : Effect s (s.forward kind m m.body)
  | status (kind : Code16) (m : Msg) : Effect s ((s.takeStatus m).forward kind m m.body)
  | loadDone (kind : Code16) (m : Msg) : Effect s ((s.takeLoadDone m).forward kind m m.body)
  | runStarted (kind : Code16) (m : Msg) : Effect s ((s.takeRunStarted m).forward kind m m.body)
  | passEnd (kind : Code16) (m : Msg) : Effect s ((s.takePassEnd m).forward kind m m.body)
  | runStopped (kind : Code16) (m : Msg) : Effect s ((s.takeRunStopped m).forward kind m m.body)
  | bin (m : Msg) : Effect s (s.takeBin m)
  | binCompact (m : Msg) : Effect s (s.takeCompact m)
  | forwardOnly (kind : Code16) (m : Msg) : Effect s (s.forwardOnly kind m)
  | toCell (kind : Code16) (m : Msg) : Effect s (s.toCell kind m)
  | misdirect : Effect s s.misdirect
  | malformed (port : Port) : Effect s (s.countMalformed port)
  | passedThrough (port : Port) (f : RawFrame) : Effect s (s.passThrough port f)
  | startupDrop : Effect s s.countStartupDrop
  | notManager : Effect s s.countNotManager
  | replied (kind : Code16) (ref : ReqRef) : Effect s (s.reply kind ref .malformed .empty)
  | lotOrder (ref : ReqRef) (rest : List Byte) : Effect s (takeLotOrder ref rest s)
  | sweep (ref : ReqRef) (rest : List Byte) : Effect s (takeSweep ref rest s)
  | tableWrite (ref : ReqRef) (rest : List Byte) : Effect s (takeTableWrite ref rest s)
  | tableRead (ref : ReqRef) (rest : List Byte) : Effect s (takeTableRead ref rest s)
  | hold (ref : ReqRef) (rest : List Byte) : Effect s (takeHold ref rest s)
  | release (ref : ReqRef) (rest : List Byte) : Effect s (takeRelease ref rest s)
  | groupHold (ref : ReqRef) (rest : List Byte) : Effect s (takeGroupHold ref rest s)
  | groupRelease (ref : ReqRef) (rest : List Byte) : Effect s (takeGroupRelease ref rest s)
  | groupRetire (ref : ReqRef) (rest : List Byte) : Effect s (takeGroupRetire ref rest s)
  | shipConfirm (ref : ReqRef) (rest : List Byte) : Effect s (takeShipConfirm ref rest s)
  | query (ref : ReqRef) (rest : List Byte) : Effect s (takeQuery ref rest s)
  | time (ref : ReqRef) (rest : List Byte) : Effect s (takeTime ref rest s)
  | restart (ref : ReqRef) (rest : List Byte) : Effect s (takeRestart ref rest s)
  | readEnd : Effect s s.endRead
  | phaseEnd : Effect s s.endPhase
  | writeEnd (agrees : Bool) : Effect s (s.completeWrite agrees)
  | loaded (cause : Option BadCause) : Effect s (s.startUp cause)
  | reread (ref : ReqRef) (cause : Option BadCause) : Effect s (s.reread ref cause)
  | noAnswer : Effect s s.noAnswer
  | line (level : Level) : Effect s (({ s with tbs := { s.tbs with inhibitIn := level } } : State).judgeLine)

/-- The next state of one command. -/
inductive Next (s : State) : State → Prop
  | stays : Next s s
  | settles {u : State} (h : Effect s u) : Next s u.settle
  | hardReset (image : Image) (free : Nat) : Next s (State.hardReset s.pending image free s.pcl.floorLink s.pcl.plantLink
      s.tbs.inhibitIn)
  | resetRelease : Next s { s with
      tbs := { s.tbs with resetIn := false, mode := .starting, ready := false }
      scn := { s.scn with loading := .startUp, flashLeft := some flashAnswer } }
  | second (sampling : Sampling) : Next s (s.second sampling)
  | timeout (c : Fin 48) (t : CellTimer) : Next s (s.takeTimeout c.val t)
  | inhibitIn (level : Level) : Next s { s with tbs := { s.tbs with inhibitIn := level } }
  | floorLink (up : Bool) : Next s { s with pcl := { s.pcl with floorLink := up } }
  | plantLink (up : Bool) : Next s { s with pcl := { s.pcl with plantLink := up } }
  | sendFloor : Next s s.sendFloor
  | sendPlant : Next s s.sendPlant

/-- The outcome is a next state of the command. -/
def Answers (s : State) (o : Host.Outcome State Fault Refusal) : Prop := ∃ t, o = .next t ∧ Next s t

variable {s : State}

theorem Answers.of_effect {u : State} (h : Effect s u) : Answers s (done u) := ⟨_, rfl, .settles h⟩

theorem answers_arrival {take : State → State} (h : Effect s (take s)) : Answers s (arrival s take) := by
  unfold arrival
  split
  · exact ⟨_, rfl, .stays⟩
  · exact .of_effect h

theorem answers_fromCell {kind : Code16} {m : Msg} {take : State → State} (h : Effect s ((take s).forward kind m m.body)) :
    Answers s (fromCell kind m take s) := by
  refine answers_arrival ?_
  split
  · exact .forwarded kind m
  · exact h

theorem answers_binFrame {kind : Code16} {m : Msg} {take : State → State} (h : Effect s (take s)) :
    Answers s (binFrame kind m take s) := by
  refine answers_arrival ?_
  split
  · exact .forwarded kind m
  · exact h

theorem answers_request {kind : Code16} {m : Msg} {take : ReqRef → List Byte → State → State}
    (h : ∀ ref rest, Effect s (take ref rest s)) : Answers s (request kind m take s) := by
  refine answers_arrival ?_
  unfold State.manage
  split
  · exact .startupDrop
  · split
    · exact .notManager
    · split
      · exact h _ _
      · exact .replied _ _

theorem effect_ite {p : Prop} [Decidable p] {f g : ReqRef → List Byte → State → State} {ref : ReqRef} {rest : List Byte}
    (hf : Effect s (f ref rest s)) (hg : Effect s (g ref rest s)) : Effect s ((if p then f else g) ref rest s) := by
  split
  · exact hf
  · exact hg

/-- Each request kind has its owner, and any other kind is answered MALFORMED (R172). -/
theorem effect_owner (kind : Code16) (ref : ReqRef) (rest : List Byte) : Effect s (ownerOf kind ref rest s) :=
  effect_ite (.lotOrder _ _) <| effect_ite (.sweep _ _) <| effect_ite (.tableWrite _ _) <| effect_ite (.tableRead _ _) <|
    effect_ite (.hold _ _) <| effect_ite (.release _ _) <| effect_ite (.groupHold _ _) <| effect_ite (.groupRelease _ _) <|
    effect_ite (.groupRetire _ _) <| effect_ite (.shipConfirm _ _) <| effect_ite (.query _ _) <| effect_ite (.time _ _) <|
    effect_ite (.restart _ _) (.replied _ _)

theorem answers_routePlant (kind : Code16) (m : Msg) : Answers s (routePlant kind m s) := by
  unfold routePlant
  split
  · exact answers_request (effect_owner kind)
  · exact answers_arrival (.toCell kind m)
  · exact answers_arrival .misdirect

theorem answers_routeFloor (kind : Code16) (m : Msg) : Answers s (routeFloor kind m s) := by
  unfold routeFloor
  split_ifs
  exacts [answers_fromCell (take := (State.takeStatus · m)) (.status _ _),
    answers_fromCell (take := (State.takeLoadDone · m)) (.loadDone _ _),
    answers_fromCell (take := (State.takeRunStarted · m)) (.runStarted _ _),
    answers_fromCell (take := (State.takePassEnd · m)) (.passEnd _ _),
    answers_fromCell (take := (State.takeRunStopped · m)) (.runStopped _ _),
    answers_binFrame (take := (State.takeBin · m)) (.bin _),
    answers_binFrame (take := (State.takeCompact · m)) (.binCompact _), answers_arrival (.forwardOnly _ _)]

theorem answers_routeFrame (port : Port) (f : RawFrame) : Answers s (routeFrame port f s) := by
  cases port with
  | floor => exact answers_routeFloor _ _
  | plant => exact answers_routePlant _ _

theorem answers_foreignFrame (port : Port) (f : RawFrame) : Answers s (execForeignFrame port f s) := by
  unfold execForeignFrame
  split_ifs
  exacts [answers_routeFrame port f, answers_arrival (.malformed port), answers_arrival (.passedThrough port f)]

theorem answers_headerUnreadable (port : Port) (f : RawFrame) : Answers s (execHeaderUnreadable port f s) := by
  unfold execHeaderUnreadable
  split_ifs
  exacts [answers_arrival (.malformed port), answers_routeFrame port f, answers_arrival (.passedThrough port f)]

theorem answers_floorForwardOnly (kind : Code16) (m : Msg) : Answers s (execFloorForwardOnly kind m s) := by
  unfold execFloorForwardOnly
  split
  · exact answers_routeFloor kind m
  · exact answers_arrival (.forwardOnly kind m)

theorem answers_plantFrameToCell (kind : Code16) (m : Msg) : Answers s (execPlantFrameToCell kind m s) := by
  unfold execPlantFrameToCell
  split
  · exact answers_arrival (.toCell kind m)
  · exact answers_routePlant kind m

theorem answers_plantFrameToPlant (kind : Code16) (m : Msg) : Answers s (execPlantFrameToPlant kind m s) := by
  unfold execPlantFrameToPlant
  split
  · exact answers_arrival .misdirect
  · exact answers_routePlant kind m

theorem answers_nonRequestToPart (kind : Code16) (m : Msg) : Answers s (execNonRequestToPart kind m s) := by
  unfold execNonRequestToPart
  split
  · exact answers_request (fun ref _ => .replied kind ref)
  · exact answers_routePlant kind m

theorem answers_imageLoadComplete : Answers s (execImageLoadComplete s) := by
  unfold execImageLoadComplete
  split
  · exact .of_effect (.loaded _)
  · exact ⟨_, rfl, .stays⟩
  · exact ⟨_, rfl, .stays⟩

theorem answers_imageRereadComplete : Answers s (execImageRereadComplete s) := by
  unfold execImageRereadComplete
  split
  · exact .of_effect (.reread _ _)
  · exact ⟨_, rfl, .stays⟩
  · exact ⟨_, rfl, .stays⟩

theorem answers_flashTimeout : Answers s (execFlashTimeout s) := by
  unfold execFlashTimeout
  split
  · exact .of_effect .noAnswer
  · exact ⟨_, rfl, .stays⟩

theorem answers_resetRelease : Answers s (execResetRelease s) := by
  unfold execResetRelease
  split
  · exact ⟨_, rfl, .resetRelease⟩
  · exact ⟨_, rfl, .stays⟩

theorem answers_secondEvent (sampling : Sampling) : Answers s (execSecondEvent sampling s) := by
  unfold execSecondEvent
  split
  · exact ⟨_, rfl, .stays⟩
  · exact ⟨_, rfl, .second _⟩

theorem answers_inhibitChange (level : Level) : Answers s (execInhibitChange level s) := by
  unfold execInhibitChange
  dsimp only
  split
  · exact .of_effect (.line level)
  · exact ⟨_, rfl, .inhibitIn level⟩

theorem answers_portLinkChange (port : Port) (up : Bool) : Answers s (execPortLinkChange port up s) := by
  cases port with
  | floor => exact ⟨_, rfl, .floorLink up⟩
  | plant => exact ⟨_, rfl, .plantLink up⟩

theorem answers_queueSend (port : Port) : Answers s (execQueueSend port s) := by
  unfold execQueueSend
  split
  · exact ⟨_, rfl, .stays⟩
  · cases port with
    | floor => exact ⟨_, rfl, .sendFloor⟩
    | plant => exact ⟨_, rfl, .sendPlant⟩

/-- Every command answers a next state. -/
theorem answers_exec (i : Instr) : Answers s (exec i s) := by
  cases i with
  | hardReset => exact ⟨_, rfl, .hardReset _ _⟩
  | resetRelease => exact answers_resetRelease
  | imageLoadComplete => exact answers_imageLoadComplete
  | flashTimeout => exact answers_flashTimeout
  | secondEvent sampling => exact answers_secondEvent sampling
  | silenceTimeout c => exact ⟨_, rfl, .timeout c _⟩
  | loadTimeout c => exact ⟨_, rfl, .timeout c _⟩
  | kitTimeout c => exact ⟨_, rfl, .timeout c _⟩
  | soakTimeout c => exact ⟨_, rfl, .timeout c _⟩
  | startTimeout c => exact ⟨_, rfl, .timeout c _⟩
  | stopTimeout c => exact ⟨_, rfl, .timeout c _⟩
  | jamTimeout c => exact ⟨_, rfl, .timeout c _⟩
  | inhibitChange level => exact answers_inhibitChange level
  | portLinkChange port up => exact answers_portLinkChange port up
  | queueSend port => exact answers_queueSend port
  | foreignFrame port f => exact answers_foreignFrame port f
  | headerUnreadable port f => exact answers_headerUnreadable port f
  | floorForwardOnly kind m => exact answers_floorForwardOnly kind m
  | plantFrameToCell kind m => exact answers_plantFrameToCell kind m
  | plantFrameToPlant kind m => exact answers_plantFrameToPlant kind m
  | nonRequestToPart kind m => exact answers_nonRequestToPart kind m
  | status m => exact answers_fromCell (take := (State.takeStatus · m)) (.status _ m)
  | loadDone m => exact answers_fromCell (take := (State.takeLoadDone · m)) (.loadDone _ m)
  | runStarted m => exact answers_fromCell (take := (State.takeRunStarted · m)) (.runStarted _ m)
  | passEnd m => exact answers_fromCell (take := (State.takePassEnd · m)) (.passEnd _ m)
  | runStopped m => exact answers_fromCell (take := (State.takeRunStopped · m)) (.runStopped _ m)
  | bin m => exact answers_binFrame (take := (State.takeBin · m)) (.bin m)
  | binCompact m => exact answers_binFrame (take := (State.takeCompact · m)) (.binCompact m)
  | storePhaseEnd => exact .of_effect .phaseEnd
  | storedWriteComplete agrees => exact .of_effect (.writeEnd agrees)
  | storedReadComplete => exact .of_effect .readEnd
  | lotOrder m => exact answers_request .lotOrder
  | sweep m => exact answers_request .sweep
  | tableWriteActive m => exact answers_request .tableWrite
  | tableWriteStored m => exact answers_request .tableWrite
  | tableReadActive m => exact answers_request .tableRead
  | tableReadStored m => exact answers_request .tableRead
  | hold m => exact answers_request .hold
  | releaseContinue m => exact answers_request .release
  | releaseRework m => exact answers_request .release
  | releaseScrap m => exact answers_request .release
  | groupHold m => exact answers_request .groupHold
  | groupRelease m => exact answers_request .groupRelease
  | groupRetire m => exact answers_request .groupRetire
  | shipConfirm m => exact answers_request .shipConfirm
  | queryLot m => exact answers_request .query
  | queryCell m => exact answers_request .query
  | queryQueue m => exact answers_request .query
  | queryShip m => exact answers_request .query
  | queryCounters m => exact answers_request .query
  | queryPart m => exact answers_request .query
  | time m => exact answers_request .time
  | restart m => exact answers_request .restart
  | imageRereadComplete => exact answers_imageRereadComplete

/-- What holds of the state with its command queue shortened and of every next state of one command holds after a step. -/
theorem step_induction {P : State → Prop} (hpending : ∀ s rest, P s → P { s with pending := rest })
    (hnext : ∀ s t, P s → Next s t → P t) {s t : State} (h : P s) (hstep : step s = .next t) : P t := by
  unfold step at hstep
  split at hstep
  · cases hstep; exact h
  · obtain ⟨u, hu, hn⟩ := answers_exec (s := { s with pending := _ }) _
    cases hu.symm.trans hstep
    exact hnext _ _ (hpending _ _ h) hn

/-- Settles O1: the command at the front of the queue is the one `step` takes. -/
theorem stepTakesFrontCommand : Obligations.StepTakesFrontCommand := fun _ _ _ => rfl

/-- Settles O2: by cases on the command, every branch of its meaning answers a next state. -/
theorem everyCommandIsTaken : Obligations.EveryCommandIsTaken := fun i s =>
  let ⟨t, ht, _⟩ := answers_exec (s := s) i
  ⟨t, ht⟩

end Sys2Proof.Machine
end

section
/-! The capacities and the use counts over every step (R9, R15, R156, R170, R181, R185, R188), from what `Keeps` says of the
shared operations. -/

namespace Sys2Proof.Machine

/-- From `s` to `t` no capacity is exceeded and no use count goes wrong that was right before. -/
structure Sound (s t : State) : Prop where
  fits : s.Fits → t.Fits
  uses : s.useCountsFit → t.useCountsFit

variable {s t u : State}

namespace Sound

theorem refl (s : State) : Sound s s := ⟨id, id⟩

theorem trans (h : Sound s t) (k : Sound t u) : Sound s u := ⟨fun x => k.fits (h.fits x), fun x => k.uses (h.uses x)⟩

/-- What the shared operations keep is sound. -/
theorem of_keeps (h : Keeps s t) : Sound s t where
  fits := fun ⟨hq, hs, hn, hship, hw, hr⟩ => ⟨h.queues hq, h.sequence hs, h.numbers hn, h.ship hship,
    by simpa only [State.workFits, h.scn] using hw, by simpa only [State.readyFollows, h.tbs] using hr⟩
  uses := h.uses

/-- A change of the cells, tables, dispatch arbiter, counters, floor time and lines alone, and of the image and its check. -/
theorem of_blocks (h : (t.pcl, t.ldr, t.rlu) = (s.pcl, s.ldr, s.rlu))
    (k : (t.scn.work, t.tbs.mode, t.tbs.ready) = (s.scn.work, s.tbs.mode, s.tbs.ready)) : Sound s t := by
  simp only [Prod.mk.injEq] at h k
  obtain ⟨hpcl, hldr, hrlu⟩ := h
  obtain ⟨hwork, hmode, hready⟩ := k
  refine ⟨?_, ?_⟩ <;>
    simp only [State.Fits, State.queuesFit, State.sequenceFits, State.numbersFit, State.shipFits, State.workFits,
      State.readyFollows, State.useCountsFit, State.liveOn, State.slot, hpcl, hldr, hrlu, hwork, hmode, hready, imp_self]

/-- A new mode, with READY as it says (R185), and a store work list that fits. -/
theorem of_mode (h : (t.pcl, t.ldr, t.rlu) = (s.pcl, s.ldr, s.rlu)) (hw : s.workFits → t.workFits)
    (hr : t.readyFollows) : Sound s t := by
  simp only [Prod.mk.injEq] at h
  obtain ⟨hpcl, hldr, hrlu⟩ := h
  refine ⟨fun ⟨hq, hs, hn, hship, hwork, _⟩ => ⟨?_, ?_, ?_, ?_, hw hwork, hr⟩, ?_⟩
  · simpa only [State.queuesFit, hpcl] using hq
  · simpa only [State.sequenceFits, hpcl] using hs
  · simpa only [State.numbersFit, State.slot, hldr] using hn
  · simpa only [State.shipFits, hrlu] using hship
  · simp only [State.useCountsFit, State.liveOn, hldr, imp_self]

/-- A new store work list that fits. -/
theorem of_work (h : (t.pcl, t.ldr, t.rlu) = (s.pcl, s.ldr, s.rlu))
    (k : (t.tbs.mode, t.tbs.ready) = (s.tbs.mode, s.tbs.ready))
    (hw : s.workFits → t.workFits) : Sound s t := by
  have hready : s.readyFollows → t.readyFollows := by
    simp only [Prod.mk.injEq] at k
    simp only [State.readyFollows, k.1, k.2, imp_self]
  refine ⟨fun hs => ?_, (of_blocks (s := { s with scn := t.scn }) (t := t) h (by simpa using k)).uses⟩
  exact (of_mode (s := s) h hw (hready hs.2.2.2.2.2)).fits hs

end Sound

/-! ### Frames and counts -/

theorem Sound.enqueue (p : Port) (f : Frame) : Sound s (s.enqueue p f) := .of_keeps ((Keeps.refl s).enqueue p f)

theorem Sound.reply (k : Code16) (r : ReqRef) (c : ReplyCode) (b : ReplyBody) : Sound s (s.reply k r c b) :=
  .of_keeps ((Keeps.refl s).reply k r c b)

theorem Sound.settle (s : State) : Sound s s.settle := .of_keeps (Keeps.refl s).settle

theorem sound_forwardOnly (kind : Code16) (m : Msg) : Sound s (s.forwardOnly kind m) := by
  refine .of_keeps ?_
  unfold State.forwardOnly
  dsimp only
  split
  · exact Keeps.forward (t := { s with pcl := { s.pcl with floorNotTaken := bump s.pcl.floorNotTaken 1 } })
      ((Keeps.refl s).counts rfl rfl) _ _ _
  · exact (Keeps.refl s).forward _ _ _

theorem sound_toCell (kind : Code16) (m : Msg) : Sound s (s.toCell kind m) := by
  have hcount : Keeps s { s with pcl := { s.pcl with interlock := bump s.pcl.interlock 1 } } :=
    (Keeps.refl s).counts rfl rfl
  refine .of_keeps ?_
  unfold State.toCell
  dsimp only
  split
  · split
    · exact hcount
    · exact hcount.notice _
  · exact (Keeps.refl s).enqueue _ _

theorem sound_misdirect : Sound s s.misdirect := by
  unfold State.misdirect
  split
  · exact .refl s
  · exact .of_keeps ((Keeps.refl s).counts rfl rfl)

theorem sound_countMalformed (port : Port) : Sound s (s.countMalformed port) := by
  cases port with
  | floor => exact .of_keeps ((Keeps.refl s).counts rfl rfl)
  | plant => exact .of_keeps ((Keeps.refl s).counts rfl rfl)

/-! ### Lots -/

/-- The handle of an order that passes its checks is FREE, and its route entry is one of the 16 (R12, R13). -/
theorem orderCheck_ok {b : OrderBody} {h : Nat} (hc : s.orderCheck b = (.ok, h)) :
    s.lot? h = none ∧ h < 512 ∧ b.route < 16 := by
  simp only [State.orderCheck] at hc
  split at hc
  · cases hc
  split at hc
  · cases hc
  rename_i hgroup
  split at hc
  · cases hc
  split at hc
  · cases hc
  rename_i hroute
  split at hc
  · cases hc
  split at hc
  · cases hc
  rename_i hfree
  cases hc
  obtain ⟨hg, hl⟩ := State.freeHandle_spec hfree
  refine ⟨hl, ?_, ?_⟩
  · simp only [groupOf] at hg
    omega
  · by_contra hr
    exact hroute (by simp [State.routeOrderable, State.route?, vget_outside _ _ (Nat.le_of_not_lt hr)])

/-- A lot put in a FREE slot, and counted on its route, leaves the counts right (R15). -/
theorem keeps_newLot {k : Nat} {l : Lot} (hk : k < 512) (hr : l.route < 16) (hfree : s.lot? k = none) :
    Keeps s (({ s with ldr := { s.ldr with useCount := vmod s.ldr.useCount l.route fun n => n + 1 } } : State).modSlot k
      fun x => { x with lot := some l }) := by
  refine ⟨rfl, rfl, rfl, rfl, rfl, rfl, id, id, fun hn j hj => ?_, id, fun hu r hr' => ?_⟩
  · have hj' := hn j hj
    simp only [State.slot, State.modSlot, vget_vmod] at hj' ⊢
    split
    · exact hj'
    · exact hj'
  · have hx : (s.ldr.slots[k]).lot = none := by simpa [State.lot?, State.slot, vget, hk] using hfree
    have hcount := hu r hr'
    simp only [State.liveOn, State.modSlot] at hcount ⊢
    rw [Keeps.countP_vmod _ _ _ hk, vget_vmod, hcount, hx]
    by_cases hlr : l.route = r
    · subst hlr
      simp [hr]
    · simp [hlr]

theorem keeps_createLot {b : OrderBody} {h : Nat} (hc : s.orderCheck b = (.ok, h)) : Keeps s (s.createLot b h) := by
  obtain ⟨hfree, hh, hr⟩ := orderCheck_ok hc
  have h0 := keeps_newLot (l := s.newLot b) hh hr hfree
  unfold State.createLot
  dsimp only
  split
  · exact (h0.addHold _ _).heldNotice _ _ _
  · exact h0.joinQueue _ _

theorem sound_takeLotOrder (ref : ReqRef) (rest : List Byte) : Sound s (takeLotOrder ref rest s) := by
  unfold takeLotOrder
  split
  · exact .reply _ _ _ _
  · split
    · rename_i hc
      exact .of_keeps ((keeps_createLot hc).reply _ _ _ _)
    · exact .reply _ _ _ _

theorem sound_groupRequest {kind : Code16} {ref : ReqRef} {rest : List Byte} {take : Nat → State → State}
    (h : ∀ g, Sound s (take g s)) : Sound s (s.groupRequest kind ref rest take) := by
  unfold State.groupRequest
  split
  · exact .reply _ _ _ _
  · split
    · exact .reply _ _ _ _
    · exact h _

theorem sound_takeSweep (ref : ReqRef) (rest : List Byte) : Sound s (takeSweep ref rest s) :=
  sound_groupRequest fun _ => .of_keeps ((Keeps.foldl _ (fun _ h => h.modLot _ _) _ (Keeps.refl s)).reply _ _ _ _)

theorem sound_takeHold (ref : ReqRef) (rest : List Byte) : Sound s (takeHold ref rest s) := by
  unfold takeHold
  split
  · exact .reply _ _ _ _
  · split
    · split
      · exact .reply _ _ _ _
      · unfold State.holdReply
        split
        · exact .of_keeps ((Keeps.refl s).placeHold _ _)
        · exact .of_keeps (((Keeps.refl s).placeHold _ _).reply _ _ _ _)
    · exact .reply _ _ _ _

theorem keeps_releaseEntry (ref : ReqRef) (reason : HoldReason) (effect : Lot → Lot) (hr : ∀ l, (effect l).route = l.route) :
    Keeps s (s.releaseEntry ref reason effect) := by
  have hsent := (((Keeps.refl s).removeEntry ref.handle reason).modLotTo ref.handle (fun l => { effect l with mark := true })
    hr).leaveHold ref.handle
  unfold State.releaseEntry
  dsimp only
  unfold State.releaseReply
  split
  · exact hsent
  · exact hsent.reply _ _ _ _

@[simp] theorem continueEffect_route (e : HoldEntry) (l : Lot) : (continueEffect e l).route = l.route := by
  unfold continueEffect
  cases e.reason <;> rfl

theorem sound_dispose (ref : ReqRef) (l : Lot) (reason : HoldReason) (d : Disposition) : Sound s
    (s.dispose ref l reason d) := by
  cases d with
  | continue_ =>
    unfold State.dispose
    dsimp only
    split
    · exact .of_keeps (keeps_releaseEntry _ _ _ (continueEffect_route _))
    · exact .refl s
  | rework => exact .of_keeps (keeps_releaseEntry _ _ _ fun _ => rfl)
  | scrap =>
    have hremoved := Keeps.foldl (fun (v : State) (e : HoldEntry) => v.removeEntry ref.handle e.reason)
      (fun _ h => h.removeEntry _ _) l.holds (Keeps.refl s)
    exact .of_keeps (((hremoved.notice _).freeSlot _).reply _ _ _ _)

theorem sound_takeRelease (ref : ReqRef) (rest : List Byte) : Sound s (takeRelease ref rest s) := by
  unfold takeRelease
  split
  · exact .reply _ _ _ _
  · split
    · split
      · exact sound_dispose _ _ _ _
      · exact .reply _ _ _ _
    · exact .reply _ _ _ _

theorem sound_modGroup (g : Nat) (f : GroupEntry → GroupEntry) : Sound s (s.modGroup g f) := .of_blocks rfl rfl

theorem sound_takeGroupHold (ref : ReqRef) (rest : List Byte) : Sound s (takeGroupHold ref rest s) := by
  refine sound_groupRequest fun g => ?_
  split
  · exact .reply _ _ _ _
  · exact (sound_modGroup g _).trans
      (.of_keeps ((Keeps.foldl _ (fun _ h => h.placeHold _ _) _ (Keeps.refl _)).reply _ _ _ _))

theorem sound_takeGroupRelease (ref : ReqRef) (rest : List Byte) : Sound s (takeGroupRelease ref rest s) := by
  refine sound_groupRequest fun g => ?_
  split
  · exact .reply _ _ _ _
  · exact (sound_modGroup g _).trans
      (.of_keeps ((Keeps.foldl _ (fun _ h => (h.removeEntry _ _).leaveHold _) _ (Keeps.refl _)).reply _ _ _ _))

theorem sound_takeGroupRetire (ref : ReqRef) (rest : List Byte) : Sound s (takeGroupRetire ref rest s) :=
  sound_groupRequest fun g => (sound_modGroup g _).trans (.reply _ _ _ _)

/-- A ship queue with records taken out holds no more (R159). -/
theorem keeps_shipFilter (p : Record → Bool) :
    Keeps s { s with rlu := { s.rlu with ship := s.rlu.ship.filter p } } :=
  ⟨rfl, rfl, rfl, rfl, rfl, rfl, id, id, id, fun h => le_trans (List.length_filter_le _ _) h, id⟩

theorem sound_takeShipConfirm (ref : ReqRef) (rest : List Byte) : Sound s (takeShipConfirm ref rest s) := by
  unfold takeShipConfirm
  split
  · exact .reply _ _ _ _
  · split
    · split
      · exact .of_keeps ((Keeps.releasePending _ ((keeps_shipFilter _).freeSlot _)).reply _ _ _ _)
      · exact .reply _ _ _ _
    · exact .reply _ _ _ _

/-! ### Time, queries and tables -/

theorem sound_setTime (v : Nat) : Sound s (s.setTime v) :=
  .trans (.of_blocks (t := { s with tbs := { s.tbs with floorTime := some v } }) rfl rfl)
    (.of_keeps (Keeps.refl _).judgeLapses)

theorem sound_offerTime (v : Nat) : Sound s (s.offerTime v) := by
  unfold State.offerTime
  split
  · exact (sound_setTime v).trans (.of_keeps (Keeps.refl _).startPass)
  · split
    · exact .of_blocks rfl rfl
    · split
      · exact .refl s
      · exact sound_setTime v

theorem sound_takeTime (ref : ReqRef) (rest : List Byte) : Sound s (takeTime ref rest s) := by
  unfold takeTime
  split
  · exact .reply _ _ _ _
  · exact (sound_offerTime _).trans (.reply _ _ _ _)

theorem sound_queryCounters (ref : ReqRef) (clear : Bool) : Sound s (s.queryCounters ref clear) := by
  unfold State.queryCounters
  dsimp only
  split
  · exact .trans (.of_blocks (t := { s with fcn := { s.fcn with values := Vector.replicate 8 0 } }) rfl rfl) (.reply _ _ _ _)
  · exact .reply _ _ _ _

theorem sound_takeQuery (ref : ReqRef) (rest : List Byte) : Sound s (takeQuery ref rest s) := by
  unfold takeQuery
  split
  · exact .reply _ _ _ _
  · unfold State.queryLot
    split <;> exact .reply _ _ _ _
  · unfold State.queryCell
    split <;> exact .reply _ _ _ _
  · exact .reply _ _ _ _
  · exact .reply _ _ _ _
  · exact sound_queryCounters _ _
  · exact .reply _ _ _ _

theorem sound_judgeLine : Sound s s.judgeLine := by
  unfold State.judgeLine
  dsimp only
  split
  · exact .of_blocks rfl rfl
  · exact .of_blocks rfl rfl

theorem sound_writeSetting (entry v : Nat) : Sound s (s.writeSetting entry v) := by
  have hput : Sound s { s with tst := { s.tst with settings := s.tst.settings.put entry v } } := .of_blocks rfl rfl
  unfold State.writeSetting
  dsimp only
  split
  · exact hput.trans sound_judgeLine
  · exact hput

theorem sound_writeRegistration (entry : Nat) (new : Option Registration) : Sound s (s.writeRegistration entry new) := by
  unfold State.writeRegistration
  dsimp only
  split
  · exact .of_blocks rfl rfl
  · exact .of_blocks rfl rfl

theorem sound_writeActive (table entry : Nat) (e : Option Entry) : Sound s (s.writeActive table entry e) := by
  unfold State.writeActive
  split
  case h_1 => exact sound_writeSetting _ _
  case h_12 => exact sound_writeRegistration _ _
  case h_13 => exact sound_writeRegistration _ _
  all_goals exact .of_blocks rfl rfl

/-- A write may join a work list without one (R188). -/
theorem workFits_joinWrite {op : StoreOp} (hop : op.isWrite = true) (hnone : writeInFlight s.scn.work = false)
    (hs : s.workFits) : (s.joinWork op).workFits := by
  obtain ⟨hreads, -⟩ := hs
  simp only [writeInFlight, List.any_eq_false, Bool.not_eq_true] at hnone
  refine ⟨?_, fun x hx => ?_⟩
  · simpa [readCount, State.joinWork, hop] using hreads
  · simp only [State.joinWork, List.dropLast_concat] at hx
    exact hnone x hx

/-- A read may join a work list that holds no write and fewer than 8 reads (R188). -/
theorem workFits_joinRead {op : StoreOp} (hnone : writeInFlight s.scn.work = false)
    (hroom : readCount s.scn.work < maxReads) : (s.joinWork op).workFits := by
  simp only [writeInFlight, List.any_eq_false, Bool.not_eq_true] at hnone
  refine ⟨?_, fun x hx => ?_⟩
  · simp only [readCount, State.joinWork, List.countP_append, List.countP_singleton] at hroom ⊢
    split <;> omega
  · simp only [State.joinWork, List.dropLast_concat] at hx
    exact hnone x hx

theorem sound_takeTableWrite (ref : ReqRef) (rest : List Byte) : Sound s (takeTableWrite ref rest s) := by
  unfold takeTableWrite
  split
  · exact .reply _ _ _ _
  · split
    · split
      · unfold State.writeNow
        split
        · exact .reply _ _ _ _
        · exact (sound_writeActive _ _ _).trans (.enqueue _ _)
      · unfold State.writeLater
        split
        · exact .reply _ _ _ _
        · rename_i hfree
          exact .of_work rfl rfl (workFits_joinWrite rfl (by simpa using hfree))
    · exact .reply _ _ _ _
    · exact .reply _ _ _ _

theorem sound_takeTableRead (ref : ReqRef) (rest : List Byte) : Sound s (takeTableRead ref rest s) := by
  unfold takeTableRead
  split
  · exact .reply _ _ _ _
  · split_ifs
    · exact .reply _ _ _ _
    · exact .reply _ _ _ _
    · exact .reply _ _ _ _
    · unfold State.readLater
      split
      · exact .reply _ _ _ _
      · rename_i hbusy
        simp only [Bool.or_eq_true, decide_eq_true_eq, not_or, Bool.not_eq_true, Nat.not_le] at hbusy
        exact .of_work rfl rfl fun _ => workFits_joinRead hbusy.1 hbusy.2

/-! ### The store and the resets -/

/-- A work list without its front operation, or with the write at its front in another phase, fits (R188, R189). -/
theorem workFits_tail (hs : s.workFits) : readCount s.scn.work.tail ≤ maxReads ∧
    ∀ op ∈ s.scn.work.tail.dropLast, op.isWrite = false := by
  obtain ⟨hreads, hlast⟩ := hs
  cases hw : s.scn.work with
  | nil => simp [readCount]
  | cons op more =>
    rw [hw] at hreads hlast
    refine ⟨le_trans ?_ hreads, fun x hx => hlast x ?_⟩
    · simp [readCount, List.countP_cons]
    · cases more with
      | nil => simp at hx
      | cons op' more => exact List.mem_cons_of_mem _ hx

theorem sound_endOp : Sound s s.endOp := .of_work rfl rfl workFits_tail

theorem sound_endRead : Sound s s.endRead := by
  unfold State.endRead
  split
  · exact sound_endOp.trans (.reply _ _ _ _)
  · exact .refl s

theorem workFits_toPhase {ref ref' : ReqRef} {table entry table' entry' phase phase' : Nat} {e e' : Option Entry}
    {note note' : WriteNote} {more : List StoreOp} (hw : s.scn.work = .write ref table entry e note phase :: more)
    (hs : s.workFits) : (s.toPhase ref' table' entry' e' note' phase').workFits := by
  obtain ⟨hreads, hlast⟩ := hs
  rw [hw] at hreads hlast
  refine ⟨by simpa [State.toPhase, readCount, hw, List.countP_cons, StoreOp.isWrite] using hreads, fun x hx => ?_⟩
  simp only [State.toPhase, hw, List.tail_cons] at hx
  cases more with
  | nil => simp at hx
  | cons op more => cases hlast (.write ref table entry e note phase) (by simp)

theorem sound_endPhase : Sound s s.endPhase := by
  unfold State.endPhase
  split
  · rename_i hw
    exact .of_work rfl rfl fun hs => workFits_toPhase (s := { s with scn := { s.scn with image := _ } }) hw hs
  · rename_i hw
    exact .of_work rfl rfl fun hs => workFits_toPhase (s := { s with scn := { s.scn with image := _ } }) hw hs
  · exact .refl s

theorem sound_failWrite (ref : ReqRef) (table entry phase : Nat) : Sound s (s.failWrite ref table entry phase) :=
  .trans (t := { s.endOp with scn := { s.endOp.scn with
      image := { spoil s.scn.image table entry s.scn.freeIndex with mark := failedMark s.scn.image phase s.scn.freeIndex }
      check := .invalid
      freeIndex := s.scn.freeIndex + 1 } }) (.of_work rfl rfl workFits_tail) (.reply _ _ _ _)

theorem sound_completeWrite (agrees : Bool) : Sound s (s.completeWrite agrees) := by
  unfold State.completeWrite
  split
  · split
    · exact .trans (t := { s.endOp with scn := { s.endOp.scn with check := .valid } }) (.of_work rfl rfl workFits_tail)
        (.reply _ _ _ _)
    · exact sound_failWrite _ _ _ _
  · exact .refl s

theorem sound_leaveStarting (cause : Option BadCause) : Sound s (s.leaveStarting cause) := .of_mode rfl id rfl

theorem sound_imageBad (cause : Option BadCause) : Sound s (s.imageBad cause) := by
  cases cause with
  | none => exact .refl s
  | some cause => exact .of_keeps ((Keeps.refl s).notice _)

theorem Sound.notice (b : NoticeBody) : Sound s (s.notice b) := .of_keeps ((Keeps.refl s).notice b)

theorem sound_startUp (cause : Option BadCause) : Sound s (s.startUp cause) := by
  unfold State.startUp
  dsimp only
  refine .trans ?_ (sound_imageBad cause)
  refine .trans ?_ (.notice _)
  refine .trans ?_ (sound_leaveStarting cause)
  exact .of_blocks rfl rfl

theorem sound_reread (ref : ReqRef) (cause : Option BadCause) : Sound s (s.reread ref cause) := by
  unfold State.reread
  dsimp only
  refine .trans ?_ (sound_imageBad cause)
  refine .trans ?_ (.notice _)
  refine .trans ?_ (.reply _ _ _ _)
  refine .trans ?_ (sound_leaveStarting cause)
  cases cause with
  | none => exact .of_blocks rfl rfl
  | some _ => exact .refl s

theorem sound_noAnswer : Sound s s.noAnswer := by
  unfold State.noAnswer
  split
  · exact sound_startUp _
  · exact sound_reread _ _
  · split
    · exact sound_endOp.trans (.reply _ _ _ _)
    · exact sound_failWrite _ _ _ _
    · exact .refl s

/-- With every slot FREE and no route used the counts are right. -/
theorem useCountsFit_of_free (hfree : ∀ x ∈ s.ldr.slots.toList, x.lot = none)
    (huse : ∀ r, r < 16 → vget s.ldr.useCount 0 r = 0) : s.useCountsFit := by
  intro r hr
  rw [huse r hr, State.liveOn, eq_comm, List.countP_eq_zero]
  intro x hx
  simp [hfree x hx]

theorem sound_softReset : Sound s s.softReset := by
  refine ⟨fun ⟨_, hs, hn, _, hw, hr⟩ => ⟨⟨?_, ?_⟩, hs, fun h hh => ?_, ?_, hw, hr⟩, fun _ => useCountsFit_of_free ?_ ?_⟩
  · exact Nat.zero_le _
  · exact Nat.zero_le _
  · have hinst := Keeps.nextInst_fits (hn h hh)
    simpa [State.softReset, Ldr.softReset, State.slot, vget, hh] using hinst
  · exact Nat.zero_le _
  · simp only [State.softReset, Ldr.softReset, Vector.toList_map, List.mem_map]
    rintro x ⟨y, -, rfl⟩
    rfl
  · intro r hr
    exact vget_replicate 0 0 hr

theorem sound_takeRestart (ref : ReqRef) (rest : List Byte) : Sound s (takeRestart ref rest s) := by
  unfold takeRestart
  split
  · exact .reply _ _ _ _
  · split_ifs
    · exact .reply _ _ _ _
    · exact sound_softReset.trans (.of_mode rfl id rfl)
    · exact .trans sound_softReset (.trans (.reply _ _ _ _) (.notice _))

/-! ### Every command -/

theorem Effect.sound (h : Effect s u) : Sound s u := by
  cases h with
  | forwarded kind m => exact .enqueue _ _
  | status kind m => exact .of_keeps (((Keeps.refl s).takeStatus m).forward _ _ _)
  | loadDone kind m => exact .of_keeps (((Keeps.refl s).takeLoadDone m).forward _ _ _)
  | runStarted kind m => exact .of_keeps (((Keeps.refl s).takeRunStarted m).forward _ _ _)
  | passEnd kind m => exact .of_keeps (((Keeps.refl s).takePassEnd m).forward _ _ _)
  | runStopped kind m => exact .of_keeps (((Keeps.refl s).takeRunStopped m).forward _ _ _)
  | bin m => exact .of_keeps ((Keeps.refl s).takeBin m)
  | binCompact m => exact .of_keeps ((Keeps.refl s).takeCompact m)
  | forwardOnly kind m => exact sound_forwardOnly kind m
  | toCell kind m => exact sound_toCell kind m
  | misdirect => exact sound_misdirect
  | malformed port => exact sound_countMalformed port
  | passedThrough port f => exact .enqueue _ _
  | startupDrop => exact .of_keeps ((Keeps.refl s).counts rfl rfl)
  | notManager => exact .of_keeps ((Keeps.refl s).counts rfl rfl)
  | replied kind ref => exact .reply _ _ _ _
  | lotOrder ref rest => exact sound_takeLotOrder ref rest
  | sweep ref rest => exact sound_takeSweep ref rest
  | tableWrite ref rest => exact sound_takeTableWrite ref rest
  | tableRead ref rest => exact sound_takeTableRead ref rest
  | hold ref rest => exact sound_takeHold ref rest
  | release ref rest => exact sound_takeRelease ref rest
  | groupHold ref rest => exact sound_takeGroupHold ref rest
  | groupRelease ref rest => exact sound_takeGroupRelease ref rest
  | groupRetire ref rest => exact sound_takeGroupRetire ref rest
  | shipConfirm ref rest => exact sound_takeShipConfirm ref rest
  | query ref rest => exact sound_takeQuery ref rest
  | time ref rest => exact sound_takeTime ref rest
  | restart ref rest => exact sound_takeRestart ref rest
  | readEnd => exact sound_endRead
  | phaseEnd => exact sound_endPhase
  | writeEnd agrees => exact sound_completeWrite agrees
  | loaded cause => exact sound_startUp cause
  | reread ref cause => exact sound_reread ref cause
  | noAnswer => exact sound_noAnswer
  | line level =>
    refine .trans ?_ sound_judgeLine
    exact .of_blocks rfl rfl

theorem keeps_expired (c : Nat) (t : CellTimer) : Keeps s (s.expired c t) := by
  cases t with
  | silence => exact (Keeps.refl s).fallSilent c
  | load => exact (Keeps.refl s).setupFailure c _
  | kit => exact (Keeps.refl s).setupFailure c _
  | soak => exact (Keeps.refl s).setupFailure c _
  | start => exact (Keeps.refl s).setupFailure c _
  | stop => exact (Keeps.refl s).stopExpired c
  | jam => exact (Keeps.refl s).requestStop c _

theorem keeps_takeTimeout (c : Nat) (t : CellTimer) : Keeps s (s.takeTimeout c t) := by
  unfold State.takeTimeout
  split
  · exact (keeps_expired c t).settle
  · exact .refl s

theorem keeps_sampleAfter (taken : List (Fin 48 × CellTimer)) : Keeps s (s.sampleAfter taken) := by
  have htaken : Keeps s (taken.foldl (fun t x => t.takeTimeout x.1.val x.2) s) :=
    Keeps.foldl _ (fun _ h => h.trans (keeps_takeTimeout _ _)) taken (Keeps.refl s)
  exact htaken.trans .of_floor

theorem sound_tickTime : Sound s s.tickTime := by
  unfold State.tickTime
  split
  · exact .refl s
  · rename_i f _
    have hset : Sound s { s with tbs := { s.tbs with floorTime := some (nextTime f) } } := .of_blocks rfl rfl
    dsimp only
    split
    · exact hset
    · exact hset.trans (.of_keeps (Keeps.refl _).judgeLapses)

theorem sound_second (sampling : Sampling) : Sound s (s.second sampling) := by
  have hticked : Sound s s.tickTimers := .of_blocks rfl rfl
  unfold State.second
  dsimp only
  split
  · exact hticked.trans (.trans (.of_keeps (keeps_sampleAfter _)) (.trans sound_tickTime (.settle _)))
  · exact hticked.trans (.trans sound_tickTime (.trans (.of_keeps (keeps_sampleAfter _)) (.settle _)))
  · exact hticked.trans (.trans sound_tickTime (.trans (.settle _) (.of_keeps (keeps_sampleAfter _))))

/-- The machine after a hard reset has every capacity and every use count right. -/
theorem hardReset_fits (pending : List Instr) (image : Image) (free : Nat) (floorLink plantLink : Bool) (level : Level) :
    (State.hardReset pending image free floorLink plantLink level).Fits ∧
      (State.hardReset pending image free floorLink plantLink level).useCountsFit := by
  refine ⟨⟨⟨Nat.zero_le _, Nat.zero_le _⟩, Nat.zero_lt_succ _, fun h hh => ?_, Nat.zero_le _, ⟨Nat.zero_le _, nofun⟩, rfl⟩,
    useCountsFit_of_free (fun x hx => ?_) fun r hr => vget_replicate 0 0 hr⟩
  · simp [State.hardReset, State.slot, Ldr.reset, vget_replicate _ _ hh]
  · simp only [State.hardReset, Ldr.reset, Vector.toList_replicate, List.mem_replicate] at hx
    rw [hx.2]

theorem sound_sendFloor : Sound s s.sendFloor := by
  unfold State.sendFloor
  split
  · rename_i hq
    split
    · refine .of_keeps ⟨rfl, rfl, rfl, rfl, rfl, rfl, fun ⟨hf, hp⟩ => ⟨?_, hp⟩, id, id, id, id⟩
      rw [hq] at hf
      exact Nat.le_of_succ_le hf
    · exact .refl s
  · exact .refl s

theorem sound_sendPlant : Sound s s.sendPlant := by
  unfold State.sendPlant
  split
  · rename_i hq
    split
    · refine .of_keeps ⟨rfl, rfl, rfl, rfl, rfl, rfl, fun ⟨hf, hp⟩ => ⟨hf, ?_⟩, id, id, id, id⟩
      rw [hq] at hp
      exact Nat.le_of_succ_le hp
    · exact .refl s
  · exact .refl s

theorem Next.sound (h : Next s t) : Sound s t := by
  cases h with
  | stays => exact .refl s
  | settles h => exact h.sound.trans (.settle _)
  | hardReset image free =>
    have hreset := hardReset_fits s.pending image free s.pcl.floorLink s.pcl.plantLink s.tbs.inhibitIn
    exact ⟨fun _ => hreset.1, fun _ => hreset.2⟩
  | resetRelease => exact .of_mode rfl id rfl
  | second sampling => exact sound_second sampling
  | timeout c t => exact .of_keeps (keeps_takeTimeout c.val t)
  | inhibitIn level => exact .of_blocks rfl rfl
  | floorLink up => exact ⟨id, id⟩
  | plantLink up => exact ⟨id, id⟩
  | sendFloor => exact sound_sendFloor
  | sendPlant => exact sound_sendPlant

/-- Settles O4: what each command does is sound. -/
theorem stepKeepsCapacities : Obligations.StepKeepsCapacities := fun _ _ h hstep =>
  step_induction (fun _ _ h => h) (fun _ _ h hn => hn.sound.fits h) h hstep

/-- Settles O7: the route of a live lot changes with its creation and its end alone, which count. -/
theorem stepKeepsUseCounts : Obligations.StepKeepsUseCounts := fun _ _ h hstep =>
  step_induction (fun _ _ h => h) (fun _ _ h hn => hn.sound.uses h) h hstep

/-! ### No pass is left over -/

theorem settle_passTaken (s : State) : s.settle.passTaken := by
  unfold State.settle
  split
  · rfl
  · rename_i h
    simpa [State.passTaken] using h

theorem takeTimeout_passTaken (h : s.passTaken) (c : Nat) (t : CellTimer) : (s.takeTimeout c t).passTaken := by
  unfold State.takeTimeout
  split
  · exact settle_passTaken _
  · exact h

theorem sampleAfter_passTaken (taken : List (Fin 48 × CellTimer)) :
    ∀ {s : State}, s.passTaken → (s.sampleAfter taken).passTaken := by
  induction taken with
  | nil => exact id
  | cons x rest ih => exact fun h => ih (takeTimeout_passTaken h _ _)

theorem second_passTaken (sampling : Sampling) : (s.second sampling).passTaken := by
  unfold State.second
  dsimp only
  split
  · exact settle_passTaken _
  · exact settle_passTaken _
  · exact sampleAfter_passTaken _ (settle_passTaken _)

theorem Next.passTaken (h : Next s t) (hs : s.passTaken) : t.passTaken := by
  cases h with
  | settles h => exact settle_passTaken _
  | second sampling => exact second_passTaken sampling
  | timeout c t => exact takeTimeout_passTaken hs _ _
  | hardReset image free => rfl
  | stays => exact hs
  | resetRelease => exact hs
  | inhibitIn level => exact hs
  | floorLink up => exact hs
  | plantLink up => exact hs
  | sendFloor =>
    unfold State.sendFloor
    split
    · split <;> exact hs
    · exact hs
  | sendPlant =>
    unfold State.sendPlant
    split
    · split <;> exact hs
    · exact hs

/-- Settles O8: a pass is taken, or nothing has started one. -/
theorem stepTakesEveryPass : Obligations.StepTakesEveryPass := fun _ _ h hstep =>
  step_induction (fun _ _ h => h) (fun _ _ h hn => hn.passTaken h) h hstep

/-- Settles O3: every slot is FREE, every list empty and every cell OFFLINE. -/
theorem resetMeetsInvariants : Obligations.ResetMeetsInvariants := by
  obtain ⟨hfits, huses⟩ := hardReset_fits [] Image.blank 0 false false .low
  refine ⟨hfits, fun c hc => ?_, ⟨.nil, .nil, .nil⟩, huses, rfl⟩
  have hcell : State.reset.cell c = Cell.reset 0 := vget_replicate _ _ hc
  rw [hcell]
  simp [Cell.runsFit, Cell.fieldsFit, Cell.reset, Timers.idle]

end Sys2Proof.Machine
end

section
/-! What a frame, a notice and a hold entry leave: every block but the port and the counters, and the lots. -/

namespace Sys2Proof.Machine

set_option Elab.async false

variable (s : State)

/-- A frame offered to a queue changes the port, and the counters when it is dropped (R170). -/
theorem State.enqueue_port (p : Port) (f : Frame) : ∃ x y, s.enqueue p f = { s with pcl := x, fcn := y } := by
  unfold State.enqueue
  cases p with
  | floor =>
    dsimp only
    split
    · exact ⟨_, _, rfl⟩
    · exact ⟨_, _, rfl⟩
  | plant =>
    dsimp only
    split
    · exact ⟨_, _, rfl⟩
    · exact ⟨_, _, rfl⟩

/-- A notice changes the port, and the counters when it is dropped (R181). -/
theorem State.notice_port (b : NoticeBody) : ∃ x y, s.notice b = { s with pcl := x, fcn := y } := by
  unfold State.notice
  dsimp only
  split
  · exact ⟨_, _, rfl⟩
  · obtain ⟨x, y, h⟩ := State.enqueue_port { s with pcl := { s.pcl with noticeSeq := (s.pcl.noticeSeq + 1) % 65536 } } .plant
      ⟨s.tst.settings.mgmtAddr, Config.stationAddress, s.tst.settings.frameType,
        .notice (noticeHeader b) ⟨s.pcl.noticeSeq, s.tbs.floorTime, b⟩⟩
    exact ⟨x, y, h⟩

/-- LOT_HELD changes the port and the counters alone. -/
theorem State.heldNotice_port (h : Nat) (r : HoldReason) (a : LotState) :
    ∃ x y, s.heldNotice h r a = { s with pcl := x, fcn := y } := by
  unfold State.heldNotice
  split
  · split
    · exact State.notice_port _ _
    · exact ⟨s.pcl, s.fcn, rfl⟩
  · exact ⟨s.pcl, s.fcn, rfl⟩

/-! enqueue -/

@[simp] theorem State.enqueue_pending (p : Port) (f : Frame) : (s.enqueue p f).pending = s.pending := by
  obtain ⟨x, y, h⟩ := State.enqueue_port s p f
  exact (congrArg State.pending h).trans rfl

@[simp] theorem State.enqueue_tst (p : Port) (f : Frame) : (s.enqueue p f).tst = s.tst := by
  obtain ⟨x, y, h⟩ := State.enqueue_port s p f
  exact (congrArg State.tst h).trans rfl

@[simp] theorem State.enqueue_ctr (p : Port) (f : Frame) : (s.enqueue p f).ctr = s.ctr := by
  obtain ⟨x, y, h⟩ := State.enqueue_port s p f
  exact (congrArg State.ctr h).trans rfl

@[simp] theorem State.enqueue_dar (p : Port) (f : Frame) : (s.enqueue p f).dar = s.dar := by
  obtain ⟨x, y, h⟩ := State.enqueue_port s p f
  exact (congrArg State.dar h).trans rfl

@[simp] theorem State.enqueue_rlu (p : Port) (f : Frame) : (s.enqueue p f).rlu = s.rlu := by
  obtain ⟨x, y, h⟩ := State.enqueue_port s p f
  exact (congrArg State.rlu h).trans rfl

@[simp] theorem State.enqueue_scn (p : Port) (f : Frame) : (s.enqueue p f).scn = s.scn := by
  obtain ⟨x, y, h⟩ := State.enqueue_port s p f
  exact (congrArg State.scn h).trans rfl

@[simp] theorem State.enqueue_tbs (p : Port) (f : Frame) : (s.enqueue p f).tbs = s.tbs := by
  obtain ⟨x, y, h⟩ := State.enqueue_port s p f
  exact (congrArg State.tbs h).trans rfl

/-! forward -/

@[simp] theorem State.forward_pending (k : Code16) (m : Msg) (b : List Byte) : (s.forward k m b).pending = s.pending := by
  obtain ⟨x, y, h⟩ := State.enqueue_port s .plant _
  exact (congrArg State.pending h).trans rfl

@[simp] theorem State.forward_ldr (k : Code16) (m : Msg) (b : List Byte) : (s.forward k m b).ldr = s.ldr := by
  obtain ⟨x, y, h⟩ := State.enqueue_port s .plant _
  exact (congrArg State.ldr h).trans rfl

@[simp] theorem State.forward_tst (k : Code16) (m : Msg) (b : List Byte) : (s.forward k m b).tst = s.tst := by
  obtain ⟨x, y, h⟩ := State.enqueue_port s .plant _
  exact (congrArg State.tst h).trans rfl

@[simp] theorem State.forward_ctr (k : Code16) (m : Msg) (b : List Byte) : (s.forward k m b).ctr = s.ctr := by
  obtain ⟨x, y, h⟩ := State.enqueue_port s .plant _
  exact (congrArg State.ctr h).trans rfl

@[simp] theorem State.forward_dar (k : Code16) (m : Msg) (b : List Byte) : (s.forward k m b).dar = s.dar := by
  obtain ⟨x, y, h⟩ := State.enqueue_port s .plant _
  exact (congrArg State.dar h).trans rfl

@[simp] theorem State.forward_rlu (k : Code16) (m : Msg) (b : List Byte) : (s.forward k m b).rlu = s.rlu := by
  obtain ⟨x, y, h⟩ := State.enqueue_port s .plant _
  exact (congrArg State.rlu h).trans rfl

@[simp] theorem State.forward_scn (k : Code16) (m : Msg) (b : List Byte) : (s.forward k m b).scn = s.scn := by
  obtain ⟨x, y, h⟩ := State.enqueue_port s .plant _
  exact (congrArg State.scn h).trans rfl

@[simp] theorem State.forward_tbs (k : Code16) (m : Msg) (b : List Byte) : (s.forward k m b).tbs = s.tbs := by
  obtain ⟨x, y, h⟩ := State.enqueue_port s .plant _
  exact (congrArg State.tbs h).trans rfl

/-! order -/

@[simp] theorem State.order_pending (c : Nat) (r : Option Run) (o : Order) : (s.order c r o).pending = s.pending := by
  obtain ⟨x, y, h⟩ := State.enqueue_port s .floor _
  exact (congrArg State.pending h).trans rfl

@[simp] theorem State.order_ldr (c : Nat) (r : Option Run) (o : Order) : (s.order c r o).ldr = s.ldr := by
  obtain ⟨x, y, h⟩ := State.enqueue_port s .floor _
  exact (congrArg State.ldr h).trans rfl

@[simp] theorem State.order_tst (c : Nat) (r : Option Run) (o : Order) : (s.order c r o).tst = s.tst := by
  obtain ⟨x, y, h⟩ := State.enqueue_port s .floor _
  exact (congrArg State.tst h).trans rfl

@[simp] theorem State.order_ctr (c : Nat) (r : Option Run) (o : Order) : (s.order c r o).ctr = s.ctr := by
  obtain ⟨x, y, h⟩ := State.enqueue_port s .floor _
  exact (congrArg State.ctr h).trans rfl

@[simp] theorem State.order_dar (c : Nat) (r : Option Run) (o : Order) : (s.order c r o).dar = s.dar := by
  obtain ⟨x, y, h⟩ := State.enqueue_port s .floor _
  exact (congrArg State.dar h).trans rfl

@[simp] theorem State.order_rlu (c : Nat) (r : Option Run) (o : Order) : (s.order c r o).rlu = s.rlu := by
  obtain ⟨x, y, h⟩ := State.enqueue_port s .floor _
  exact (congrArg State.rlu h).trans rfl

@[simp] theorem State.order_scn (c : Nat) (r : Option Run) (o : Order) : (s.order c r o).scn = s.scn := by
  obtain ⟨x, y, h⟩ := State.enqueue_port s .floor _
  exact (congrArg State.scn h).trans rfl

@[simp] theorem State.order_tbs (c : Nat) (r : Option Run) (o : Order) : (s.order c r o).tbs = s.tbs := by
  obtain ⟨x, y, h⟩ := State.enqueue_port s .floor _
  exact (congrArg State.tbs h).trans rfl

/-! replyAs -/

@[simp] theorem State.replyAs_pending (e k : Code16) (r : ReqRef) (c : ReplyCode) (b : ReplyBody) :
    (s.replyAs e k r c b).pending = s.pending := by
  obtain ⟨x, y, h⟩ := State.enqueue_port s .plant _
  exact (congrArg State.pending h).trans rfl

@[simp] theorem State.replyAs_ldr (e k : Code16) (r : ReqRef) (c : ReplyCode) (b : ReplyBody) :
    (s.replyAs e k r c b).ldr = s.ldr := by
  obtain ⟨x, y, h⟩ := State.enqueue_port s .plant _
  exact (congrArg State.ldr h).trans rfl

@[simp] theorem State.replyAs_tst (e k : Code16) (r : ReqRef) (c : ReplyCode) (b : ReplyBody) :
    (s.replyAs e k r c b).tst = s.tst := by
  obtain ⟨x, y, h⟩ := State.enqueue_port s .plant _
  exact (congrArg State.tst h).trans rfl

@[simp] theorem State.replyAs_ctr (e k : Code16) (r : ReqRef) (c : ReplyCode) (b : ReplyBody) :
    (s.replyAs e k r c b).ctr = s.ctr := by
  obtain ⟨x, y, h⟩ := State.enqueue_port s .plant _
  exact (congrArg State.ctr h).trans rfl

@[simp] theorem State.replyAs_dar (e k : Code16) (r : ReqRef) (c : ReplyCode) (b : ReplyBody) :
    (s.replyAs e k r c b).dar = s.dar := by
  obtain ⟨x, y, h⟩ := State.enqueue_port s .plant _
  exact (congrArg State.dar h).trans rfl

@[simp] theorem State.replyAs_rlu (e k : Code16) (r : ReqRef) (c : ReplyCode) (b : ReplyBody) :
    (s.replyAs e k r c b).rlu = s.rlu := by
  obtain ⟨x, y, h⟩ := State.enqueue_port s .plant _
  exact (congrArg State.rlu h).trans rfl

@[simp] theorem State.replyAs_scn (e k : Code16) (r : ReqRef) (c : ReplyCode) (b : ReplyBody) :
    (s.replyAs e k r c b).scn = s.scn := by
  obtain ⟨x, y, h⟩ := State.enqueue_port s .plant _
  exact (congrArg State.scn h).trans rfl

@[simp] theorem State.replyAs_tbs (e k : Code16) (r : ReqRef) (c : ReplyCode) (b : ReplyBody) :
    (s.replyAs e k r c b).tbs = s.tbs := by
  obtain ⟨x, y, h⟩ := State.enqueue_port s .plant _
  exact (congrArg State.tbs h).trans rfl

/-! reply -/

@[simp] theorem State.reply_pending (k : Code16) (r : ReqRef) (c : ReplyCode) (b : ReplyBody) :
    (s.reply k r c b).pending = s.pending := by
  obtain ⟨x, y, h⟩ := State.enqueue_port s .plant _
  exact (congrArg State.pending h).trans rfl

@[simp] theorem State.reply_tst (k : Code16) (r : ReqRef) (c : ReplyCode) (b : ReplyBody) : (s.reply k r c b).tst =
    s.tst := by
  obtain ⟨x, y, h⟩ := State.enqueue_port s .plant _
  exact (congrArg State.tst h).trans rfl

@[simp] theorem State.reply_ctr (k : Code16) (r : ReqRef) (c : ReplyCode) (b : ReplyBody) : (s.reply k r c b).ctr =
    s.ctr := by
  obtain ⟨x, y, h⟩ := State.enqueue_port s .plant _
  exact (congrArg State.ctr h).trans rfl

@[simp] theorem State.reply_dar (k : Code16) (r : ReqRef) (c : ReplyCode) (b : ReplyBody) : (s.reply k r c b).dar =
    s.dar := by
  obtain ⟨x, y, h⟩ := State.enqueue_port s .plant _
  exact (congrArg State.dar h).trans rfl

@[simp] theorem State.reply_rlu (k : Code16) (r : ReqRef) (c : ReplyCode) (b : ReplyBody) : (s.reply k r c b).rlu =
    s.rlu := by
  obtain ⟨x, y, h⟩ := State.enqueue_port s .plant _
  exact (congrArg State.rlu h).trans rfl

@[simp] theorem State.reply_scn (k : Code16) (r : ReqRef) (c : ReplyCode) (b : ReplyBody) : (s.reply k r c b).scn =
    s.scn := by
  obtain ⟨x, y, h⟩ := State.enqueue_port s .plant _
  exact (congrArg State.scn h).trans rfl

@[simp] theorem State.reply_tbs (k : Code16) (r : ReqRef) (c : ReplyCode) (b : ReplyBody) : (s.reply k r c b).tbs =
    s.tbs := by
  obtain ⟨x, y, h⟩ := State.enqueue_port s .plant _
  exact (congrArg State.tbs h).trans rfl

/-! notice -/

@[simp] theorem State.notice_pending (b : NoticeBody) : (s.notice b).pending = s.pending := by
  obtain ⟨x, y, h⟩ := State.notice_port s b
  exact (congrArg State.pending h).trans rfl

@[simp] theorem State.notice_tst (b : NoticeBody) : (s.notice b).tst = s.tst := by
  obtain ⟨x, y, h⟩ := State.notice_port s b
  exact (congrArg State.tst h).trans rfl

@[simp] theorem State.notice_ctr (b : NoticeBody) : (s.notice b).ctr = s.ctr := by
  obtain ⟨x, y, h⟩ := State.notice_port s b
  exact (congrArg State.ctr h).trans rfl

@[simp] theorem State.notice_dar (b : NoticeBody) : (s.notice b).dar = s.dar := by
  obtain ⟨x, y, h⟩ := State.notice_port s b
  exact (congrArg State.dar h).trans rfl

@[simp] theorem State.notice_rlu (b : NoticeBody) : (s.notice b).rlu = s.rlu := by
  obtain ⟨x, y, h⟩ := State.notice_port s b
  exact (congrArg State.rlu h).trans rfl

@[simp] theorem State.notice_scn (b : NoticeBody) : (s.notice b).scn = s.scn := by
  obtain ⟨x, y, h⟩ := State.notice_port s b
  exact (congrArg State.scn h).trans rfl

@[simp] theorem State.notice_tbs (b : NoticeBody) : (s.notice b).tbs = s.tbs := by
  obtain ⟨x, y, h⟩ := State.notice_port s b
  exact (congrArg State.tbs h).trans rfl

/-! heldNotice -/

@[simp] theorem State.heldNotice_pending (h : Nat) (r : HoldReason) (a : LotState) : (s.heldNotice h r a).pending =
    s.pending := by
  obtain ⟨x, y, h⟩ := State.heldNotice_port s h r a
  exact (congrArg State.pending h).trans rfl

@[simp] theorem State.heldNotice_tst (h : Nat) (r : HoldReason) (a : LotState) : (s.heldNotice h r a).tst = s.tst := by
  obtain ⟨x, y, h⟩ := State.heldNotice_port s h r a
  exact (congrArg State.tst h).trans rfl

@[simp] theorem State.heldNotice_ctr (h : Nat) (r : HoldReason) (a : LotState) : (s.heldNotice h r a).ctr = s.ctr := by
  obtain ⟨x, y, h⟩ := State.heldNotice_port s h r a
  exact (congrArg State.ctr h).trans rfl

@[simp] theorem State.heldNotice_dar (h : Nat) (r : HoldReason) (a : LotState) : (s.heldNotice h r a).dar = s.dar := by
  obtain ⟨x, y, h⟩ := State.heldNotice_port s h r a
  exact (congrArg State.dar h).trans rfl

@[simp] theorem State.heldNotice_rlu (h : Nat) (r : HoldReason) (a : LotState) : (s.heldNotice h r a).rlu = s.rlu := by
  obtain ⟨x, y, h⟩ := State.heldNotice_port s h r a
  exact (congrArg State.rlu h).trans rfl

@[simp] theorem State.heldNotice_scn (h : Nat) (r : HoldReason) (a : LotState) : (s.heldNotice h r a).scn = s.scn := by
  obtain ⟨x, y, h⟩ := State.heldNotice_port s h r a
  exact (congrArg State.scn h).trans rfl

@[simp] theorem State.heldNotice_tbs (h : Nat) (r : HoldReason) (a : LotState) : (s.heldNotice h r a).tbs = s.tbs := by
  obtain ⟨x, y, h⟩ := State.heldNotice_port s h r a
  exact (congrArg State.tbs h).trans rfl

/-! addHold, placeQuiet and removeEntry -/

@[simp] theorem State.addHold_pending (h : Nat) (n : NewHold) : (s.addHold h n).pending = s.pending := rfl

@[simp] theorem State.addHold_tst (h : Nat) (n : NewHold) : (s.addHold h n).tst = s.tst := rfl

@[simp] theorem State.addHold_ctr (h : Nat) (n : NewHold) : (s.addHold h n).ctr = s.ctr := rfl

@[simp] theorem State.addHold_dar (h : Nat) (n : NewHold) : (s.addHold h n).dar = s.dar := rfl

@[simp] theorem State.addHold_rlu (h : Nat) (n : NewHold) : (s.addHold h n).rlu = s.rlu := rfl

@[simp] theorem State.addHold_scn (h : Nat) (n : NewHold) : (s.addHold h n).scn = s.scn := rfl

@[simp] theorem State.addHold_tbs (h : Nat) (n : NewHold) : (s.addHold h n).tbs = s.tbs := rfl

@[simp] theorem State.placeQuiet_pending (h : Nat) (n : NewHold) : (s.placeQuiet h n).pending = s.pending := by
  unfold State.placeQuiet
  dsimp only
  split <;> simp

@[simp] theorem State.placeQuiet_tst (h : Nat) (n : NewHold) : (s.placeQuiet h n).tst = s.tst := by
  unfold State.placeQuiet
  dsimp only
  split <;> simp

@[simp] theorem State.placeQuiet_ctr (h : Nat) (n : NewHold) : (s.placeQuiet h n).ctr = s.ctr := by
  unfold State.placeQuiet
  dsimp only
  split <;> simp

@[simp] theorem State.placeQuiet_dar (h : Nat) (n : NewHold) : (s.placeQuiet h n).dar = s.dar := by
  unfold State.placeQuiet
  dsimp only
  split <;> simp

@[simp] theorem State.placeQuiet_rlu (h : Nat) (n : NewHold) : (s.placeQuiet h n).rlu = s.rlu := by
  unfold State.placeQuiet
  dsimp only
  split <;> simp

@[simp] theorem State.placeQuiet_scn (h : Nat) (n : NewHold) : (s.placeQuiet h n).scn = s.scn := by
  unfold State.placeQuiet
  dsimp only
  split <;> simp

@[simp] theorem State.placeQuiet_tbs (h : Nat) (n : NewHold) : (s.placeQuiet h n).tbs = s.tbs := by
  unfold State.placeQuiet
  dsimp only
  split <;> simp

@[simp] theorem State.removeEntry_pending (h : Nat) (r : HoldReason) : (s.removeEntry h r).pending = s.pending := rfl

@[simp] theorem State.removeEntry_tst (h : Nat) (r : HoldReason) : (s.removeEntry h r).tst = s.tst := rfl

@[simp] theorem State.removeEntry_ctr (h : Nat) (r : HoldReason) : (s.removeEntry h r).ctr = s.ctr := rfl

@[simp] theorem State.removeEntry_dar (h : Nat) (r : HoldReason) : (s.removeEntry h r).dar = s.dar := rfl

@[simp] theorem State.removeEntry_rlu (h : Nat) (r : HoldReason) : (s.removeEntry h r).rlu = s.rlu := rfl

@[simp] theorem State.removeEntry_scn (h : Nat) (r : HoldReason) : (s.removeEntry h r).scn = s.scn := rfl

@[simp] theorem State.removeEntry_tbs (h : Nat) (r : HoldReason) : (s.removeEntry h r).tbs = s.tbs := rfl

end Sys2Proof.Machine
end

section
/-! What the work of the cells, the dispatch arbiter, the guard, the hold unit and the release unit is made of: single
changes
of one lot, one cell, the counters, the port and the three ordered lists. What every such change keeps, every shared
  operation
keeps (R60, R153, R156). -/

namespace Sys2Proof.Machine

set_option Elab.async false

/-- One change: of a lot, of the record of a cell in `C`, of the counters, of the port (its floor-bound queue only when
`S`), of
the pass flag, or a member leaving or joining one of the ordered lists. -/
inductive Move (C : Nat → Prop) (S : Prop) (s : State) : State → Prop
  | lot (h : Nat) (f : Lot → Lot) : Move C S s (s.modLot h f)
  | cell (c : Nat) (f : Cell → Cell) (hc : C c) : Move C S s (s.modCell c f)
  | counters (x : Fcn) : Move C S s { s with fcn := x }
  | port (x : Pcl) (hlinks : x.floorLink = s.pcl.floorLink ∧ x.plantLink = s.pcl.plantLink)
      (hfloor : ¬S → x.floorQ = s.pcl.floorQ) : Move C S s { s with pcl := x }
  | due (b : Bool) : Move C S s { s with dar := { s.dar with passDue := b } }
  | leave (h : Nat) : Move C S s (s.leaveQueue h)
  | join (m : Member) : Move C S s { s with dar := { s.dar with queue := joinMember m s.dar.queue } }
  | record (r : Record) : Move C S s { s with rlu := { s.rlu with ship := joinRecord r s.rlu.ship } }
  | unpend (h : Nat) : Move C S s { s with rlu := { s.rlu with pend := s.rlu.pend.filter fun m => m.handle != h } }
  | pend (m : PendMember) : Move C S s { s with rlu := { s.rlu with pend := joinPend m s.rlu.pend } }

/-- Any number of changes, one after another. -/
def Moves (C : Nat → Prop) (S : Prop) : State → State → Prop := Relation.ReflTransGen (Move C S)

/-! ### What every change keeps -/

/-- A member that joins before the first it stands before leaves the list in order, for a `before` that is transitive from
either side and never holds both ways. -/
theorem inOrder_insert {α : Type} {before : α → α → Bool} {join : α → List α → List α} (hnil : ∀ x, join x [] = [x])
    (hcons : ∀ x y r, join x (y :: r) = if before x y then x :: y :: r else y :: join x r)
    (hasymm : ∀ a b, before a b = true → before b a = false)
    (htrans : ∀ a b c, before a b = true → before c b = false → before c a = false) (x : α) :
    ∀ l : List α, inOrder before l → inOrder before (join x l) := by
  have hmem : ∀ (l : List α) (z : α), z ∈ join x l → z = x ∨ z ∈ l := by
    intro l
    induction l with
    | nil => simp [hnil]
    | cons y r ih =>
      intro z hz
      rw [hcons] at hz
      split at hz
      · simpa using hz
      · rcases List.mem_cons.mp hz with rfl | hz
        · simp
        · rcases ih z hz with rfl | hz
          · simp
          · simp [hz]
  intro l
  induction l with
  | nil => simp [hnil, inOrder]
  | cons y r ih =>
    intro hl
    obtain ⟨hy, hr⟩ := List.pairwise_cons.mp hl
    rw [hcons]
    split
    · rename_i hxy
      refine List.pairwise_cons.mpr ⟨fun z hz => ?_, hl⟩
      rcases List.mem_cons.mp hz with rfl | hz
      · exact hasymm _ _ hxy
      · exact htrans _ _ _ hxy (hy z hz)
    · rename_i hxy
      refine List.pairwise_cons.mpr ⟨fun z hz => ?_, ih hr⟩
      rcases hmem r z hz with rfl | hz
      · simpa using hxy
      · exact hy z hz

theorem inOrder_joinMember (x : Member) (l : List Member) (h : inOrder Member.before l) :
    inOrder Member.before (joinMember x l) :=
  inOrder_insert (join := joinMember) (fun _ => rfl) (fun _ _ _ => rfl) (fun a b => by simp [Member.before]; omega)
    (fun a b c => by simp [Member.before]; omega) x l h

theorem inOrder_joinRecord (x : Record) (l : List Record) (h : inOrder Record.before l) :
    inOrder Record.before (joinRecord x l) :=
  inOrder_insert (join := joinRecord) (fun _ => rfl) (fun _ _ _ => rfl) (fun a b => by simp; omega)
    (fun a b c => by simp; omega) x l h

theorem inOrder_joinPend (x : PendMember) (l : List PendMember) (h : inOrder PendMember.before l) :
    inOrder PendMember.before (joinPend x l) :=
  inOrder_insert (join := joinPend) (fun _ => rfl) (fun _ _ _ => rfl) (fun a b => by simp; omega)
    (fun a b c => by simp; omega) x l h

theorem inOrder_filter {α : Type} {before : α → α → Bool} (p : α → Bool) {l : List α} (h : inOrder before l) :
    inOrder before (l.filter p) := h.filter p

namespace Moves

variable {C : Nat → Prop} {S : Prop} {s t u : State}

theorem refl (s : State) : Moves C S s s := Relation.ReflTransGen.refl

theorem trans (h : Moves C S s t) (k : Moves C S t u) : Moves C S s u := Relation.ReflTransGen.trans h k

theorem step (h : Moves C S s t) (k : Move C S t u) : Moves C S s u := Relation.ReflTransGen.tail h k

/-- What every single change keeps, any number of them keeps. -/
theorem keeps {P : State → Prop} (h : Moves C S s t) (hmove : ∀ {u v}, Move C S u v → P u → P v) (hs : P s) : P t := by
  induction h with
  | refl => exact hs
  | tail _ hm ih => exact hmove hm ih

theorem listsOrdered (h : Moves C S s t) (hs : s.ListsOrdered) : t.ListsOrdered := by
  refine h.keeps (fun hm ⟨hq, hship, hpend⟩ => ?_) hs
  cases hm with
  | lot h f => exact ⟨hq, hship, hpend⟩
  | cell c f hc => exact ⟨hq, hship, hpend⟩
  | counters x => exact ⟨hq, hship, hpend⟩
  | port x _ _ => exact ⟨hq, hship, hpend⟩
  | due b => exact ⟨hq, hship, hpend⟩
  | leave h => exact ⟨inOrder_filter _ hq, hship, hpend⟩
  | join m => exact ⟨inOrder_joinMember m _ hq, hship, hpend⟩
  | record r => exact ⟨hq, inOrder_joinRecord r _ hship, hpend⟩
  | unpend h => exact ⟨hq, hship, inOrder_filter _ hpend⟩
  | pend m => exact ⟨hq, hship, inOrder_joinPend m _ hpend⟩

/-- The cells outside `C` stand. -/
theorem otherCell (h : Moves C S s t) {d : Nat} (hd : ¬C d) : t.cell d = s.cell d := by
  refine h.keeps (P := fun u => u.cell d = s.cell d) (fun hm hu => ?_) rfl
  cases hm with
  | cell c f hc =>
    refine (vget_vmod_ne _ _ _ fun e => hd ?_).trans hu
    rwa [← e]
  | lot | counters | port | due | leave | join | record | unpend | pend => exact hu

theorem sameOtherCells {c : Nat} (h : Moves (· = c) S s t) : s.sameOtherCells t c := fun _ hd => h.otherCell hd

/-- Nothing joins the floor-bound queue unless orders are sent. -/
theorem floorQ_eq (h : Moves C False s t) : t.pcl.floorQ = s.pcl.floorQ := by
  refine h.keeps (P := fun u => u.pcl.floorQ = s.pcl.floorQ) (fun hm hu => ?_) rfl
  cases hm with
  | port x _ hfloor => exact (hfloor id).trans hu
  | lot | cell | counters | due | leave | join | record | unpend | pend => exact hu

/-- Neither the links nor the settings change, so that notices go as before. -/
theorem base (h : Moves C S s t) : s.sameBase t := by
  refine h.keeps (P := fun u => s.sameBase u) (fun hm hu => ?_) ⟨rfl, rfl, rfl, rfl, rfl, rfl⟩
  obtain ⟨hp, ht, hs, hb, hf, hl⟩ := hu
  cases hm with
  | port x hlinks _ => exact ⟨hp, ht, hs, hb, hlinks.1.trans hf, hlinks.2.trans hl⟩
  | lot | cell | counters | due | leave | join | record | unpend | pend => exact ⟨hp, ht, hs, hb, hf, hl⟩

/-- Every slot keeps its number, and a lot in it. -/
theorem slot_inst (h : Moves C S s t) (k : Nat) : (t.slot k).inst = (s.slot k).inst ∧
    ((t.lot? k).isSome = (s.lot? k).isSome) := by
  refine h.keeps (P := fun u => (u.slot k).inst = (s.slot k).inst ∧ ((u.lot? k).isSome = (s.lot? k).isSome))
    (fun hm hu => ?_) ⟨rfl, rfl⟩
  cases hm with
  | lot h f =>
    refine ⟨?_, (State.lot?_isSome_modLot ..).trans hu.2⟩
    refine Eq.trans ?_ hu.1
    simp only [State.slot, State.modLot, State.modSlot, vget_vmod]
    split <;> rfl
  | cell | port | counters | due | leave | join | record | unpend | pend => exact hu

/-! ### One lemma for each shared operation -/

theorem modLot (h : Moves C S s t) (k : Nat) (f : Lot → Lot) : Moves C S s (t.modLot k f) := h.step (.lot k f)

theorem modAcc (h : Moves C S s t) (k : Nat) (f : Acc → Acc) : Moves C S s (t.modAcc k f) := h.modLot k _

theorem setLotState (h : Moves C S s t) (k : Nat) (st : LotState) : Moves C S s (t.setLotState k st) := h.modLot k _

theorem dropTarget (h : Moves C S s t) (k : Nat) : Moves C S s (t.dropTarget k) := h.modLot k _

theorem modCell (h : Moves C S s t) (c : Nat) (f : Cell → Cell) (hc : C c := by solve_by_elim) :
    Moves C S s (t.modCell c f) := h.step (.cell c f hc)

theorem modTimers (h : Moves C S s t) (c : Nat) (f : Timers → Timers) (hc : C c := by solve_by_elim) :
    Moves C S s (t.modTimers c f) := h.modCell c _

theorem modTop (h : Moves C S s t) (c : Nat) (f : Run → Run) (hc : C c := by solve_by_elim) :
    Moves C S s (t.modTop c f) := h.modCell c _

theorem clearCtx (h : Moves C S s t) (c : Nat) (hc : C c := by solve_by_elim) : Moves C S s (t.clearCtx c) := h.modCell c _

theorem popTop (h : Moves C S s t) (c : Nat) (hc : C c := by solve_by_elim) : Moves C S s (t.popTop c) := h.modCell c _

theorem pushRun (h : Moves C S s t) (c : Nat) (r : Run) (hc : C c := by solve_by_elim) : Moves C S s (t.pushRun c r) :=
  h.modCell c _

theorem dropIncoming (h : Moves C S s t) (c : Nat) (hc : C c := by solve_by_elim) : Moves C S s (t.dropIncoming c) :=
  h.modCell c _

theorem toOffline (h : Moves C S s t) (c : Nat) (hc : C c := by solve_by_elim) : Moves C S s (t.toOffline c) := h.modCell c _

theorem startPass (h : Moves C S s t) : Moves C S s t.startPass := h.step (.due true)

theorem toIdle (h : Moves C S s t) (c : Nat) (hc : C c := by solve_by_elim) : Moves C S s (t.toIdle c) :=
  (h.modCell c _).startPass

theorem leaveQueue (h : Moves C S s t) (k : Nat) : Moves C S s (t.leaveQueue k) := h.step (.leave k)

theorem event (h : Moves C S s t) (e : EventSource) (v : Nat) : Moves C S s (t.event e v) := h.step (.counters _)

theorem enqueueFloor (h : Moves C S s t) (f : Frame) (hs : S := by solve_by_elim) : Moves C S s (t.enqueue .floor f) := by
  unfold State.enqueue
  dsimp only
  split
  · exact h.step (.port _ ⟨rfl, rfl⟩ fun k => absurd hs k)
  · refine event ?_ _ _
    exact h.step (.port _ ⟨rfl, rfl⟩ fun _ => rfl)

theorem enqueuePlant (h : Moves C S s t) (f : Frame) : Moves C S s (t.enqueue .plant f) := by
  unfold State.enqueue
  dsimp only
  split
  · exact h.step (.port _ ⟨rfl, rfl⟩ fun _ => rfl)
  · refine event ?_ _ _
    exact h.step (.port _ ⟨rfl, rfl⟩ fun _ => rfl)

theorem forward (h : Moves C S s t) (k : Code16) (m : Msg) (b : List Byte) : Moves C S s (t.forward k m b) :=
  h.enqueuePlant _

theorem order (h : Moves C S s t) (c : Nat) (r : Option Run) (o : Order) (hs : S := by solve_by_elim) :
    Moves C S s (t.order c r o) := h.enqueueFloor _

theorem replyAs (h : Moves C S s t) (e k : Code16) (r : ReqRef) (c : ReplyCode) (b : ReplyBody) :
    Moves C S s (t.replyAs e k r c b) := h.enqueuePlant _

theorem reply (h : Moves C S s t) (k : Code16) (r : ReqRef) (c : ReplyCode) (b : ReplyBody) : Moves C S s
    (t.reply k r c b) :=
  h.replyAs _ _ _ _ _

theorem notice (h : Moves C S s t) (b : NoticeBody) : Moves C S s (t.notice b) := by
  unfold State.notice
  dsimp only
  split
  · exact h.step (.port _ ⟨rfl, rfl⟩ fun _ => rfl)
  · refine enqueuePlant ?_ _
    exact h.step (.port _ ⟨rfl, rfl⟩ fun _ => rfl)

theorem foldl {β : Type} (f : State → β → State) (hf : ∀ {t : State} (b : β), Moves C S s t → Moves C S s (f t b))
    (l : List β) : ∀ {t : State}, Moves C S s t → Moves C S s (l.foldl f t) := by
  induction l with
  | nil => intro t h; exact h
  | cons b l ih => intro t h; exact ih (hf b h)

theorem joinQueue (h : Moves C S s t) (k : Nat) (n : Bool) : Moves C S s (t.joinQueue k n) := by
  unfold State.joinQueue
  dsimp only
  split
  · exact ((h.modLot k _).step (.join _)).startPass
  · exact h.modLot k _

theorem withPend (h : Moves C S s t) (k : Nat) :
    Moves C S s { t with rlu := { t.rlu with pend := t.rlu.pend.filter fun m => m.handle != k } } := h.step (.unpend k)

theorem leavePending (h : Moves C S s t) (k : Nat) : Moves C S s (t.leavePending k) := (h.withPend k).modLot k _

theorem toHeld (h : Moves C S s t) (k : Nat) : Moves C S s (t.toHeld k) := (h.leavePending k).setLotState _ _

theorem releaseLot (h : Moves C S s t) (k : Nat) : Moves C S s (t.releaseLot k) := by
  unfold State.releaseLot
  split
  · exact h
  · exact ((((h.step (.record _)).leavePending k).setLotState k _).notice _).event _ _

theorem joinPending (h : Moves C S s t) (k : Nat) (l : Lot) : Moves C S s (t.joinPending k l) :=
  ((h.leavePending k).step (.pend _)).modLot k _

/-! ### Lots, queue and cell states -/

theorem clearOrder (h : Moves C S s t) (c : Nat) (hc : C c := by solve_by_elim) : Moves C S s (t.clearOrder c) := by
  unfold State.clearOrder
  dsimp only
  split
  · exact (h.modCell _ _).startPass
  · exact h.modCell _ _

theorem toRunning (h : Moves C S s t) (c : Nat) (hc : C c := by solve_by_elim) : Moves C S s (t.toRunning c) := by
  unfold State.toRunning
  dsimp only
  split
  · exact (h.modCell _ _).startPass
  · exact h.modCell _ _

theorem toFault (h : Moves C S s t) (c : Nat) (x : FaultCause) (l : Option (Nat × Nat))
    (hc : C c := by solve_by_elim) (hx : x = .unownedRun → S := by first | assumption | (intro _; assumption) | nofun) :
      Moves C S s (t.toFault c x l) := by
  unfold State.toFault
  dsimp only
  split
  · exact ((h.modCell _ _).notice _).order _ _ _
  · exact (h.modCell _ _).notice _

theorem requestStop (h : Moves C S s t) (c : Nat) (r : StopReason)
    (hc : C c := by solve_by_elim) (hs : S := by solve_by_elim) : Moves C S s (t.requestStop c r) := by
  unfold State.requestStop
  split
  · exact (h.modCell _ _).order _ _ _
  · exact (h.modCell _ _).order _ _ _
  · exact (h.modCell _ _).order _ _ _
  · exact h

/-! ### Holds -/

theorem addHold (h : Moves C S s t) (k : Nat) (n : NewHold) : Moves C S s (t.addHold k n) := (h.modLot _ _).event _ _

theorem heldNotice (h : Moves C S s t) (k : Nat) (r : HoldReason) (a : LotState) : Moves C S s (t.heldNotice k r a) := by
  unfold State.heldNotice
  split
  · split
    · exact h.notice _
    · exact h
  · exact h

theorem placeQuiet (h : Moves C S s t) (k : Nat) (n : NewHold) : Moves C S s (t.placeQuiet k n) := by
  unfold State.placeQuiet
  dsimp only
  split
  · exact (h.addHold _ _).heldNotice _ _ _
  · exact h.addHold _ _

theorem removeEntry (h : Moves C S s t) (k : Nat) (r : HoldReason) : Moves C S s (t.removeEntry k r) :=
    (h.modLot _ _).event _ _

/-! ### Release -/

theorem evaluateAs (h : Moves C S s t) (k : Nat) (l : Lot) (low open_ : Bool) : Moves C S s (
    if low || open_ then
      (if open_ then (if low then (t.event .guardTrip (Trip.code .releaseLow)).placeQuiet k ⟨.guard, .ygd,
        [.releaseLow], none⟩
          else t).placeQuiet k ⟨.quantity, .ygd, [], none⟩
        else if low then (t.event .guardTrip (Trip.code .releaseLow)).placeQuiet k ⟨.guard, .ygd, [.releaseLow], none⟩
          else t).toHeld k
    else if t.rlu.ship.length < shipCapacity then t.releaseLot k else t.joinPending k l) := by
  have h1 : Moves C S s (if low then (t.event .guardTrip (Trip.code .releaseLow)).placeQuiet k ⟨.guard, .ygd,
    [.releaseLow], none⟩
      else t) := by
    split
    · exact (h.event _ _).placeQuiet _ _
    · exact h
  split
  · apply toHeld
    split
    · exact h1.placeQuiet _ _
    · exact h1
  · split
    · exact h.releaseLot _
    · exact h.joinPending _ _

theorem evaluate (h : Moves C S s t) (k : Nat) : Moves C S s (t.evaluate k) := by
  unfold State.evaluate
  split
  · exact h
  · exact h.evaluateAs _ _ _ _

theorem complete (h : Moves C S s t) (k : Nat) : Moves C S s (t.complete k) := by
  unfold State.complete
  dsimp only
  split
  · exact h.modLot _ _
  · exact ((h.modLot _ _).notice _).evaluate _

theorem releasePending (n : Nat) : ∀ {t : State}, Moves C S s t → Moves C S s (t.releasePending n) := by
  induction n with
  | zero => intro t h; exact h
  | succ n ih =>
    intro t h
    unfold State.releasePending
    split
    · exact h
    · split
      · exact ih (h.evaluate _)
      · exact h

/-! ### Segments and step end -/

theorem closeSegmentAs (h : Moves C S s t) (k c : Nat) (x : CloseCause) (b : Bool) (n : NewHold)
    (hc : C c := by solve_by_elim) : Moves C S s (
    if b then ((t.modLot k fun l => { l with segments := closeLast l x }).modCell c (clearSegMark k)).placeQuiet k n
    else (t.modLot k fun l => { l with segments := closeLast l x }).modCell c (clearSegMark k)) := by
  split
  · exact ((h.modLot _ _).modCell _ _).placeQuiet _ _
  · exact (h.modLot _ _).modCell _ _

theorem closeSegment (h : Moves C S s t) (c k : Nat) (x : CloseCause) (hc : C c := by solve_by_elim) : Moves C S s
    (t.closeSegment c k x) :=
  h.closeSegmentAs _ _ _ _ _

theorem closeIfOpen (h : Moves C S s t) (c : Nat) (r : Run) (x : CloseCause) (hc : C c := by solve_by_elim) : Moves C S
    s (t.closeIfOpen c r x) := by
  unfold State.closeIfOpen
  split
  · exact h.closeSegment _ _ _
  · exact h

theorem openSegment (h : Moves C S s t) (c : Nat) (r : Run) (hc : C c := by solve_by_elim) : Moves C S s
    (t.openSegment c r) := (h.modLot _ _).modTop _ _

theorem recordTrips (h : Moves C S s t) (k : Nat) (ts : List Trip) : Moves C S s (t.recordTrips k ts) :=
  foldl _ (fun _ h => h.event _ _) ts (h.modAcc _ _)

theorem stepEndHolds (h : Moves C S s t) (k : Nat) (fl : Bool) (q : List Trip) : Moves C S s (t.stepEndHolds k fl q) := by
  unfold State.stepEndHolds
  refine modLot ?_ _ _
  split
  · split
    · exact (h.recordTrips _ _).addHold _ _
    · exact h.recordTrips _ _
  · apply modAcc
    apply addHold
    split
    · exact (h.recordTrips _ _).addHold _ _
    · exact h.recordTrips _ _

theorem stepEnd (h : Moves C S s t) (c k : Nat) (hc : C c := by solve_by_elim) : Moves C S s (t.stepEnd c k) := by
  unfold State.stepEnd
  split
  · exact h
  · rename_i l _
    have h1 : ∀ fl q, Moves C S s (if ((t.stepEndHolds k fl q).top? c).any Run.segOpen then
        (t.stepEndHolds k fl q).closeSegment c k .stepEnd else t.stepEndHolds k fl q) := by
      intro fl q
      split
      · exact (h.stepEndHolds _ _ _).closeSegment _ _ _
      · exact h.stepEndHolds _ _ _
    replace h1 := h1 (finalLow (t.profileOf (t.lotStep l)) l.acc) (quantityTrips (t.profileOf (t.lotStep l)) l.acc)
    dsimp only
    generalize (if ((t.stepEndHolds k _ _).top? c).any Run.segOpen = true then _ else _) = u at h1 ⊢
    split
    · exact h1
    · split
      · apply heldNotice
        split
        · exact ((h1.modLot _ _).notice _).heldNotice _ _ _
        · exact (h1.modLot _ _).notice _
      · split
        · exact ((h1.modLot _ _).notice _).heldNotice _ _ _
        · exact (h1.modLot _ _).notice _

theorem advance (h : Moves C S s t) (k : Nat) : Moves C S s (t.advance k) := (h.modLot _ _).joinQueue _ _

theorem passOn (h : Moves C S s t) (k : Nat) : Moves C S s (t.passOn k) := by
  unfold State.passOn
  split
  · exact h
  · split
    · exact h.advance _
    · exact h.complete _

theorem toRetest (h : Moves C S s t) (c k : Nat) (hc : C c := by solve_by_elim) : Moves C S s (t.toRetest c k) :=
    ((h.modLot _ _).modTop _ _).clearCtx _

theorem settleStopped (h : Moves C S s t) (c : Nat) (hc : C c := by solve_by_elim) : Moves C S s (t.settleStopped c).1 := by
  unfold State.settleStopped
  split
  · exact h
  · split
    · exact h
    · dsimp only
      split
      · exact (h.modAcc _ _).modTop _ _
      · split
        · exact ((h.modAcc _ _).modTop _ _).toRetest _ _
        · exact ((h.modAcc _ _).modTop _ _).stepEnd _ _

theorem sendLot (h : Moves C S s t) (k : Nat) (a b : Bool) : Moves C S s (t.sendLot k a b) := by
  unfold State.sendLot
  split
  · exact h.toHeld _
  · split
    · exact h.passOn _
    · exact h.joinQueue _ _

/-! ### Detach and setup -/

theorem detachTop (h : Moves C S s t) (c : Nat) (hc : C c := by solve_by_elim) : Moves C S s (t.detachTop c) := by
  unfold State.detachTop
  split
  · exact h
  · exact (((h.closeIfOpen _ _ _).settleStopped _).popTop _).sendLot _ _ _

theorem detachLower (h : Moves C S s t) (c : Nat) (hc : C c := by solve_by_elim) : Moves C S s (t.detachLower c) := by
  unfold State.detachLower
  split
  · exact h
  · exact ((h.closeIfOpen _ _ _).popTop _).sendLot _ _ _

theorem detachIncoming (h : Moves C S s t) (c : Nat) (hc : C c := by solve_by_elim) : Moves C S s (t.detachIncoming c) := by
  unfold State.detachIncoming
  split
  · exact h
  · exact (h.dropIncoming _).sendLot _ _ _

theorem detach (h : Moves C S s t) (c : Nat) (hc : C c := by solve_by_elim) : Moves C S s (t.detach c) :=
  (((h.detachTop c).detachLower c).detachIncoming c).modCell _ _

theorem abandonTop (h : Moves C S s t) (c : Nat) (hc : C c := by solve_by_elim) : Moves C S s (t.abandonTop c) := by
  unfold State.abandonTop
  split
  · exact h
  · exact ((h.closeIfOpen _ _ _).popTop _).sendLot _ _ _

theorem abandonSetup (h : Moves C S s t) (c : Nat) (hc : C c := by solve_by_elim) : Moves C S s (t.abandonSetup c) :=
    ((h.abandonTop c).abandonTop c).toIdle c

theorem startLoad (h : Moves C S s t) (c : Nat) (r : Run) (v : ProgVals)
    (hc : C c := by solve_by_elim) (hs : S := by solve_by_elim) : Moves C S s (t.startLoad c r v) := by
  unfold State.startLoad
  dsimp only
  split
  · exact (h.modCell _ _).order _ _ _
  · exact h.modCell _ _

theorem startKit (h : Moves C S s t) (c : Nat) (r : Run) (k : Nat)
    (hc : C c := by solve_by_elim) (hs : S := by solve_by_elim) : Moves C S s (t.startKit c r k) := (h.modCell _
      _).order _ _ _

theorem startSoak (h : Moves C S s t) (c : Nat) (r : Run) (x : Temp)
    (hc : C c := by solve_by_elim) (hs : S := by solve_by_elim) : Moves C S s (t.startSoak c r x) :=
  (h.modCell _ _).order _ _ _

theorem sendStart (h : Moves C S s t) (c : Nat) (r : Run)
    (hc : C c := by solve_by_elim) (hs : S := by solve_by_elim) : Moves C S s (t.sendStart c r) :=
  ((h.modCell _ _).modTop _ _).order _ _ _

theorem judgeItems (h : Moves C S s t) (c : Nat) (r : Run) (b : Bool)
    (hc : C c := by solve_by_elim) (hs : S := by solve_by_elim) : Moves C S s (t.judgeItems c r b) := by
  unfold State.judgeItems
  dsimp only
  split
  · apply startSoak (hc := hc) (hs := hs)
    split
    · apply startKit (hc := hc) (hs := hs)
      split
      · exact h.startLoad _ _ _
      · exact h
    · split
      · exact h.startLoad _ _ _
      · exact h
  · split
    · apply startKit (hc := hc) (hs := hs)
      split
      · exact h.startLoad _ _ _
      · exact h
    · split
      · exact h.startLoad _ _ _
      · exact h

theorem checkSetup (h : Moves C S s t) (c : Nat) (hc : C c := by solve_by_elim) (hs : S := by solve_by_elim) : Moves C S
    s (t.checkSetup c) := by
  unfold State.checkSetup
  split
  · exact h
  · split
    · dsimp only
      split
      · exact (h.judgeItems _ _ _).sendStart _ _
      · exact h.judgeItems _ _ _
    · exact h

theorem enterSetupN (c : Nat) (n : Nat) (hc : C c := by solve_by_elim) (hs : S := by solve_by_elim) : ∀ {t : State},
    Moves C S s t → Moves C S s (t.enterSetupN n c) := by
  induction n with
  | zero => intro t h; exact h.toIdle c
  | succ n ih =>
    intro t h
    unfold State.enterSetupN
    split
    · exact h.toIdle c
    · dsimp only
      split
      · split
        · exact (((h.setLotState _ _).modCell _ _).detachTop _).toIdle _
        · exact ih (((h.setLotState _ _).modCell _ _).detachTop _)
      · split
        · exact ((h.setLotState _ _).modCell _ _).abandonSetup _
        · exact (((h.setLotState _ _).modCell _ _).judgeItems _ _ _).checkSetup _

theorem enterSetup (h : Moves C S s t) (c : Nat) (hc : C c := by solve_by_elim) (hs : S := by solve_by_elim) : Moves C S
    s (t.enterSetup c) := enterSetupN c 2 hc hs h

theorem afterTop (h : Moves C S s t) (c : Nat) (hc : C c := by solve_by_elim) (hs : S := by solve_by_elim) : Moves C S s
    (t.afterTop c) := by
  unfold State.afterTop
  split
  · exact h.toIdle _
  · exact h.enterSetup _

theorem countFailure (h : Moves C S s t) (c k : Nat) : Moves C S s (t.countFailure c k) := by
  unfold State.countFailure
  dsimp only
  split
  · split
    · exact (h.modLot _ _).placeQuiet _ _
    · exact h.modLot _ _
  · exact h.modLot _ _

theorem setupFailure (h : Moves C S s t) (c : Nat) (x : FaultCause)
    (hc : C c := by solve_by_elim) (hx : x = .unownedRun → S := by first | assumption | (intro _; assumption) | nofun) :
      Moves C S s (t.setupFailure c x) := by
  unfold State.setupFailure
  split
  · exact h
  · exact (((((h.closeIfOpen _ _ _).popTop _).countFailure _ _).sendLot _ _ _).detachLower _).toFault _ _ _

/-! ### The effect of a hold -/

theorem holdInSetup (h : Moves C S s t) (c k : Nat) (hc : C c := by solve_by_elim) (hs : S := by solve_by_elim) : Moves
    C S s (t.holdInSetup c k) := by
  unfold State.holdInSetup
  split
  · exact h
  · exact (((h.closeIfOpen _ _ _).popTop _).toHeld _).afterTop _

theorem holdLower (h : Moves C S s t) (c k : Nat) (hc : C c := by solve_by_elim) : Moves C S s (t.holdLower c k) := by
  unfold State.holdLower
  dsimp only
  split
  · exact ((h.closeSegment _ _ _).modCell _ _).toHeld _
  · exact (h.modCell _ _).toHeld _

theorem holdAssigned (h : Moves C S s t) (k : Nat) (r : HoldReason)
    (hall : ∀ c, C c := by solve_by_elim) (hs : S := by solve_by_elim) : Moves C S s (t.holdAssigned k r) := by
  unfold State.holdAssigned
  split
  · split
    · exact h.holdInSetup _ _
    · exact h.requestStop _ _
  · split
    · exact (h.dropIncoming _).toHeld _
    · exact h

theorem holdEffect (h : Moves C S s t) (k : Nat) (r : HoldReason)
    (hall : ∀ c, C c := by solve_by_elim) (hs : S := by solve_by_elim) : Moves C S s (t.holdEffect k r) := by
  unfold State.holdEffect
  split
  · exact h
  · split
    · exact (h.leaveQueue _).toHeld _
    · exact h.holdAssigned _ _
    · split
      · exact h.requestStop _ _
      · exact h
    · split
      · exact h.holdLower _ _
      · exact h
    · exact h.toHeld _
    · exact h
    · exact h

theorem placeHold (h : Moves C S s t) (k : Nat) (n : NewHold)
    (hall : ∀ c, C c := by solve_by_elim) (hs : S := by solve_by_elim) : Moves C S s (t.placeHold k n) := by
  unfold State.placeHold
  dsimp only
  apply holdEffect (hall := hall) (hs := hs)
  split
  · exact (h.addHold _ _).heldNotice _ _ _
  · exact h.addHold _ _

theorem leaveHold (h : Moves C S s t) (k : Nat) : Moves C S s (t.leaveHold k) := by
  unfold State.leaveHold
  split
  · exact h
  · split
    · dsimp only
      split
      · split
        · exact (h.dropTarget _).passOn _
        · exact (h.dropTarget _).complete _
        · exact (h.dropTarget _).joinQueue _ _
        · exact (h.dropTarget _).joinQueue _ _
      · exact h.dropTarget _
    · exact h

/-! ### The bin stream -/

theorem demote (h : Moves C S s t) (c x k i : Nat) (hc : C c := by solve_by_elim) (hs : S := by solve_by_elim) : Moves C
    S s (t.demote c x k i) := by
  unfold State.demote
  split
  · exact (((h.modCell _ _).order _ _ _).notice _).event _ _
  · exact h

theorem siteTrip (h : Moves C S s t) (c : Nat) (r : Run) (p : Profile) (x : Nat) (k : List Trip)
    (hall : ∀ c, C c := by solve_by_elim) (hs : S := by solve_by_elim) :
    Moves C S s (t.siteTrip c r p x k) := by
  unfold State.siteTrip
  split
  · exact h
  · split
    · exact h.demote _ _ _ _
    · exact h.placeHold _ _

theorem handTrips (h : Moves C S s t) (c : Nat) (r : Run) (p : Profile) (x : Nat) (g k : List Trip)
    (hall : ∀ c, C c := by solve_by_elim) (hs : S := by solve_by_elim) :
    Moves C S s (t.handTrips c r p x g k) := by
  unfold State.handTrips
  dsimp only
  apply siteTrip (hall := hall) (hs := hs)
  split
  · exact h.recordTrips _ _
  · exact (h.recordTrips _ _).placeHold _ _

theorem guardRecord (h : Moves C S s t) (c : Nat) (r : Run) (x y z : Nat)
    (hall : ∀ c, C c := by solve_by_elim) (hs : S := by solve_by_elim) : Moves C S s (t.guardRecord c r x y z) := by
  unfold State.guardRecord
  dsimp only
  split
  · split
    · exact h.modAcc _ _
    · exact (h.modAcc _ _).handTrips _ _ _ _ _ _
  · split
    · exact h.modAcc _ _
    · exact (h.modAcc _ _).handTrips _ _ _ _ _ _

theorem countRecord (h : Moves C S s t) (c : Nat) (r : Run) (x y z : Nat)
    (hall : ∀ c, C c := by solve_by_elim) (hs : S := by solve_by_elim) : Moves C S s (t.countRecord c r x y z) :=
  ((h.guardRecord _ _ _ _ _).modLot _ _).event _ _

theorem overcount (h : Moves C S s t) (k : Nat) (hall : ∀ c, C c := by solve_by_elim) (hs : S := by solve_by_elim) :
    Moves C S s (t.overcount k) := (h.modAcc _ _).placeHold _ _

theorem settleRecord (h : Moves C S s t) (c : Nat) (d : Drop) (x y z : Nat)
    (hall : ∀ c, C c := by solve_by_elim) (hs : S := by solve_by_elim) : Moves C S s (t.settleRecord c d x y z) := by
  unfold State.settleRecord
  split
  · exact h.countRecord _ _ _ _ _
  · exact (h.overcount _).event _ _
  · exact h.event _ _

theorem stream (h : Moves C S s t) (m : Msg) (b : BinBody) (d : Drop) (hc : C m.cell.toNat := by solve_by_elim) : Moves
    C S s (t.stream m b d) := by
  unfold State.stream
  split
  · exact h.clearCtx _
  · split
    · exact h.modCell _ _
    · exact h

theorem takeBin (h : Moves C S s t) (m : Msg) (hall : ∀ c, C c := by solve_by_elim) (hs : S := by solve_by_elim) : Moves
    C S s (t.takeBin m) := by
  unfold State.takeBin
  split
  · exact (h.event _ _).forward _ _ _
  · dsimp only
    apply forward
    split
    · exact h.settleRecord _ _ _ _ _
    · exact (h.settleRecord _ _ _ _ _).stream _ _ _

theorem compactRecords (c : Nat) (l : List CompactRec)
    (hall : ∀ c, C c := by solve_by_elim) (hs : S := by solve_by_elim) :
    ∀ {t : State} (e : Bool), Moves C S s t → Moves C S s (t.compactRecords c e l).1 := by
  induction l with
  | nil => intro t e h; exact h
  | cons x rest ih =>
    intro t e h
    unfold State.compactRecords
    dsimp only
    apply ih
    split
    · exact (h.settleRecord _ _ _ _ _).clearCtx _
    · exact h.settleRecord _ _ _ _ _

theorem takeCompact (h : Moves C S s t) (m : Msg)
    (hall : ∀ c, C c := by solve_by_elim) (hs : S := by solve_by_elim) : Moves C S s (t.takeCompact m) := by
  unfold State.takeCompact
  split
  · exact (h.event _ _).forward _ _ _
  · dsimp only
    split
    · exact (compactRecords _ _ hall hs _ h).forward _ _ _
    · exact (foldl _ (fun _ h => h.event _ _) _ h).forward _ _ _

/-! ### Dispatch -/

theorem pair (h : Moves C S s t) (k : Nat) (l : Lot) (c : Nat)
    (hc : C c := by solve_by_elim) (hs : S := by solve_by_elim) : Moves C S s (t.pair k l c) :=
  ((((h.leaveQueue _).setLotState _ _).pushRun _ _).enterSetup _).event _ _

theorem preempt (h : Moves C S s t) (k : Nat) (l : Lot) (c : Nat)
    (hc : C c := by solve_by_elim) (hs : S := by solve_by_elim) : Moves C S s (t.preempt k l c) :=
  (((((h.leaveQueue _).setLotState _ _).modCell _ _).requestStop _ _).event _ _).event _ _

theorem walkMember (h : Moves C S s t) (u : List Nat) (m : Member)
    (hall : ∀ c, C c := by solve_by_elim) (hs : S := by solve_by_elim) : Moves C S s (t.walkMember u m).1 := by
  unfold State.walkMember
  split
  · exact h
  · split
    · exact h.pair _ _ _
    · split
      · split
        · exact h.preempt _ _ _
        · exact h
      · exact h

theorem walk (l : List Member) (hall : ∀ c, C c := by solve_by_elim) (hs : S := by solve_by_elim) : ∀ {t : State}
    (u : List Nat), Moves C S s t → Moves C S s (t.walk u l) := by
  induction l with
  | nil => intro t u h; exact h
  | cons m rest ih => intro t u h; exact ih _ (h.walkMember _ _)

theorem dispatchPass (h : Moves C S s t) (hall : ∀ c, C c := by solve_by_elim) (hs : S := by solve_by_elim) : Moves C S
    s t.dispatchPass := by
  unfold State.dispatchPass
  split
  · exact h
  · exact walk _ hall hs _ h

theorem settle (h : Moves C S s t) (hall : ∀ c, C c := by solve_by_elim) (hs : S := by solve_by_elim) : Moves C S s
    t.settle := by
  unfold State.settle
  split
  · exact h.dispatchPass.step (.due false)
  · exact h

theorem judgeLapse (h : Moves C S s t) (c : Nat) (hc : C c := by solve_by_elim) (hs : S := by solve_by_elim) : Moves C S
    s (t.judgeLapse c) := by
  unfold State.judgeLapse
  split
  · split
    · exact h.requestStop _ _
    · exact h.requestStop _ _
    · exact h.requestStop _ _
    · exact h.abandonSetup _
    all_goals exact h
  · exact h

theorem judgeLapses (h : Moves C S s t) (hall : ∀ c, C c := by solve_by_elim) (hs : S := by solve_by_elim) : Moves C S s
    t.judgeLapses := foldl _ (fun _ h => h.judgeLapse _) _ h

/-! ### Cell messages -/

theorem toReady (h : Moves C S s t) (c : Nat) (b : Bool) (hc : C c := by solve_by_elim) : Moves C S s (t.toReady c b) := by
  unfold State.toReady
  split
  · exact h.toIdle _
  · exact h.toOffline _

theorem equipmentRestart (h : Moves C S s t) (c : Nat) (b : StatusBody)
    (hc : C c := by solve_by_elim) (hs : S := by solve_by_elim) : Moves C S s (t.equipmentRestart c b) := by
  unfold State.equipmentRestart
  dsimp only
  generalize hu : State.detach _ c = u
  have h1 : Moves C S s u := by
    subst hu
    apply detach (hc := hc)
    split
    · exact h.placeQuiet _ _
    · exact h.placeQuiet _ _
    · exact h.placeQuiet _ _
    · exact h.placeQuiet _ _
    · exact h
  split
  · exact h1.toFault _ _ _
  · exact h1.toReady _ _

theorem statusInFault (h : Moves C S s t) (c : Nat) (b : StatusBody)
    (hc : C c := by solve_by_elim) (hs : S := by solve_by_elim) : Moves C S s (t.statusInFault c b) := by
  unfold State.statusInFault
  split
  · split
    · exact h.order _ _ _
    · exact h.toFault _ _ _
  · split
    · exact h.toReady _ _
    · exact h

theorem statusState (h : Moves C S s t) (c : Nat) (b : StatusBody)
    (hc : C c := by solve_by_elim) (hs : S := by solve_by_elim) : Moves C S s (t.statusState c b) := by
  unfold State.statusState
  split
  · split
    · exact h.toFault _ _ _
    · split
      · exact h.toIdle _
      · exact h
  · split
    · exact h.toFault _ _ _
    · split
      · exact h
      · exact h.toOffline _
  · split
    · exact (h.detach _).toFault _ _ _
    · exact h
  · exact h.statusInFault _ _
  · split
    · exact h.modCell _ _
    · exact h
  · split
    · exact h.toRunning _
    · exact h
  · exact h
  · exact h

theorem statusItems (h : Moves C S s t) (c : Nat) (hc : C c := by solve_by_elim) (hs : S := by solve_by_elim) : Moves C
    S s (t.statusItems c) := by
  unfold State.statusItems
  split
  · exact (h.modCell _ _).checkSetup _
  · exact h

theorem takeExpiry (h : Moves C S s t) (c : Nat) (e : Option Nat)
    (hc : C c := by solve_by_elim) (hs : S := by solve_by_elim) : Moves C S s (t.takeExpiry c e) := by
  unfold State.takeExpiry
  split
  · exact h
  · exact ((h.modCell _ _).judgeLapse _).startPass

theorem sendMask (h : Moves C S s t) (c : Nat) (hc : C c := by solve_by_elim) (hs : S := by solve_by_elim) : Moves C S s
    (t.sendMask c) := (h.modCell _ _).order _ _ _

theorem restoreSites (h : Moves C S s t) (c : Nat) (hc : C c := by solve_by_elim) (hs : S := by solve_by_elim) : Moves C
    S s (t.restoreSites c) := by
  unfold State.restoreSites
  dsimp only
  split
  · exact ((h.modCell _ _).sendMask _).startPass
  · exact (h.modCell _ _).sendMask _

theorem compareSites (h : Moves C S s t) (c : Nat) (m : Mask16)
    (hc : C c := by solve_by_elim) (hs : S := by solve_by_elim) : Moves C S s (t.compareSites c m) := by
  unfold State.compareSites
  split
  · exact h.modCell _ _
  · exact h.sendMask _

theorem restartSilence (h : Moves C S s t) (c : Nat) (hc : C c := by solve_by_elim) : Moves C S s (t.restartSilence c)
    := h.modTimers _ _

theorem acceptStatus (h : Moves C S s t) (c : Nat) (b : StatusBody)
    (hc : C c := by solve_by_elim) (hs : S := by solve_by_elim) : Moves C S s (t.acceptStatus c b) := by
  have h1 : Moves C S s (if b.restarted then t.clearOrder c else t) := by
    split
    · exact h.clearOrder _
    · exact h
  have h2 : Moves C S s (if (b.restarted && (t.cell c).holdsRun) = true then
      (if b.restarted then t.clearOrder c else t).equipmentRestart c b
      else (if b.restarted then t.clearOrder c else t).statusState c b) := by
    split
    · exact h1.equipmentRestart _ _
    · exact h1.statusState _ _
  have h3 := h2.modCell c (recordEquipment b (t.cell c).state (b.restarted && (t.cell c).holdsRun))
  unfold State.acceptStatus
  dsimp only
  apply restartSilence (hc := hc)
  split
  · apply restoreSites (hc := hc) (hs := hs)
    apply takeExpiry (hc := hc) (hs := hs)
    split
    · exact h3.statusItems _
    · exact h3
  · apply compareSites (hc := hc) (hs := hs)
    apply takeExpiry (hc := hc) (hs := hs)
    split
    · exact h3.statusItems _
    · exact h3

theorem takeStatus (h : Moves C S s t) (m : Msg)
    (hc : C m.cell.toNat := by solve_by_elim) (hs : S := by solve_by_elim) : Moves C S s (t.takeStatus m) := by
  unfold State.takeStatus
  split
  · split
    · exact h.acceptStatus _ _
    · exact h
  · exact h

theorem completeLoad (h : Moves C S s t) (c : Nat) (hc : C c := by solve_by_elim) : Moves C S s (t.completeLoad c) :=
    h.modCell _ _

theorem rejudgeLoad (h : Moves C S s t) (c : Nat) (hc : C c := by solve_by_elim) (hs : S := by solve_by_elim) : Moves C
    S s (t.rejudgeLoad c) := by
  unfold State.rejudgeLoad
  split
  · dsimp only
    split
    · exact h.startLoad _ _ _
    · exact (h.completeLoad _).checkSetup _
  · exact h

theorem loadAnswer (h : Moves C S s t) (c : Nat) (ok : Bool) (v w : ProgVals)
    (hc : C c := by solve_by_elim) (hs : S := by solve_by_elim) : Moves C S s (t.loadAnswer c ok v w) := by
  unfold State.loadAnswer
  dsimp only
  split
  · exact ((((h.clearOrder _).modCell _ _).modTimers _ _).completeLoad _).checkSetup _
  · exact (((h.clearOrder _).modCell _ _).modTimers _ _).setupFailure _ _

theorem acceptLoadDone (h : Moves C S s t) (c : Nat) (ok : Bool) (v : ProgVals)
    (hc : C c := by solve_by_elim) (hs : S := by solve_by_elim) : Moves C S s (t.acceptLoadDone c ok v) := by
  unfold State.acceptLoadDone
  split
  · split
    · exact h.loadAnswer _ _ _ _
    · exact ((h.clearOrder _).modCell _ _).rejudgeLoad _
  · split
    · exact h.modCell _ _
    · exact h

theorem takeLoadDone (h : Moves C S s t) (m : Msg)
    (hc : C m.cell.toNat := by solve_by_elim) (hs : S := by solve_by_elim) : Moves C S s (t.takeLoadDone m) := by
  unfold State.takeLoadDone
  split
  · split
    · exact h.acceptLoadDone _ _ _
    · exact h
  · exact h

/-! ### Run events -/

theorem countDrop (h : Moves C S s t) (c : Nat) (d : Drop) (hc : C c := by solve_by_elim) : Moves C S s
    (t.countDrop c d) := h.modCell _ _

theorem runEvent (h : Moves C S s t) (m : Msg) (p : Option Pass) (k : Cell → Run → Bool) (act : State → Nat → Run → State)
    (ha : ∀ {u : State} (r : Run), Moves C S s u → Moves C S s (act u m.cell.toNat r))
    (hc : C m.cell.toNat := by solve_by_elim) : Moves C S s (t.runEvent m p k act) := by
  unfold State.runEvent
  dsimp only
  split
  · split
    · exact ha _ (h.modLot _ _)
    · exact h.countDrop _ _
  · exact h
  · exact h.countDrop _ _

theorem startRun (h : Moves C S s t) (c : Nat) (r : Run) (hc : C c := by solve_by_elim) : Moves C S s (t.startRun c r) := by
  unfold State.startRun
  dsimp only
  generalize hu : (if r.segOpen = true then _ else State.openSegment _ c r) = u
  have h1 : Moves C S s u := by
    subst hu
    split
    · exact (h.modTop _ _).modLot _ _
    · exact ((h.modTop _ _).modLot _ _).openSegment _ _
  split
  · exact h1.toRunning _
  · exact h1

theorem takeRunStarted (h : Moves C S s t) (m : Msg) (hc : C m.cell.toNat := by solve_by_elim) : Moves C S s
    (t.takeRunStarted m) := by
  unfold State.takeRunStarted
  split
  · exact h.runEvent _ _ _ _ fun _ h => h.startRun _ _
  · exact h

theorem endStep (h : Moves C S s t) (c : Nat) (r : Run)
    (hc : C c := by solve_by_elim) (hs : S := by solve_by_elim) : Moves C S s (t.endStep c r) :=
  (((h.stepEnd _ _).popTop _).afterTop _).sendLot _ _ _

theorem startRetest (h : Moves C S s t) (c k : Nat) (hc : C c := by solve_by_elim) (hs : S := by solve_by_elim) : Moves
    C S s (t.startRetest c k) := by
  unfold State.startRetest
  dsimp only
  split
  · exact (h.toRetest _ _).sendStart _ _
  · exact h.toRetest _ _

theorem endPass (h : Moves C S s t) (c : Nat) (r : Run) (p : Pass) (n : Nat)
    (hc : C c := by solve_by_elim) (hs : S := by solve_by_elim) : Moves C S s (t.endPass c r p n) := by
  have h1 : Moves C S s (if (t.cell c).state = .starting then t.startRun c r else t) := by
    split
    · exact h.startRun _ _
    · exact h
  unfold State.endPass
  dsimp only
  generalize (if (t.cell c).state = .starting then t.startRun c r else t) = u at h1 ⊢
  split
  · exact (h1.clearCtx _).modAcc _ _
  · split
    · exact ((h1.clearCtx _).modAcc _ _).startRetest _ _
    · exact ((h1.clearCtx _).modAcc _ _).endStep _ _

theorem markPassEnd (h : Moves C S s t) (c : Nat) (r : Run) (p : Pass) (n : Nat) (hc : C c := by solve_by_elim) : Moves
    C S s (t.markPassEnd c r p n) := by
  unfold State.markPassEnd
  dsimp only
  split
  · exact (h.startRun _ _).modTop _ _
  · exact h.modTop _ _

theorem takePassEnd (h : Moves C S s t) (m : Msg)
    (hc : C m.cell.toNat := by solve_by_elim) (hs : S := by solve_by_elim) : Moves C S s (t.takePassEnd m) := by
  unfold State.takePassEnd
  split
  · refine h.runEvent _ _ _ _ fun r h => ?_
    split
    · exact h.markPassEnd _ _ _ _
    · exact h.endPass _ _ _ _
  · exact h

theorem closeTop (h : Moves C S s t) (c : Nat) (x : CloseCause) (hc : C c := by solve_by_elim) : Moves C S s
    (t.closeTop c x) := by
  unfold State.closeTop
  split
  · exact h.closeIfOpen _ _ _
  · exact h

theorem settleStop (h : Moves C S s t) (c k : Nat) (b : Bool) (x : CloseCause)
    (hc : C c := by solve_by_elim) (hs : S := by solve_by_elim) : Moves C S s (t.settleStop c k b x) :=
  (((h.closeTop _ _).popTop _).sendLot _ _ _).afterTop _

theorem takeIncoming (h : Moves C S s t) (c : Nat) (hc : C c := by solve_by_elim) : Moves C S s (t.takeIncoming c) := by
  unfold State.takeIncoming
  split
  · exact (h.modCell _ _).pushRun _ _
  · exact h

theorem settlePreempt (h : Moves C S s t) (c k : Nat) (b : Bool)
    (hc : C c := by solve_by_elim) (hs : S := by solve_by_elim) : Moves C S s (t.settlePreempt c k b) := by
  unfold State.settlePreempt
  apply afterTop (hc := hc) (hs := hs)
  apply takeIncoming (hc := hc)
  split
  · exact ((h.closeTop _ _).popTop _).toHeld _
  · split
    · exact (h.popTop _).passOn _
    · exact h.setLotState _ _

theorem endStop (h : Moves C S s t) (c : Nat) (r : Run)
    (hc : C c := by solve_by_elim) (hs : S := by solve_by_elim) : Moves C S s (t.endStop c r) := by
  unfold State.endStop
  dsimp only
  split
  · exact ((((h.clearCtx _).modTop _ _).modTimers _ _).settleStopped _).settlePreempt _ _ _
  · exact ((((h.clearCtx _).modTop _ _).modTimers _ _).settleStopped _).settleStop _ _ _ _

theorem unorderedStop (h : Moves C S s t) (c : Nat) (r : Run)
    (hc : C c := by solve_by_elim) (hs : S := by solve_by_elim) : Moves C S s (t.unorderedStop c r) :=
  ((h.clearCtx _).modTop _ _).settleStop _ _ _ _

theorem takeRunStopped (h : Moves C S s t) (m : Msg)
    (hc : C m.cell.toNat := by solve_by_elim) (hs : S := by solve_by_elim) : Moves C S s (t.takeRunStopped m) := by
  unfold State.takeRunStopped
  split
  · refine h.runEvent _ _ _ _ fun r h => ?_
    split
    · exact h.endStop _ _
    · exact h.unorderedStop _ _
  · exact h

/-! ### Expiries -/

theorem fallSilent (h : Moves C S s t) (c : Nat) (hc : C c := by solve_by_elim) : Moves C S s (t.fallSilent c) :=
    (h.detach _).toOffline _

theorem stopExpired (h : Moves C S s t) (c : Nat) (hc : C c := by solve_by_elim) : Moves C S s (t.stopExpired c) :=
    (h.detach _).toFault _ _ _
end Moves

/-- Changes of any cell, with orders. -/
abbrev AnyMoves : State → State → Prop := Moves (fun _ => True) True

/-! ### Relations that every step keeps -/

/-- A relation of two states that holds for each part of a step: for a change that leaves the cells and the ordered
lists, and
for each operation of the cell tracker, the dispatch arbiter, the hold unit and the release unit that a command is made
  of. -/
structure Closed (R : State → State → Prop) : Prop where
  refl (s : State) : R s s
  trans {s t u : State} : R s t → R t u → R s u
  blocks {s t : State} (h : (t.ctr, t.dar.queue, t.rlu) = (s.ctr, s.dar.queue, s.rlu)) : R s t
  emptied {s t : State} (h : (t.dar.queue, t.rlu) = ([], ⟨[], []⟩)) (hc : t.ctr = resetCells t.tst) : R s t
  cellsReset {s t : State} (h : (t.dar.queue, t.rlu) = (s.dar.queue, s.rlu)) (hc : t.ctr = resetCells t.tst) : R s t
  cellReset (s : State) (c : Nat) (reg : Option Registration) : R s (s.modCell c fun _ => resetCell reg)
  cleared (s : State) (image : Image) (free : Nat) (level : Level) : R s (State.hardReset s.pending image free
    s.pcl.floorLink
    s.pcl.plantLink level)
  shipLeaves (s : State) (p : Record → Bool) : R s { s with rlu := { s.rlu with ship := s.rlu.ship.filter p } }
  joinQueue (s : State) (h : Nat) (new : Bool) : R s (s.joinQueue h new)
  placeHold (s : State) (h : Nat) (n : NewHold) : R s (s.placeHold h n)
  leaveHold (s : State) (h : Nat) : R s (s.leaveHold h)
  releasePending (s : State) (n : Nat) : R s (s.releasePending n)
  judgeLapses (s : State) : R s s.judgeLapses
  settle (s : State) : R s s.settle
  tickTimers (s : State) : R s s.tickTimers
  takeTimeout (s : State) (c : Nat) (t : CellTimer) : R s (s.takeTimeout c t)
  takeStatus (s : State) (m : Msg) : R s (s.takeStatus m)
  takeLoadDone (s : State) (m : Msg) : R s (s.takeLoadDone m)
  takeRunStarted (s : State) (m : Msg) : R s (s.takeRunStarted m)
  takePassEnd (s : State) (m : Msg) : R s (s.takePassEnd m)
  takeRunStopped (s : State) (m : Msg) : R s (s.takeRunStopped m)
  takeBin (s : State) (m : Msg) : R s (s.takeBin m)
  takeCompact (s : State) (m : Msg) : R s (s.takeCompact m)

namespace Closed

variable {R : State → State → Prop} {s t u : State} (hR : Closed R)

include hR

theorem after (k : R t u) (h : R s t) : R s u := hR.trans h k

/-- A change that leaves the cells and the lists, as the `simp` lemmas of the operations say. -/
theorem frames (h : t.ctr = s.ctr) (hd : t.dar = s.dar) (hl : t.rlu = s.rlu) : R s t := hR.blocks (by rw [h, hd, hl])

theorem enqueue (p : Port) (f : Frame) : R s (s.enqueue p f) := hR.frames (by simp) (by simp) (by simp)

theorem reply (k : Code16) (r : ReqRef) (c : ReplyCode) (b : ReplyBody) : R s (s.reply k r c b) :=
  hR.enqueue .plant _

theorem notice (b : NoticeBody) : R s (s.notice b) := hR.frames (by simp) (by simp) (by simp)

theorem startPass (s : State) : R s s.startPass := hR.blocks rfl

theorem foldl {β : Type} (f : State → β → State) (hf : ∀ (t : State) (b : β), R t (f t b)) (l : List β) :
    ∀ s : State, R s (l.foldl f s) := by
  induction l with
  | nil => exact hR.refl
  | cons b l ih => exact fun s => hR.trans (hf s b) (ih _)

/-! Traffic -/

theorem forwardOnly (kind : Code16) (m : Msg) : R s (s.forwardOnly kind m) := by
  unfold State.forwardOnly
  refine hR.after (hR.enqueue .plant _) ?_
  split
  · exact hR.blocks rfl
  · exact hR.refl s

theorem toCell (kind : Code16) (m : Msg) : R s (s.toCell kind m) := by
  unfold State.toCell
  dsimp only
  split
  · split
    · exact hR.blocks rfl
    · exact hR.after (hR.notice _) (hR.blocks rfl)
  · exact hR.enqueue _ _

theorem misdirect : R s s.misdirect := by
  unfold State.misdirect
  split
  · exact hR.refl s
  · exact hR.blocks rfl

theorem countMalformed (port : Port) : R s (s.countMalformed port) := by
  cases port with
  | floor => exact hR.blocks rfl
  | plant => exact hR.blocks rfl

/-! Lots, holds and groups -/

theorem createLot (b : OrderBody) (h : Nat) : R s (s.createLot b h) := by
  unfold State.createLot
  dsimp only
  split
  · exact hR.frames (by simp) (by simp) (by simp)
  · exact hR.after (hR.joinQueue _ _ _) (hR.blocks rfl)

theorem freeSlot (h : Nat) : R s (s.freeSlot h) := by
  unfold State.freeSlot
  split
  · exact hR.refl s
  · exact hR.blocks rfl

theorem groupRequest {kind : Code16} {ref : ReqRef} {rest : List Byte} {take : Nat → State → State}
    (h : ∀ g, R s (take g s)) : R s (s.groupRequest kind ref rest take) := by
  unfold State.groupRequest
  split
  · exact hR.reply _ _ _ _
  · split
    · exact hR.reply _ _ _ _
    · exact h _

theorem takeLotOrder (ref : ReqRef) (rest : List Byte) : R s (takeLotOrder ref rest s) := by
  unfold Machine.takeLotOrder
  split
  · exact hR.reply _ _ _ _
  · split
    · exact hR.trans (hR.createLot _ _) (hR.reply _ _ _ _)
    · exact hR.reply _ _ _ _

theorem takeSweep (ref : ReqRef) (rest : List Byte) : R s (takeSweep ref rest s) :=
  hR.groupRequest fun g =>
    hR.trans (hR.foldl (fun (v : State) h => v.modLot h fun l => { l with mark := false }) (fun _ _ => hR.blocks rfl)
      (groupHandles g) s)
      (hR.reply _ _ _ _)

theorem holdReply (ref : ReqRef) : R s (s.holdReply ref) := by
  unfold State.holdReply
  split
  · exact hR.refl s
  · exact hR.reply _ _ _ _

theorem takeHold (ref : ReqRef) (rest : List Byte) : R s (takeHold ref rest s) := by
  unfold Machine.takeHold
  split
  · exact hR.reply _ _ _ _
  · split
    · split
      · exact hR.reply _ _ _ _
      · exact hR.trans (hR.placeHold _ _ _) (hR.holdReply _)
    · exact hR.reply _ _ _ _

theorem releaseReply (ref : ReqRef) : R s (s.releaseReply ref) := by
  unfold State.releaseReply
  split
  · exact hR.refl s
  · exact hR.reply _ _ _ _

theorem releaseEntry (ref : ReqRef) (reason : HoldReason) (effect : Lot → Lot) : R s (s.releaseEntry ref reason effect) := by
  refine hR.after (hR.releaseReply ref) ?_
  refine hR.after (hR.leaveHold _ _) ?_
  exact hR.frames (by simp) (by simp) (by simp)

theorem scrapLot (ref : ReqRef) (l : Lot) : R s (s.scrapLot ref l) := by
  refine hR.trans ?_ (hR.reply _ _ _ _)
  refine hR.trans ?_ (hR.freeSlot _)
  refine hR.trans ?_ (hR.notice _)
  exact hR.foldl (fun (v : State) (e : HoldEntry) => v.removeEntry ref.handle e.reason) (fun _ _ => hR.blocks rfl) l.holds s

theorem dispose (ref : ReqRef) (l : Lot) (reason : HoldReason) (d : Disposition) : R s (s.dispose ref l reason d) := by
  cases d with
  | continue_ =>
    unfold State.dispose
    dsimp only
    split
    · exact hR.releaseEntry _ _ _
    · exact hR.refl s
  | rework => exact hR.releaseEntry _ _ _
  | scrap => exact hR.scrapLot _ _

theorem takeRelease (ref : ReqRef) (rest : List Byte) : R s (takeRelease ref rest s) := by
  unfold Machine.takeRelease
  split
  · exact hR.reply _ _ _ _
  · split
    · split
      · exact hR.dispose _ _ _ _
      · exact hR.reply _ _ _ _
    · exact hR.reply _ _ _ _

theorem takeGroupHold (ref : ReqRef) (rest : List Byte) : R s (takeGroupHold ref rest s) := by
  refine hR.groupRequest fun g => ?_
  split
  · exact hR.reply _ _ _ _
  · refine hR.trans ?_ (hR.reply _ _ _ _)
    exact hR.after (hR.foldl _ (fun _ _ => hR.placeHold _ _ _) _ _) (hR.blocks rfl)

theorem dropFamily (h : Nat) : R s (s.dropFamily h) := by
  refine hR.after (hR.leaveHold _ _) ?_
  exact hR.blocks rfl

theorem takeGroupRelease (ref : ReqRef) (rest : List Byte) : R s (takeGroupRelease ref rest s) := by
  refine hR.groupRequest fun g => ?_
  split
  · exact hR.reply _ _ _ _
  · refine hR.trans ?_ (hR.reply _ _ _ _)
    exact hR.after (hR.foldl _ (fun _ _ => hR.dropFamily _) _ _) (hR.blocks rfl)

theorem takeGroupRetire (ref : ReqRef) (rest : List Byte) : R s (takeGroupRetire ref rest s) :=
  hR.groupRequest fun _ => hR.after (hR.reply _ _ _ _) (hR.blocks rfl)

theorem confirm (ref : ReqRef) : R s (s.confirm ref) := by
  refine hR.trans ?_ (hR.reply _ _ _ _)
  refine hR.trans ?_ (hR.releasePending _ _)
  exact hR.trans (hR.shipLeaves s _) (hR.freeSlot _)

theorem takeShipConfirm (ref : ReqRef) (rest : List Byte) : R s (takeShipConfirm ref rest s) := by
  unfold Machine.takeShipConfirm
  split
  · exact hR.reply _ _ _ _
  · split
    · split
      · exact hR.confirm _
      · exact hR.reply _ _ _ _
    · exact hR.reply _ _ _ _

/-! Time, queries and tables -/

theorem setTime (v : Nat) : R s (s.setTime v) := by
  unfold State.setTime
  exact hR.after (hR.judgeLapses _) (hR.blocks rfl)

theorem offerTime (v : Nat) : R s (s.offerTime v) := by
  unfold State.offerTime
  split
  · exact hR.trans (hR.setTime v) (hR.startPass _)
  · split_ifs
    · exact hR.blocks rfl
    · exact hR.refl s
    · exact hR.setTime v

theorem takeTime (ref : ReqRef) (rest : List Byte) : R s (takeTime ref rest s) := by
  unfold Machine.takeTime
  split
  · exact hR.reply _ _ _ _
  · exact hR.trans (hR.offerTime _) (hR.reply _ _ _ _)

theorem queryCounters (ref : ReqRef) (clear : Bool) : R s (s.queryCounters ref clear) := by
  refine hR.trans ?_ (hR.reply _ _ _ _)
  split
  · exact hR.blocks rfl
  · exact hR.refl s

theorem takeQuery (ref : ReqRef) (rest : List Byte) : R s (takeQuery ref rest s) := by
  unfold Machine.takeQuery
  split
  · exact hR.reply _ _ _ _
  · unfold State.queryLot
    split <;> exact hR.reply _ _ _ _
  · unfold State.queryCell
    split <;> exact hR.reply _ _ _ _
  · exact hR.reply _ _ _ _
  · exact hR.reply _ _ _ _
  · exact hR.queryCounters _ _
  · exact hR.reply _ _ _ _

theorem judgeLine : R s s.judgeLine := by
  unfold State.judgeLine
  dsimp only
  split
  · exact hR.blocks rfl
  · exact hR.blocks rfl

theorem writeSetting (entry v : Nat) : R s (s.writeSetting entry v) := by
  unfold State.writeSetting
  dsimp only
  split
  · exact hR.after hR.judgeLine (hR.blocks rfl)
  · exact hR.blocks rfl

theorem writeRegistration (entry : Nat) (new : Option Registration) : R s (s.writeRegistration entry new) := by
  unfold State.writeRegistration
  dsimp only
  split
  · exact hR.after (hR.cellReset _ _ _) (hR.blocks rfl)
  · exact hR.blocks rfl

theorem writeActive (table entry : Nat) (e : Option Entry) : R s (s.writeActive table entry e) := by
  unfold State.writeActive
  split
  case h_1 => exact hR.writeSetting _ _
  case h_12 => exact hR.writeRegistration _ _
  case h_13 => exact hR.writeRegistration _ _
  all_goals exact hR.blocks rfl

theorem takeTableWrite (ref : ReqRef) (rest : List Byte) : R s (takeTableWrite ref rest s) := by
  unfold Machine.takeTableWrite
  split
  · exact hR.reply _ _ _ _
  · split
    · split
      · unfold State.writeNow
        split
        · exact hR.reply _ _ _ _
        · exact hR.trans (hR.writeActive _ _ _) (hR.enqueue _ _)
      · unfold State.writeLater
        split
        · exact hR.reply _ _ _ _
        · exact hR.blocks rfl
    · exact hR.reply _ _ _ _
    · exact hR.reply _ _ _ _

theorem takeTableRead (ref : ReqRef) (rest : List Byte) : R s (takeTableRead ref rest s) := by
  unfold Machine.takeTableRead
  split
  · exact hR.reply _ _ _ _
  · split_ifs
    · exact hR.reply _ _ _ _
    · exact hR.reply _ _ _ _
    · exact hR.reply _ _ _ _
    · unfold State.readLater
      split
      · exact hR.reply _ _ _ _
      · exact hR.blocks rfl

/-! The store and the resets -/

theorem endRead : R s s.endRead := by
  unfold State.endRead
  split
  · dsimp only
    exact hR.after (hR.reply _ _ _ _) (hR.blocks rfl)
  · exact hR.refl s

theorem endPhase : R s s.endPhase := by
  unfold State.endPhase
  split
  · exact hR.blocks rfl
  · exact hR.blocks rfl
  · exact hR.refl s

theorem failWrite (ref : ReqRef) (table entry phase : Nat) : R s (s.failWrite ref table entry phase) := by
  unfold State.failWrite
  exact hR.after (hR.reply _ _ _ _) (hR.blocks rfl)

theorem completeWrite (agrees : Bool) : R s (s.completeWrite agrees) := by
  unfold State.completeWrite
  split
  · split
    · exact hR.after (hR.reply _ _ _ _) (hR.blocks rfl)
    · exact hR.failWrite _ _ _ _
  · exact hR.refl s

theorem imageBad (cause : Option BadCause) : R s (s.imageBad cause) := by
  cases cause with
  | none => exact hR.refl s
  | some cause => exact hR.notice _

theorem startUp (cause : Option BadCause) : R s (s.startUp cause) := by
  refine hR.trans ?_ (hR.imageBad cause)
  refine hR.trans ?_ (hR.notice _)
  exact hR.cellsReset rfl rfl

theorem reread (ref : ReqRef) (cause : Option BadCause) : R s (s.reread ref cause) := by
  refine hR.trans ?_ (hR.imageBad cause)
  refine hR.trans ?_ (hR.notice _)
  refine hR.trans ?_ (hR.reply _ _ _ _)
  cases cause with
  | none => exact hR.cellsReset rfl rfl
  | some cause => exact hR.blocks rfl

theorem noAnswer : R s s.noAnswer := by
  unfold State.noAnswer
  split
  · exact hR.startUp _
  · exact hR.reread _ _
  · split
    · exact hR.after (hR.reply _ _ _ _) (hR.blocks rfl)
    · exact hR.failWrite _ _ _ _
    · exact hR.refl s

theorem takeRestart (ref : ReqRef) (rest : List Byte) : R s (takeRestart ref rest s) := by
  unfold Machine.takeRestart
  split
  · exact hR.reply _ _ _ _
  · split_ifs
    · exact hR.reply _ _ _ _
    · exact hR.emptied rfl rfl
    · exact hR.trans (t := s.softReset) (hR.emptied rfl rfl) (hR.trans (hR.reply _ _ _ _) (hR.notice _))

/-- Every effect of a command. -/
theorem effect (h : Effect s u) : R s u := by
  cases h with
  | forwarded kind m => exact hR.enqueue _ _
  | status kind m => exact hR.trans (hR.takeStatus _ m) (hR.enqueue _ _)
  | loadDone kind m => exact hR.trans (hR.takeLoadDone _ m) (hR.enqueue _ _)
  | runStarted kind m => exact hR.trans (hR.takeRunStarted _ m) (hR.enqueue _ _)
  | passEnd kind m => exact hR.trans (hR.takePassEnd _ m) (hR.enqueue _ _)
  | runStopped kind m => exact hR.trans (hR.takeRunStopped _ m) (hR.enqueue _ _)
  | bin m => exact hR.takeBin _ m
  | binCompact m => exact hR.takeCompact _ m
  | forwardOnly kind m => exact hR.forwardOnly kind m
  | toCell kind m => exact hR.toCell kind m
  | misdirect => exact hR.misdirect
  | malformed port => exact hR.countMalformed port
  | passedThrough port f => exact hR.enqueue _ _
  | startupDrop => exact hR.blocks rfl
  | notManager => exact hR.blocks rfl
  | replied kind ref => exact hR.reply _ _ _ _
  | lotOrder ref rest => exact hR.takeLotOrder ref rest
  | sweep ref rest => exact hR.takeSweep ref rest
  | tableWrite ref rest => exact hR.takeTableWrite ref rest
  | tableRead ref rest => exact hR.takeTableRead ref rest
  | hold ref rest => exact hR.takeHold ref rest
  | release ref rest => exact hR.takeRelease ref rest
  | groupHold ref rest => exact hR.takeGroupHold ref rest
  | groupRelease ref rest => exact hR.takeGroupRelease ref rest
  | groupRetire ref rest => exact hR.takeGroupRetire ref rest
  | shipConfirm ref rest => exact hR.takeShipConfirm ref rest
  | query ref rest => exact hR.takeQuery ref rest
  | time ref rest => exact hR.takeTime ref rest
  | restart ref rest => exact hR.takeRestart ref rest
  | readEnd => exact hR.endRead
  | phaseEnd => exact hR.endPhase
  | writeEnd agrees => exact hR.completeWrite agrees
  | loaded cause => exact hR.startUp cause
  | reread ref cause => exact hR.reread ref cause
  | noAnswer => exact hR.noAnswer
  | line level => exact hR.after hR.judgeLine (hR.blocks rfl)

theorem sampleAfter (taken : List (Fin 48 × CellTimer)) (s : State) : R s (s.sampleAfter taken) :=
  hR.trans (hR.foldl (fun (t : State) (x : Fin 48 × CellTimer) => t.takeTimeout x.1.val x.2)
    (fun _ _ => hR.takeTimeout _ _ _) taken s) (hR.blocks rfl)

theorem tickTime (s : State) : R s s.tickTime := by
  unfold State.tickTime
  split
  · exact hR.refl s
  · dsimp only
    split
    · exact hR.blocks rfl
    · exact hR.after (hR.judgeLapses _) (hR.blocks rfl)

theorem second (s : State) (sampling : Sampling) : R s (s.second sampling) := by
  refine hR.trans (hR.tickTimers s) ?_
  unfold State.second
  dsimp only
  split
  · exact hR.trans (hR.sampleAfter _ _) (hR.trans (hR.tickTime _) (hR.settle _))
  · exact hR.trans (hR.tickTime _) (hR.trans (hR.sampleAfter _ _) (hR.settle _))
  · exact hR.trans (hR.tickTime _) (hR.trans (hR.settle _) (hR.sampleAfter _ _))

theorem sendFloor : R s s.sendFloor := by
  unfold State.sendFloor
  split
  · split
    · exact hR.blocks rfl
    · exact hR.refl s
  · exact hR.refl s

theorem sendPlant : R s s.sendPlant := by
  unfold State.sendPlant
  split
  · split
    · exact hR.blocks rfl
    · exact hR.refl s
  · exact hR.refl s

/-- Every next state of one command. -/
theorem next (h : Next s t) : R s t := by
  cases h with
  | stays => exact hR.refl s
  | settles h => exact hR.trans (hR.effect h) (hR.settle _)
  | hardReset image free => exact hR.cleared s image free _
  | resetRelease => exact hR.blocks rfl
  | second sampling => exact hR.second s sampling
  | timeout c t => exact hR.takeTimeout s c.val t
  | inhibitIn level => exact hR.blocks rfl
  | floorLink up => exact hR.blocks rfl
  | plantLink up => exact hR.blocks rfl
  | sendFloor => exact hR.sendFloor
  | sendPlant => exact hR.sendPlant

end Closed

/-! ### The ordered lists over every step -/

/-- From `s` to `t` the lists that were in order are. -/
def KeepsOrder (s t : State) : Prop := s.ListsOrdered → t.ListsOrdered

theorem AnyMoves.expired (s : State) (c : Nat) (t : CellTimer) : AnyMoves s (s.expired c t) := by
  cases t with
  | silence => exact (Moves.refl s).fallSilent c
  | load => exact (Moves.refl s).setupFailure c _
  | kit => exact (Moves.refl s).setupFailure c _
  | soak => exact (Moves.refl s).setupFailure c _
  | start => exact (Moves.refl s).setupFailure c _
  | stop => exact (Moves.refl s).stopExpired c
  | jam => exact (Moves.refl s).requestStop c _

theorem AnyMoves.takeTimeout (s : State) (c : Nat) (t : CellTimer) : AnyMoves s (s.takeTimeout c t) := by
  unfold State.takeTimeout
  split
  · exact Moves.settle (AnyMoves.expired s c t)
  · exact Moves.refl s

/-- The lists are in order when they are the same, empty, or have had members join and leave. -/
theorem closed_keepsOrder : Closed KeepsOrder where
  refl s := id
  trans h k x := k (h x)
  blocks h := by
    simp only [Prod.mk.injEq] at h
    simp only [KeepsOrder, State.ListsOrdered, h, imp_self]
  emptied h _ := by
    simp only [Prod.mk.injEq] at h
    simp [KeepsOrder, State.ListsOrdered, h, inOrder]
  cellsReset h _ := by
    simp only [Prod.mk.injEq] at h
    simp only [KeepsOrder, State.ListsOrdered, h, imp_self]
  cellReset _ _ _ := id
  cleared _ _ _ _ _ := ⟨.nil, .nil, .nil⟩
  shipLeaves _ _ := fun ⟨hq, hship, hpend⟩ => ⟨hq, inOrder_filter _ hship, hpend⟩
  joinQueue s h new := Moves.listsOrdered (C := fun _ => True) (S := True) ((Moves.refl s).joinQueue h new)
  placeHold s h n := Moves.listsOrdered (C := fun _ => True) (S := True) ((Moves.refl s).placeHold h n)
  leaveHold s h := Moves.listsOrdered (C := fun _ => True) (S := True) ((Moves.refl s).leaveHold h)
  releasePending s n := Moves.listsOrdered (C := fun _ => True) (S := True) (.releasePending n (.refl s))
  judgeLapses s := Moves.listsOrdered (C := fun _ => True) (S := True) (Moves.refl s).judgeLapses
  settle s := Moves.listsOrdered (C := fun _ => True) (S := True) (Moves.refl s).settle
  tickTimers _ := id
  takeTimeout s c t := Moves.listsOrdered (AnyMoves.takeTimeout s c t)
  takeStatus s m := Moves.listsOrdered (C := fun _ => True) (S := True) ((Moves.refl s).takeStatus m)
  takeLoadDone s m := Moves.listsOrdered (C := fun _ => True) (S := True) ((Moves.refl s).takeLoadDone m)
  takeRunStarted s m := Moves.listsOrdered (C := fun _ => True) (S := True) ((Moves.refl s).takeRunStarted m)
  takePassEnd s m := Moves.listsOrdered (C := fun _ => True) (S := True) ((Moves.refl s).takePassEnd m)
  takeRunStopped s m := Moves.listsOrdered (C := fun _ => True) (S := True) ((Moves.refl s).takeRunStopped m)
  takeBin s m := Moves.listsOrdered (C := fun _ => True) (S := True) ((Moves.refl s).takeBin m)
  takeCompact s m := Moves.listsOrdered (C := fun _ => True) (S := True) ((Moves.refl s).takeCompact m)

/-- Settles O6: a member joins each list at the place its keys give it, and one that leaves closes the gap. -/
theorem stepKeepsListsOrdered : Obligations.StepKeepsListsOrdered := fun _ _ h hstep =>
  step_induction (fun _ _ h => h) (fun _ _ h hn => closed_keepsOrder.next hn h) h hstep

end Sys2Proof.Machine
end

section
/-! What the shared operations make of a cell record: the record after each, and what its state allows after it (R38,
R39, R58). -/

namespace Sys2Proof.Machine

set_option Elab.async false

variable {s t u : State} {c d h : Nat}

/-! ### The record of a cell after an update -/

theorem State.cell_modCell (hc : c < 48) (f : Cell → Cell) : (s.modCell c f).cell c = f (s.cell c) :=
  vget_vmod_self _ _ _ hc

theorem State.cell_modCell_ne (hd : d ≠ c) (f : Cell → Cell) : (s.modCell c f).cell d = s.cell d :=
  vget_vmod_ne _ _ _ hd.symm

theorem State.cell_of_ctr (h : t.ctr = s.ctr) (d : Nat) : t.cell d = s.cell d := by
  simp only [State.cell, h]

/-- An operation on lots, frames and lists leaves every cell. -/
theorem Moves.cell_eq (h : Moves (fun _ => False) True s t) (d : Nat) : t.cell d = s.cell d := h.otherCell id

@[simp] theorem State.modLot_cell (k : Nat) (f : Lot → Lot) (d : Nat) : (s.modLot k f).cell d = s.cell d := rfl

@[simp] theorem State.modAcc_cell (k : Nat) (f : Acc → Acc) (d : Nat) : (s.modAcc k f).cell d = s.cell d := rfl

@[simp] theorem State.setLotState_cell (k : Nat) (x : LotState) (d : Nat) : (s.setLotState k x).cell d = s.cell d := rfl

@[simp] theorem State.dropTarget_cell (k d : Nat) : (s.dropTarget k).cell d = s.cell d := rfl

@[simp] theorem State.startPass_cell (d : Nat) : s.startPass.cell d = s.cell d := rfl

@[simp] theorem State.leaveQueue_cell (k d : Nat) : (s.leaveQueue k).cell d = s.cell d := rfl

@[simp] theorem State.event_cell (e : EventSource) (v d : Nat) : (s.event e v).cell d = s.cell d := rfl

@[simp] theorem State.enqueue_cell (p : Port) (f : Frame) (d : Nat) : (s.enqueue p f).cell d = s.cell d :=
  State.cell_of_ctr (by simp) d

@[simp] theorem State.order_cell (k : Nat) (r : Option Run) (o : Order) (d : Nat) : (s.order k r o).cell d = s.cell d :=
  State.cell_of_ctr (by simp) d

@[simp] theorem State.notice_cell (b : NoticeBody) (d : Nat) : (s.notice b).cell d = s.cell d :=
  State.cell_of_ctr (by simp) d

@[simp] theorem State.placeQuiet_cell (k : Nat) (n : NewHold) (d : Nat) : (s.placeQuiet k n).cell d = s.cell d :=
  State.cell_of_ctr (by simp) d

@[simp] theorem State.recordTrips_cell (k : Nat) (ts : List Trip) (d : Nat) : (s.recordTrips k ts).cell d = s.cell d :=
  Moves.cell_eq ((Moves.refl s).recordTrips k ts) d

@[simp] theorem State.stepEndHolds_cell (k : Nat) (fl : Bool) (q : List Trip) (d : Nat) :
    (s.stepEndHolds k fl q).cell d = s.cell d := Moves.cell_eq ((Moves.refl s).stepEndHolds k fl q) d

@[simp] theorem State.addHold_cell (k : Nat) (n : NewHold) (d : Nat) : (s.addHold k n).cell d = s.cell d := rfl

@[simp] theorem State.heldNotice_cell (k : Nat) (r : HoldReason) (a : LotState) (d : Nat) :
    (s.heldNotice k r a).cell d = s.cell d := State.cell_of_ctr (by simp) d

@[simp] theorem State.leavePending_cell (k d : Nat) : (s.leavePending k).cell d = s.cell d := rfl

@[simp] theorem State.toHeld_cell (k d : Nat) : (s.toHeld k).cell d = s.cell d := rfl

@[simp] theorem State.joinQueue_cell (k : Nat) (n : Bool) (d : Nat) : (s.joinQueue k n).cell d = s.cell d :=
  Moves.cell_eq ((Moves.refl s).joinQueue k n) d

@[simp] theorem State.passOn_cell (k d : Nat) : (s.passOn k).cell d = s.cell d := Moves.cell_eq ((Moves.refl s).passOn k) d

@[simp] theorem State.complete_cell (k d : Nat) : (s.complete k).cell d = s.cell d :=
  Moves.cell_eq ((Moves.refl s).complete k) d

@[simp] theorem State.sendLot_cell (k : Nat) (a b : Bool) (d : Nat) : (s.sendLot k a b).cell d = s.cell d :=
  Moves.cell_eq ((Moves.refl s).sendLot k a b) d

@[simp] theorem State.leaveHold_cell (k d : Nat) : (s.leaveHold k).cell d = s.cell d :=
  Moves.cell_eq ((Moves.refl s).leaveHold k) d

@[simp] theorem State.releasePending_cell (n d : Nat) : (s.releasePending n).cell d = s.cell d :=
  Moves.cell_eq (Moves.releasePending n (Moves.refl s)) d

@[simp] theorem State.countFailure_cell (k h d : Nat) : (s.countFailure k h).cell d = s.cell d :=
  Moves.cell_eq ((Moves.refl s).countFailure k h) d

/-! The operations on one cell -/

theorem State.toIdle_cell (hc : c < 48) : (s.toIdle c).cell c = (s.cell c).enter .idle := State.cell_modCell hc _

theorem State.toOffline_cell (hc : c < 48) : (s.toOffline c).cell c =
    { (s.cell c).enter .offline with timers := Timers.idle, ctx := none, order := none, orderCurrent := false } :=
  State.cell_modCell hc _

theorem State.toFault_cell (hc : c < 48) (cause : FaultCause) (lot : Option (Nat × Nat)) : (s.toFault c cause lot).cell c =
    { (s.cell c).enter .fault with
      cause := some cause, timers := { Timers.idle with silence := (s.cell c).timers.silence }, ctx := none, order := none,
      orderCurrent := false } := by
  unfold State.toFault
  dsimp only
  split
  · rw [State.order_cell, State.notice_cell, State.cell_modCell hc]
  · rw [State.notice_cell, State.cell_modCell hc]

theorem State.toRunning_cell (hc : c < 48) : (s.toRunning c).cell c = (s.cell c).enter .running := by
  unfold State.toRunning
  dsimp only
  split
  · rw [State.startPass_cell, State.cell_modCell hc]
  · rw [State.cell_modCell hc]

theorem State.popTop_cell (hc : c < 48) : (s.popTop c).cell c =
    { s.cell c with stack := (s.cell c).stack.tail, ctx := none, orderCurrent := false } := State.cell_modCell hc _

theorem State.pushRun_cell (hc : c < 48) (r : Run) : (s.pushRun c r).cell c =
    { s.cell c with stack := r :: (s.cell c).stack, ctx := none } := State.cell_modCell hc _

theorem State.dropIncoming_cell (hc : c < 48) : (s.dropIncoming c).cell c = { s.cell c with incoming := none, ctx :=
    none } :=
  State.cell_modCell hc _

theorem State.ite_placeQuiet_cell (b : Bool) (k : Nat) (n : NewHold) (d : Nat) :
    (if b then s.placeQuiet k n else s).cell d = s.cell d := by
  split
  · exact State.placeQuiet_cell k n d
  · rfl

theorem State.ite_heldNotice_cell (b : Bool) (k : Nat) (r : HoldReason) (a : LotState) (d : Nat) :
    (if b then s.heldNotice k r a else s).cell d = s.cell d := by
  split
  · exact State.heldNotice_cell k r a d
  · rfl

theorem State.closeSegment_cell (hc : c < 48) (k : Nat) (x : CloseCause) :
    (s.closeSegment c k x).cell c = clearSegMark k (s.cell c) :=
  (State.ite_placeQuiet_cell _ _ _ _).trans (State.cell_modCell hc _)

theorem State.clearOrder_cell (hc : c < 48) : (s.clearOrder c).cell c =
    { s.cell c with order := none, orderCurrent := false } := by
  unfold State.clearOrder
  dsimp only
  split
  · rw [State.startPass_cell, State.cell_modCell hc]
  · rw [State.cell_modCell hc]

/-! ### The fields that a cell's state bounds -/

/-- The fields of a cell record that its state bounds: of the stack its length. -/
def Cell.core (x : Cell) : CellState × Option FaultCause × Option StopReason × Items × Timers × Nat × Option Run :=
  (x.state, x.cause, x.stopReason, x.items, x.timers, x.stack.length, x.incoming)

/-- A cell record holds what its state allows. -/
def Cell.Fits (x : Cell) : Prop := x.runsFit ∧ x.fieldsFit

/-- A cell holds at most `n` runs, and none is incoming. -/
def Cell.Bears (x : Cell) (n : Nat) : Prop := x.stack.length ≤ n ∧ x.incoming = none

theorem Cell.Fits.congr {x y : Cell} (h : y.core = x.core) (hx : x.Fits) : y.Fits := by
  simp only [Cell.core, Prod.mk.injEq] at h
  obtain ⟨hstate, hcause, hreason, hitems, htimers, hlength, hincoming⟩ := h
  have hempty : y.stack = [] ↔ x.stack = [] := by
    rw [← List.length_eq_zero_iff, ← List.length_eq_zero_iff, hlength]
  simpa only [Cell.Fits, Cell.runsFit, Cell.fieldsFit, hstate, hcause, hreason, hitems, htimers, hlength, hincoming, hempty]
    using hx

theorem Cell.Bears.congr {x y : Cell} {n : Nat} (h : y.core = x.core) (hx : x.Bears n) : y.Bears n := by
  simp only [Cell.core, Prod.mk.injEq] at h
  obtain ⟨-, -, -, -, -, hlength, hincoming⟩ := h
  simpa only [Cell.Bears, hlength, hincoming] using hx

theorem Cell.Bears.mono {x : Cell} {n m : Nat} (h : x.Bears n) (hnm : n ≤ m) : x.Bears m := ⟨h.1.trans hnm, h.2⟩

/-- A stack holds at most two runs (R38). -/
theorem Cell.Fits.length_le {x : Cell} (h : x.Fits) : x.stack.length ≤ 2 := by
  obtain ⟨⟨hruns, -⟩, -⟩ := h
  split at hruns
  · simp [hruns]
  · simp [hruns]
  · simp [hruns]
  all_goals omega

/-- Outside STOPPING no run is incoming (R39). -/
theorem Cell.Fits.bears {x : Cell} (h : x.Fits) (hstate : x.state ≠ .stopping) : x.Bears 2 := by
  refine ⟨h.length_le, ?_⟩
  by_contra hsome
  exact hstate (h.1.2 (Option.isSome_iff_ne_none.mpr hsome)).1

/-- OFFLINE, IDLE and FAULT hold no run (R39). -/
theorem Cell.Fits.bears_zero {x : Cell} (h : x.Fits) (hstate : x.state = .offline ∨ x.state = .idle ∨ x.state = .fault) :
    x.Bears 0 := by
  have hne : x.state ≠ .stopping := by rcases hstate with e | e | e <;> simp [e]
  refine ⟨?_, (h.bears hne).2⟩
  have hruns := h.1.1
  rcases hstate with e | e | e <;> simp [e] at hruns <;> simp [hruns]

/-- The other five states hold a run (R39). -/
theorem Cell.Fits.length_pos {x : Cell} (h : x.Fits)
    (hstate : x.state ≠ .offline ∧ x.state ≠ .idle ∧ x.state ≠ .fault) : 0 < x.stack.length := by
  obtain ⟨ho, hi, hf⟩ := hstate
  have hruns := h.1.1
  split at hruns
  · exact absurd ‹_› ho
  · exact absurd ‹_› hi
  · exact absurd ‹_› hf
  all_goals omega

/-- A cell in SETUP with what SETUP allows. -/
def Cell.inSetup (x : Cell) : Prop := x.state = .setup ∧ x.Fits

@[simp] theorem clearSegMark_core (k : Nat) (x : Cell) : (clearSegMark k x).core = x.core := by
  simp [clearSegMark, Cell.core]

/-- The run at the top changed. -/
theorem State.modTop_core (hc : c < 48) (f : Run → Run) : ((s.modTop c f).cell c).core = (s.cell c).core := by
  unfold State.modTop
  rw [State.cell_modCell hc]
  cases hstack : (s.cell c).stack <;> simp [Cell.core, hstack]

theorem State.clearCtx_core (hc : c < 48) : ((s.clearCtx c).cell c).core = (s.cell c).core := by
  unfold State.clearCtx
  rw [State.cell_modCell hc]
  rfl

theorem State.closeIfOpen_core (hc : c < 48) (r : Run) (x : CloseCause) :
    ((s.closeIfOpen c r x).cell c).core = (s.cell c).core := by
  unfold State.closeIfOpen
  split
  · rw [State.closeSegment_cell hc, clearSegMark_core]
  · rfl

theorem State.closeTop_core (hc : c < 48) (x : CloseCause) : ((s.closeTop c x).cell c).core = (s.cell c).core := by
  unfold State.closeTop
  split
  · exact State.closeIfOpen_core hc _ _
  · rfl

theorem State.openSegment_core (hc : c < 48) (r : Run) : ((s.openSegment c r).cell c).core = (s.cell c).core :=
  State.modTop_core hc _

theorem State.toRetest_core (hc : c < 48) (k : Nat) : ((s.toRetest c k).cell c).core = (s.cell c).core :=
  (State.clearCtx_core hc).trans (State.modTop_core hc _)

theorem State.stepEnd_core (hc : c < 48) (k : Nat) : ((s.stepEnd c k).cell c).core = (s.cell c).core := by
  have hclose : ∀ v : State, ((if (v.top? c).any Run.segOpen then v.closeSegment c k .stepEnd else v).cell c).core =
      (v.cell c).core := by
    intro v
    split
    · rw [State.closeSegment_cell hc, clearSegMark_core]
    · rfl
  unfold State.stepEnd
  split
  · rfl
  · dsimp only
    split
    · rw [hclose, State.stepEndHolds_cell]
    · rw [State.ite_heldNotice_cell, State.ite_heldNotice_cell, State.notice_cell, State.modLot_cell, hclose,
        State.stepEndHolds_cell]

theorem State.settleStopped_core (hc : c < 48) : ((s.settleStopped c).1.cell c).core = (s.cell c).core := by
  unfold State.settleStopped
  split
  · rfl
  · split
    · rfl
    · dsimp only
      split
      · exact State.modTop_core hc _
      · split
        · exact (State.toRetest_core hc _).trans (State.modTop_core hc _)
        · exact (State.stepEnd_core hc _).trans (State.modTop_core hc _)

theorem State.clearOrder_core (hc : c < 48) : ((s.clearOrder c).cell c).core = (s.cell c).core := by
  rw [State.clearOrder_cell hc]
  rfl

/-! ### Runs leaving a cell -/

theorem State.popTop_bears (hc : c < 48) {n : Nat} (h : (s.cell c).Bears (n + 1)) : ((s.popTop c).cell c).Bears n := by
  rw [State.popTop_cell hc]
  refine ⟨?_, h.2⟩
  have hlength := h.1
  simp only [List.length_tail]
  omega

theorem State.bears_of_top_none {n : Nat} (htop : s.top? c = none) (h : (s.cell c).Bears n) : (s.cell c).Bears 0 := by
  refine ⟨?_, h.2⟩
  simp only [State.top?, List.head?_eq_none_iff] at htop
  simp [htop]

theorem State.detachTop_bears (hc : c < 48) {n : Nat} (h : (s.cell c).Bears (n + 1)) : ((s.detachTop c).cell c).Bears n := by
  unfold State.detachTop
  split
  · exact (State.bears_of_top_none ‹_› h).mono (Nat.zero_le _)
  · rw [State.sendLot_cell]
    exact State.popTop_bears hc ((h.congr (State.closeIfOpen_core hc _ _)).congr (State.settleStopped_core hc))

theorem State.detachLower_bears (hc : c < 48) {n : Nat} (h : (s.cell c).Bears (n + 1)) :
    ((s.detachLower c).cell c).Bears n := by
  unfold State.detachLower
  split
  · exact (State.bears_of_top_none ‹_› h).mono (Nat.zero_le _)
  · rw [State.sendLot_cell]
    exact State.popTop_bears hc (h.congr (State.closeIfOpen_core hc _ _))

theorem State.abandonTop_bears (hc : c < 48) {n : Nat} (h : (s.cell c).Bears (n + 1)) : ((s.abandonTop c).cell c).Bears
    n := by
  unfold State.abandonTop
  split
  · exact (State.bears_of_top_none ‹_› h).mono (Nat.zero_le _)
  · rw [State.sendLot_cell]
    exact State.popTop_bears hc (h.congr (State.closeIfOpen_core hc _ _))

/-- The stack loses a run while another may be incoming. -/
theorem State.detachTop_length (hc : c < 48) {n : Nat} (h : (s.cell c).stack.length ≤ n + 1) :
    ((s.detachTop c).cell c).stack.length ≤ n := by
  unfold State.detachTop
  split
  · rename_i htop
    simp only [State.top?, List.head?_eq_none_iff] at htop
    simp [htop]
  · rename_i r _
    have hlength : ∀ v : State, (v.cell c).core = (s.cell c).core → ((v.popTop c).cell c).stack.length ≤ n := by
      intro v hv
      simp only [Cell.core, Prod.mk.injEq] at hv
      rw [State.popTop_cell hc]
      simp only [List.length_tail, hv]
      omega
    dsimp only
    rw [State.sendLot_cell]
    exact hlength _ ((State.settleStopped_core hc).trans (State.closeIfOpen_core hc _ _))

theorem State.detachLower_length (hc : c < 48) {n : Nat} (h : (s.cell c).stack.length ≤ n + 1) :
    ((s.detachLower c).cell c).stack.length ≤ n := by
  unfold State.detachLower
  split
  · rename_i htop
    simp only [State.top?, List.head?_eq_none_iff] at htop
    simp [htop]
  · rw [State.sendLot_cell, State.popTop_cell hc]
    have hcore := State.closeIfOpen_core (s := s) hc ‹Run› .detached
    simp only [Cell.core, Prod.mk.injEq] at hcore
    simp only [List.length_tail, hcore]
    omega

theorem State.detachIncoming_bears (hc : c < 48) {n : Nat} (h : (s.cell c).stack.length ≤ n) :
    ((s.detachIncoming c).cell c).Bears n := by
  unfold State.detachIncoming
  split
  · exact ⟨h, ‹_›⟩
  · rw [State.sendLot_cell, State.dropIncoming_cell hc]
    exact ⟨h, rfl⟩

/-- No run is left after a detach (R51). -/
theorem State.detach_bears (hc : c < 48) (h : (s.cell c).stack.length ≤ 2) : ((s.detach c).cell c).Bears 0 := by
  unfold State.detach
  dsimp only
  rw [State.cell_modCell hc]
  exact State.detachIncoming_bears hc (State.detachLower_length hc (State.detachTop_length hc h))

/-! ### What the states allow -/

theorem State.toIdle_fits (hc : c < 48) (h : (s.cell c).Bears 0) : ((s.toIdle c).cell c).Fits := by
  rw [State.toIdle_cell hc]
  obtain ⟨hlength, hincoming⟩ := h
  simp_all [Cell.Fits, Cell.runsFit, Cell.fieldsFit, Cell.enter]

theorem State.toOffline_fits (hc : c < 48) (h : (s.cell c).Bears 0) : ((s.toOffline c).cell c).Fits := by
  rw [State.toOffline_cell hc]
  obtain ⟨hlength, hincoming⟩ := h
  simp_all [Cell.Fits, Cell.runsFit, Cell.fieldsFit, Cell.enter, Timers.idle]

theorem State.toFault_fits (hc : c < 48) (h : (s.cell c).Bears 0) (cause : FaultCause) (lot : Option (Nat × Nat)) :
    ((s.toFault c cause lot).cell c).Fits := by
  rw [State.toFault_cell hc]
  obtain ⟨hlength, hincoming⟩ := h
  simp_all [Cell.Fits, Cell.runsFit, Cell.fieldsFit, Cell.enter, Timers.idle]

theorem State.toReady_fits (hc : c < 48) (h : (s.cell c).Bears 0) (ready : Bool) : ((s.toReady c ready).cell c).Fits := by
  unfold State.toReady
  split
  · exact State.toIdle_fits hc h
  · exact State.toOffline_fits hc h

theorem State.toRunning_fits (hc : c < 48) (h : (s.cell c).Bears 2) (hpos : 0 < (s.cell c).stack.length) :
    ((s.toRunning c).cell c).Fits := by
  rw [State.toRunning_cell hc]
  obtain ⟨hlength, hincoming⟩ := h
  simp_all [Cell.Fits, Cell.runsFit, Cell.fieldsFit, Cell.enter]
  omega

theorem State.sendStart_fits (hc : c < 48) (h : (s.cell c).Bears 2) (hpos : 0 < (s.cell c).stack.length) (r : Run) :
    ((s.sendStart c r).cell c).Fits := by
  unfold State.sendStart
  dsimp only
  rw [State.order_cell]
  refine Cell.Fits.congr (State.modTop_core hc _) ?_
  rw [State.cell_modCell hc]
  obtain ⟨hlength, hincoming⟩ := h
  simp_all [Cell.Fits, Cell.runsFit, Cell.fieldsFit, Cell.enter]
  omega

theorem State.abandonSetup_fits (hc : c < 48) (h : (s.cell c).Bears 2) : ((s.abandonSetup c).cell c).Fits :=
  State.toIdle_fits hc (State.abandonTop_bears hc (State.abandonTop_bears hc h))

/-- A stop requested where no run is incoming, or for the preemption by the incoming run of a cell with one run (R48,
R79). -/
theorem State.requestStop_fits (hc : c < 48) (reason : StopReason) (h : (s.cell c).Fits) :
    ((s.requestStop c reason).cell c).Fits := by
  have hstop : ∀ r : Run, (s.cell c).state ≠ .stopping → s.top? c = some r → (((s.modCell c fun x => { x.enter .stopping with
      stopReason := some reason
      timers := { (x.enter .stopping).timers with stop := some s.tst.settings.stop } }).order c (some r)
      (.stopRun reason)).cell c).Fits := by
    intro r hstate htop
    rw [State.order_cell, State.cell_modCell hc]
    obtain ⟨hlength, hincoming⟩ := h.bears hstate
    have hpos : 0 < (s.cell c).stack.length := by
      simp only [State.top?] at htop
      rw [List.length_pos_iff]
      intro hnil
      simp [hnil] at htop
    have hruns : (s.cell c).stack.length = 1 ∨ (s.cell c).stack.length = 2 := by omega
    simp [Cell.Fits, Cell.runsFit, Cell.fieldsFit, Cell.enter, hincoming, hruns]
  unfold State.requestStop
  split
  · exact hstop _ (by simp [*]) ‹_›
  · exact hstop _ (by simp [*]) ‹_›
  · exact hstop _ (by simp [*]) ‹_›
  · exact h

/-! ### Entry into SETUP -/

/-- An item pending in SETUP, with its timer and an order. -/
theorem Cell.inSetup.item {x y : Cell} (h : x.inSetup) (hcore : (y.state, y.cause, y.stopReason, y.stack, y.incoming) =
    (x.state, x.cause, x.stopReason, x.stack, x.incoming)) (htimers : (y.timers.start, y.timers.stop, y.timers.jam) =
    (x.timers.start, x.timers.stop, x.timers.jam)) : y.inSetup := by
  simp only [Prod.mk.injEq] at hcore htimers
  obtain ⟨hstate, hruns, hfields⟩ := h
  simp_all [Cell.inSetup, Cell.Fits, Cell.runsFit, Cell.fieldsFit]

theorem State.startLoad_inSetup (hc : c < 48) (h : (s.cell c).inSetup) (r : Run) (v : ProgVals) :
    ((s.startLoad c r v).cell c).inSetup := by
  unfold State.startLoad
  dsimp only
  split
  · rw [State.order_cell, State.cell_modCell hc]
    exact h.item rfl rfl
  · rw [State.cell_modCell hc]
    exact h.item rfl rfl

theorem State.startKit_inSetup (hc : c < 48) (h : (s.cell c).inSetup) (r : Run) (kit : Nat) :
    ((s.startKit c r kit).cell c).inSetup := by
  unfold State.startKit
  rw [State.order_cell, State.cell_modCell hc]
  exact h.item rfl rfl

theorem State.startSoak_inSetup (hc : c < 48) (h : (s.cell c).inSetup) (r : Run) (x : Temp) :
    ((s.startSoak c r x).cell c).inSetup := by
  unfold State.startSoak
  rw [State.order_cell, State.cell_modCell hc]
  exact h.item rfl rfl

theorem State.judgeItems_inSetup (hc : c < 48) (h : (s.cell c).inSetup) (r : Run) (standing : Bool) :
    ((s.judgeItems c r standing).cell c).inSetup := by
  have hload : ∀ b : Bool, ((if b then s.startLoad c r (s.programOf (s.runStep r)).vals else s).cell c).inSetup := by
    intro b
    split
    · exact State.startLoad_inSetup hc h _ _
    · exact h
  have hkit : ∀ (v : State) (b : Bool), (v.cell c).inSetup →
      ((if b then v.startKit c r (s.runStep r).kit else v).cell c).inSetup := by
    intro v b hv
    split
    · exact State.startKit_inSetup hc hv _ _
    · exact hv
  unfold State.judgeItems
  dsimp only
  split
  · exact State.startSoak_inSetup hc (hkit _ _ (hload _)) _ _
  · exact hkit _ _ (hload _)

theorem State.checkSetup_fits (hc : c < 48) (h : (s.cell c).inSetup) : ((s.checkSetup c).cell c).Fits := by
  unfold State.checkSetup
  split
  · exact h.2
  · split
    · have hjudged := State.judgeItems_inSetup hc h ‹Run› false
      dsimp only
      split
      · obtain ⟨hstate, hfits⟩ := hjudged
        exact State.sendStart_fits hc (hfits.bears (by simp [hstate])) (hfits.length_pos (by simp [hstate])) _
      · exact hjudged.2
    · exact h.2

/-- A cell as it enters SETUP for its top run. -/
theorem Cell.inSetup_enter {x : Cell} (h : x.Bears 2) (hpos : 0 < x.stack.length) : ({ x.enter .setup with
    items := Items.none
    timers := { (x.enter .setup).timers with load := none, kit := none, soak := none }
    orderCurrent := false } : Cell).inSetup := by
  obtain ⟨hlength, hincoming⟩ := h
  simp [Cell.inSetup, Cell.Fits, Cell.runsFit, Cell.fieldsFit, Cell.enter, hincoming]
  omega

theorem State.enterSetupN_fits (hc : c < 48) (n : Nat) (hn : n ≤ 2) : ∀ {s : State}, (s.cell c).Bears n →
    ((s.enterSetupN n c).cell c).Fits := by
  induction n with
  | zero => exact fun h => State.toIdle_fits hc h
  | succ n ih =>
    intro s h
    unfold State.enterSetupN
    split
    · exact State.toIdle_fits hc (State.bears_of_top_none ‹_› h)
    · rename_i r htop
      have hpos : 0 < (s.cell c).stack.length := by
        rw [List.length_pos_iff]
        intro hnil
        simp [State.top?, hnil] at htop
      have hsetup := Cell.inSetup_enter (h.mono hn) hpos
      dsimp only
      set v := (s.setLotState r.handle .assigned).modCell c _ with hv
      have hcell : v.cell c = _ := State.cell_modCell hc _
      rw [State.setLotState_cell] at hcell
      rw [← hcell] at hsetup
      have hbears : (v.cell c).Bears (n + 1) := by
        rw [hcell]
        exact h
      split
      · split
        · rename_i hempty
          refine State.toIdle_fits hc ⟨?_, (State.detachTop_bears hc hbears).2⟩
          simp [List.isEmpty_iff.mp hempty]
        · exact ih (Nat.le_of_succ_le hn) (State.detachTop_bears hc hbears)
      · split
        · exact State.abandonSetup_fits hc (hbears.mono hn)
        · exact State.checkSetup_fits hc (State.judgeItems_inSetup hc hsetup _ _)

theorem State.enterSetup_fits (hc : c < 48) (h : (s.cell c).Bears 2) : ((s.enterSetup c).cell c).Fits :=
  State.enterSetupN_fits hc 2 le_rfl h

theorem State.afterTop_fits (hc : c < 48) (h : (s.cell c).Bears 2) : ((s.afterTop c).cell c).Fits := by
  unfold State.afterTop
  split
  · rename_i hempty
    refine State.toIdle_fits hc ⟨?_, h.2⟩
    simp [List.isEmpty_iff.mp hempty]
  · exact State.enterSetup_fits hc h

theorem State.setupFailure_fits (hc : c < 48) (h : (s.cell c).Fits) (hstate : (s.cell c).state ≠ .stopping)
    (cause : FaultCause) : ((s.setupFailure c cause).cell c).Fits := by
  unfold State.setupFailure
  split
  · exact h
  · refine State.toFault_fits hc (State.detachLower_bears hc ?_) _ _
    rw [State.sendLot_cell, State.countFailure_cell]
    exact State.popTop_bears hc ((h.bears hstate).congr (State.closeIfOpen_core hc _ _))

end Sys2Proof.Machine
end

section
/-! Each cell stays within what its state allows, over every step (R38, R39, R58). -/

namespace Sys2Proof.Machine

set_option Elab.async false

variable {s t u : State} {c h : Nat}

/-- From `s` to `t` the cells stay within what their states allow. -/
def KeepsCells (s t : State) : Prop := s.CellsFit → t.CellsFit

/-- Changes of cell `c` alone. -/
abbrev CellMoves (c : Nat) : State → State → Prop := Moves (· = c) True

theorem KeepsCells.trans (h : KeepsCells s t) (k : KeepsCells t u) : KeepsCells s u := fun x => k (h x)

/-- An operation on lots, frames and lists. -/
theorem KeepsCells.of_moves (h : Moves (fun _ => False) True s t) : KeepsCells s t := fun hs d hd => by
  rw [h.cell_eq d]
  exact hs d hd

/-- An operation on one cell that leaves it within what its new state allows. -/
theorem KeepsCells.of_cell (h : CellMoves c s t) (hc : c < 48 → (s.cell c).Fits → (t.cell c).Fits) : KeepsCells s t := by
  intro hs d hd
  by_cases hdc : d = c
  · subst hdc
    exact hc hd (hs d hd)
  · rw [h.otherCell hdc]
    exact hs d hd

theorem KeepsCells.of_core (h : CellMoves c s t) (hc : c < 48 → (t.cell c).core = (s.cell c).core) : KeepsCells s t :=
  .of_cell h fun hlt hs => hs.congr (hc hlt)

theorem KeepsCells.foldl {β : Type} (f : State → β → State) (hf : ∀ (t : State) (b : β), KeepsCells t (f t b)) (l : List β) :
    ∀ s : State, KeepsCells s (l.foldl f s) := by
  induction l with
  | nil => exact fun _ => id
  | cons b l ih => exact fun s => (hf s b).trans (ih _)

theorem Cell.Fits.modCell (hc : c < 48) {f : Cell → Cell} (h : (f (s.cell c)).Fits) : ((s.modCell c f).cell c).Fits := by
  rwa [State.cell_modCell hc]

/-- Recorded equipment, sites, expiry, orders, drops and contexts. -/
theorem KeepsCells.modCell (f : Cell → Cell) (hf : ∀ x : Cell, (f x).core = x.core := by intro x; rfl) :
    KeepsCells s (s.modCell c f) :=
  .of_core ((Moves.refl s).modCell c f rfl) fun hc => by rw [State.cell_modCell hc, hf]

theorem keepsCells_startPass : KeepsCells s s.startPass := id

theorem keepsCells_order (r : Option Run) (o : Order) : KeepsCells s (s.order c r o) := .of_moves
    ((Moves.refl s).order c r o)

/-! ### Stops, lapses and holds -/

theorem keepsCells_requestStop (reason : StopReason) : KeepsCells s (s.requestStop c reason) :=
  .of_cell ((Moves.refl s).requestStop c reason rfl) fun hc => State.requestStop_fits hc reason

theorem keepsCells_judgeLapse : KeepsCells s (s.judgeLapse c) := by
  unfold State.judgeLapse
  split
  · split
    · exact keepsCells_requestStop _
    · exact keepsCells_requestStop _
    · exact keepsCells_requestStop _
    · rename_i hstate
      exact .of_cell ((Moves.refl s).abandonSetup c rfl) fun hc hs =>
        State.abandonSetup_fits hc (hs.bears (by simp [hstate]))
    all_goals exact id
  · exact id

theorem keepsCells_holdInSetup (hstate : (s.cell c).state = .setup) : KeepsCells s (s.holdInSetup c h) := by
  refine .of_cell ((Moves.refl s).holdInSetup c h rfl) fun hc hs => ?_
  unfold State.holdInSetup
  split
  · exact hs
  · refine State.afterTop_fits hc (Cell.Bears.mono ?_ one_le_two)
    rw [State.toHeld_cell]
    exact State.popTop_bears hc ((hs.bears (by simp [hstate])).congr (State.closeIfOpen_core hc _ _))

/-- A stack without a lower run still has its top. -/
theorem length_dropLower (h : Nat) (l : List Run) : (l = [] → dropLower h l = []) ∧
    (l.length = 1 → (dropLower h l).length = 1) ∧ (l.length = 2 → (dropLower h l).length = 1 ∨ (dropLower h l).length =
      2) := by
  match l with
  | [] => simp [dropLower]
  | [r] => simp [dropLower]
  | [r, x] =>
    simp only [dropLower, List.filter_cons, List.filter_nil]
    split <;> simp
  | _ :: _ :: _ :: _ => simp

theorem Cell.Fits.dropLower {x : Cell} (hx : x.Fits) (h : Nat) :
    ({ x with stack := Machine.dropLower h x.stack, ctx := none } : Cell).Fits := by
  obtain ⟨⟨hruns, hincoming⟩, hfields⟩ := hx
  obtain ⟨hnil, hone, htwo⟩ := length_dropLower h x.stack
  refine ⟨⟨?_, fun hsome => ?_⟩, hfields⟩
  · dsimp only
    split at hruns
    iterate 3 exact hnil hruns
    all_goals exact hruns.elim (fun e => .inl (hone e)) htwo
  · obtain ⟨hstate, hreason, hlength⟩ := hincoming hsome
    exact ⟨hstate, hreason, hone hlength⟩

theorem keepsCells_holdLower : KeepsCells s (s.holdLower c h) := by
  have hclose : ∀ b : Bool, KeepsCells s (if b then s.closeSegment c h .hold else s) := by
    intro b
    split
    · exact .of_core ((Moves.refl s).closeSegment c h .hold rfl) fun hc => by
        rw [State.closeSegment_cell hc, clearSegMark_core]
    · exact id
  have hdrop : ∀ v : State, KeepsCells v
      ((v.modCell c fun x => { x with stack := dropLower h x.stack, ctx := none }).toHeld h) := fun v =>
    .of_cell (Moves.toHeld (C := (· = c)) (Moves.modCell (Moves.refl v) c _ rfl) h) fun hc hv => by
      rw [State.toHeld_cell]
      exact Cell.Fits.modCell hc (hv.dropLower h)
  exact (hclose _).trans (hdrop _)

theorem keepsCells_dropIncoming : KeepsCells s (s.dropIncoming c) :=
  .of_cell ((Moves.refl s).dropIncoming c rfl) fun hc hs => by
    rw [State.dropIncoming_cell hc]
    exact ⟨⟨hs.1.1, nofun⟩, hs.2⟩

theorem keepsCells_toHeld : KeepsCells s (s.toHeld h) := .of_moves ((Moves.refl s).toHeld h)

theorem keepsCells_holdAssigned (r : HoldReason) : KeepsCells s (s.holdAssigned h r) := by
  unfold State.holdAssigned
  split
  · split
    · exact keepsCells_holdInSetup ‹_›
    · exact keepsCells_requestStop _
  · split
    · exact keepsCells_dropIncoming.trans keepsCells_toHeld
    · exact id

theorem keepsCells_holdEffect (r : HoldReason) : KeepsCells s (s.holdEffect h r) := by
  unfold State.holdEffect
  split
  · exact id
  · split
    · exact .of_moves (((Moves.refl s).leaveQueue h).toHeld h)
    · exact keepsCells_holdAssigned r
    · split
      · exact keepsCells_requestStop _
      · exact id
    · split
      · exact keepsCells_holdLower
      · exact id
    · exact keepsCells_toHeld
    · exact id
    · exact id

theorem keepsCells_placeHold (n : NewHold) : KeepsCells s (s.placeHold h n) := by
  have hplaced : KeepsCells s (if s.isNewHold h n.reason then (s.addHold h n).heldNotice h n.reason (s.stateAfterHold h)
      else s.addHold h n) := by
    split
    · exact .of_moves (((Moves.refl s).addHold h n).heldNotice h _ _)
    · exact .of_moves ((Moves.refl s).addHold h n)
  exact hplaced.trans (keepsCells_holdEffect _)

/-! ### The bin stream -/

theorem keepsCells_demote (site h inst : Nat) : KeepsCells s (s.demote c site h inst) := by
  refine .of_core ((Moves.refl s).demote c site h inst rfl) fun hc => ?_
  unfold State.demote
  split
  · rw [State.event_cell, State.notice_cell, State.order_cell, State.cell_modCell hc]
    rfl
  · rfl

theorem keepsCells_siteTrip (r : Run) (p : Profile) (site : Nat) (kinds : List Trip) :
    KeepsCells s (s.siteTrip c r p site kinds) := by
  unfold State.siteTrip
  split
  · exact id
  · split
    · exact keepsCells_demote _ _ _
    · exact keepsCells_placeHold _

theorem keepsCells_handTrips (r : Run) (p : Profile) (site : Nat) (guard sites : List Trip) :
    KeepsCells s (s.handTrips c r p site guard sites) := by
  have hrecorded : KeepsCells s (s.recordTrips r.handle (guard ++ sites)) := .of_moves ((Moves.refl s).recordTrips _ _)
  unfold State.handTrips
  dsimp only
  refine .trans ?_ (keepsCells_siteTrip _ _ _ _)
  split
  · exact hrecorded
  · exact hrecorded.trans (keepsCells_placeHold _)

theorem keepsCells_modAcc (f : Acc → Acc) : KeepsCells s (s.modAcc h f) := .of_moves ((Moves.refl s).modAcc h f)

theorem keepsCells_guardRecord (r : Run) (site soft hard : Nat) : KeepsCells s (s.guardRecord c r site soft hard) := by
  unfold State.guardRecord
  dsimp only
  split
  · split
    · exact keepsCells_modAcc _
    · exact (keepsCells_modAcc _).trans (keepsCells_handTrips _ _ _ _ _)
  · split
    · exact keepsCells_modAcc _
    · exact (keepsCells_modAcc _).trans (keepsCells_handTrips _ _ _ _ _)

theorem keepsCells_settleRecord (d : Drop) (site soft hard : Nat) : KeepsCells s (s.settleRecord c d site soft hard) := by
  unfold State.settleRecord
  split
  · exact (keepsCells_guardRecord _ _ _ _).trans (.of_moves (((Moves.refl _).modLot _ _).event _ _))
  · exact (keepsCells_modAcc _).trans ((keepsCells_placeHold _).trans (.of_moves ((Moves.refl _).event _ _)))
  · exact .of_moves ((Moves.refl s).event _ _)

theorem keepsCells_clearCtx : KeepsCells s (s.clearCtx c) := .modCell _

theorem keepsCells_stream (m : Msg) (b : BinBody) (d : Drop) : KeepsCells s (s.stream m b d) := by
  unfold State.stream
  split
  · exact keepsCells_clearCtx
  · split
    · exact .modCell _
    · exact id

theorem keepsCells_forward (kind : Code16) (m : Msg) (body : List Byte) : KeepsCells s (s.forward kind m body) :=
  .of_moves ((Moves.refl s).forward kind m body)

theorem keepsCells_takeBin (m : Msg) : KeepsCells s (s.takeBin m) := by
  unfold State.takeBin
  split
  · exact .of_moves (((Moves.refl s).event _ _).forward _ _ _)
  · dsimp only
    refine .trans ?_ (keepsCells_forward _ _ _)
    split
    · exact keepsCells_settleRecord _ _ _ _
    · exact (keepsCells_settleRecord _ _ _ _).trans (keepsCells_stream _ _ _)

theorem keepsCells_compactRecords (l : List CompactRec) : ∀ (s : State) (ended : Bool),
    KeepsCells s (s.compactRecords c ended l).1 := by
  induction l with
  | nil => exact fun _ _ => id
  | cons x rest ih =>
    intro s ended
    unfold State.compactRecords
    dsimp only
    refine .trans ?_ (ih _ _)
    split
    · exact (keepsCells_settleRecord _ _ _ _).trans keepsCells_clearCtx
    · exact keepsCells_settleRecord _ _ _ _

theorem keepsCells_takeCompact (m : Msg) : KeepsCells s (s.takeCompact m) := by
  unfold State.takeCompact
  split
  · exact .of_moves (((Moves.refl s).event _ _).forward _ _ _)
  · dsimp only
    split
    · exact (keepsCells_compactRecords _ _ _).trans (keepsCells_forward _ _ _)
    · refine .trans ?_ (keepsCells_forward _ _ _)
      exact .foldl _ (fun v _ => .of_moves ((Moves.refl v).event _ _)) _ _

/-! ### Dispatch -/

/-- What the best candidate of a list is: a candidate whose key no other exceeds, the first among equals (R68, R78). -/
theorem foldl_better {ok : Nat → Bool} {key : Nat → Nat} (l : List Nat) : ∀ best : Option (Nat × Nat),
    (∀ x, best = some x → x.2 = key x.1 ∧ ok x.1 = true) →
    ∀ x, l.foldl (fun b d => if ok d then better b d (key d) else b) best = some x → x.2 = key x.1 ∧ ok x.1 = true := by
  induction l with
  | nil => exact fun _ h => h
  | cons d rest ih =>
    intro best h
    refine ih _ fun x hx => ?_
    dsimp only at hx
    split at hx
    · rename_i hd
      unfold better at hx
      split at hx
      · cases hx
        exact ⟨rfl, hd⟩
      · split at hx
        · cases hx
          exact ⟨rfl, hd⟩
        · exact h x hx
    · exact h x hx

theorem ok_of_bestCell {ok : Nat → Bool} {key : Nat → Nat} (h : bestCell ok key = some c) : ok c = true := by
  simp only [bestCell, Option.map_eq_some_iff] at h
  obtain ⟨x, hx, rfl⟩ := h
  exact (foldl_better _ none nofun x hx).2

theorem keepsCells_pair {l : Lot} (hok : s.eligible h l c = true) : KeepsCells s (s.pair h l c) := by
  refine .of_cell ((Moves.refl s).pair h l c rfl) fun hc hs => ?_
  simp only [State.eligible, Bool.and_eq_true, beq_iff_eq] at hok
  obtain ⟨⟨hidle, -⟩, -⟩ := hok
  obtain ⟨hlength, hincoming⟩ := hs.bears_zero (.inr (.inl hidle))
  unfold State.pair
  dsimp only
  rw [State.event_cell]
  refine State.enterSetup_fits hc ?_
  rw [State.pushRun_cell hc]
  exact ⟨by simpa using Nat.le_trans hlength zero_le_one, hincoming⟩

theorem keepsCells_preempt {l : Lot} (hok : s.isVictim h l c = true) : KeepsCells s (s.preempt h l c) := by
  refine .of_cell ((Moves.refl s).preempt h l c rfl) fun hc hs => ?_
  simp only [State.isVictim, Bool.and_eq_true, Bool.or_eq_true, beq_iff_eq] at hok
  obtain ⟨⟨⟨hstate, hlength⟩, -⟩, -⟩ := hok
  obtain ⟨r, hstack⟩ := List.length_eq_one_iff.mp hlength
  unfold State.preempt
  dsimp only
  rw [State.event_cell, State.event_cell]
  set v := ((s.leaveQueue h).setLotState h .assigned).modCell c _ with hv
  have hcell : v.cell c = _ := State.cell_modCell hc _
  rw [State.setLotState_cell, State.leaveQueue_cell] at hcell
  have hstop : (v.requestStop c .preempt).cell c = { (v.cell c).enter .stopping with
      stopReason := some .preempt
      timers := { ((v.cell c).enter .stopping).timers with stop := some v.tst.settings.stop } } := by
    have htop : v.top? c = some r := by simp [State.top?, hcell, hstack]
    unfold State.requestStop
    rcases hstate with e | e
    · have hrunning : (v.cell c).state = .running := by rw [hcell]; exact e
      simp only [hrunning, htop]
      rw [State.order_cell, State.cell_modCell hc]
    · have hpaused : (v.cell c).state = .paused := by rw [hcell]; exact e
      simp only [hpaused, htop]
      rw [State.order_cell, State.cell_modCell hc]
  rw [hstop, hcell]
  simp [Cell.Fits, Cell.runsFit, Cell.fieldsFit, Cell.enter, hstack]

theorem keepsCells_walkMember (used : List Nat) (m : Member) : KeepsCells s (s.walkMember used m).1 := by
  unfold State.walkMember
  split
  · exact id
  · split
    · rename_i hbest
      have hok := ok_of_bestCell hbest
      simp only [Bool.and_eq_true] at hok
      exact keepsCells_pair hok.2
    · split
      · split
        · rename_i hbest
          have hok := ok_of_bestCell hbest
          simp only [Bool.and_eq_true] at hok
          exact keepsCells_preempt hok.2
        · exact id
      · exact id

theorem keepsCells_walk (l : List Member) : ∀ (s : State) (used : List Nat), KeepsCells s (s.walk used l) := by
  induction l with
  | nil => exact fun _ _ => id
  | cons m rest ih => exact fun s used => (keepsCells_walkMember used m).trans (ih _ _)

theorem keepsCells_settle : KeepsCells s s.settle := by
  unfold State.settle
  split
  · have hpass : KeepsCells s s.dispatchPass := by
      unfold State.dispatchPass
      split
      · exact id
      · exact keepsCells_walk _ _ _
    exact hpass
  · exact id

/-! ### STATUS -/

theorem keepsCells_clearOrder : KeepsCells s (s.clearOrder c) :=
  .of_core ((Moves.refl s).clearOrder c rfl) State.clearOrder_core

theorem keepsCells_equipmentRestart (b : StatusBody) : KeepsCells s (s.equipmentRestart c b) := by
  refine .of_cell ((Moves.refl s).equipmentRestart c b rfl) fun hc hs => ?_
  unfold State.equipmentRestart
  dsimp only
  generalize hv : State.detach _ c = v
  have hbears : (v.cell c).Bears 0 := by
    subst hv
    refine State.detach_bears hc ?_
    split <;> simpa only [State.placeQuiet_cell] using hs.length_le
  split
  · exact State.toFault_fits hc hbears _ _
  · exact State.toReady_fits hc hbears _

theorem keepsCells_statusState (b : StatusBody) : KeepsCells s (s.statusState c b) := by
  refine .of_cell ((Moves.refl s).statusState c b rfl) fun hc hs => ?_
  unfold State.statusState
  split
  · have hbears := hs.bears_zero (.inl ‹_›)
    split
    · exact State.toFault_fits hc hbears _ _
    · split
      · exact State.toIdle_fits hc hbears
      · exact hs
  · have hbears := hs.bears_zero (.inr (.inl ‹_›))
    split
    · exact State.toFault_fits hc hbears _ _
    · split
      · exact hs
      · exact State.toOffline_fits hc hbears
  · split
    · exact State.toFault_fits hc (State.detach_bears hc hs.length_le) _ _
    · exact hs
  · have hbears := hs.bears_zero (.inr (.inr ‹_›))
    unfold State.statusInFault
    split
    · split
      · rwa [State.order_cell]
      · exact State.toFault_fits hc hbears _ _
    · split
      · exact State.toReady_fits hc hbears _
      · exact hs
  · rename_i hstate
    have hbears := hs.bears (by simp [hstate])
    have hpos := hs.length_pos (by simp [hstate])
    split
    · refine Cell.Fits.modCell hc ?_
      obtain ⟨hlength, hincoming⟩ := hbears
      simp [Cell.Fits, Cell.runsFit, Cell.fieldsFit, Cell.enter, hincoming]
      omega
    · exact hs
  · rename_i hstate
    split
    · exact State.toRunning_fits hc (hs.bears (by simp [hstate])) (hs.length_pos (by simp [hstate]))
    · exact hs
  · exact hs
  · exact hs

theorem keepsCells_statusItems : KeepsCells s (s.statusItems c) := by
  refine .of_cell ((Moves.refl s).statusItems c rfl) fun hc hs => ?_
  unfold State.statusItems
  split
  · rename_i hstate _
    refine State.checkSetup_fits hc ?_
    rw [State.cell_modCell hc]
    exact Cell.inSetup.item ⟨hstate, hs⟩ rfl rfl
  · exact hs

theorem keepsCells_takeExpiry (e : Option Nat) : KeepsCells s (s.takeExpiry c e) := by
  unfold State.takeExpiry
  split
  · exact id
  · exact (KeepsCells.modCell _).trans (keepsCells_judgeLapse.trans keepsCells_startPass)

theorem keepsCells_sendMask : KeepsCells s (s.sendMask c) := (KeepsCells.modCell _).trans (keepsCells_order _ _)

theorem keepsCells_restoreSites : KeepsCells s (s.restoreSites c) := by
  have hsent : KeepsCells s ((s.modCell c fun x => { x with enabled := allSites (s.siteCount c) }).sendMask c) :=
    (KeepsCells.modCell _).trans keepsCells_sendMask
  unfold State.restoreSites
  dsimp only
  split
  · exact hsent.trans keepsCells_startPass
  · exact hsent

theorem keepsCells_compareSites (reported : Mask16) : KeepsCells s (s.compareSites c reported) := by
  unfold State.compareSites
  split
  · exact .modCell _
  · exact keepsCells_sendMask

theorem keepsCells_restartSilence : KeepsCells s (s.restartSilence c) := by
  refine .of_cell ((Moves.refl s).restartSilence c rfl) fun hc hs => ?_
  refine Cell.Fits.modCell hc ⟨hs.1, ?_⟩
  simp only [Cell.Fits, Cell.fieldsFit] at hs ⊢
  simp_all

theorem keepsCells_acceptStatus (b : StatusBody) : KeepsCells s (s.acceptStatus c b) := by
  have hcleared : KeepsCells s (if b.restarted then s.clearOrder c else s) := by
    split
    · exact keepsCells_clearOrder
    · exact id
  have hmoved : ∀ (v : State) (restart : Bool), KeepsCells v (if restart then v.equipmentRestart c b else v.statusState
    c b) := by
    intro v restart
    split
    · exact keepsCells_equipmentRestart b
    · exact keepsCells_statusState b
  have hrecorded := hcleared.trans ((hmoved _ (b.restarted && (s.cell c).holdsRun)).trans
    (KeepsCells.modCell (c := c) (recordEquipment b (s.cell c).state (b.restarted && (s.cell c).holdsRun))))
  unfold State.acceptStatus
  dsimp only
  refine .trans ?_ keepsCells_restartSilence
  have htaken : ∀ v : State, KeepsCells s v → KeepsCells s (if b.siteRestore then (v.takeExpiry c b.expiry).restoreSites c
      else (v.takeExpiry c b.expiry).compareSites c b.sites) := by
    intro v hv
    split
    · exact hv.trans ((keepsCells_takeExpiry _).trans keepsCells_restoreSites)
    · exact hv.trans ((keepsCells_takeExpiry _).trans (keepsCells_compareSites _))
  refine htaken _ ?_
  split
  · exact hrecorded.trans keepsCells_statusItems
  · exact hrecorded

theorem keepsCells_takeStatus (m : Msg) : KeepsCells s (s.takeStatus m) := by
  unfold State.takeStatus
  split
  · split
    · exact keepsCells_acceptStatus _
    · exact id
  · exact id

/-! ### LOAD_DONE -/

/-- A completed LOAD item, and a stopped load timer. -/
theorem State.completeLoad_inSetup (hc : c < 48) (h : (s.cell c).inSetup) : ((s.completeLoad c).cell c).inSetup := by
  unfold State.completeLoad
  rw [State.cell_modCell hc]
  exact h.item rfl rfl

theorem keepsCells_recordLoaded (ok : Bool) (v : ProgVals) : KeepsCells s ((s.clearOrder c).modCell c (recordLoaded ok v)) :=
  keepsCells_clearOrder.trans (KeepsCells.modCell _)

theorem keepsCells_rejudgeLoad : KeepsCells s (s.rejudgeLoad c) := by
  refine .of_cell ((Moves.refl s).rejudgeLoad c rfl) fun hc hs => ?_
  unfold State.rejudgeLoad
  split
  · rename_i hstate _
    have hsetup : (s.cell c).inSetup := ⟨hstate, hs⟩
    dsimp only
    split
    · exact (State.startLoad_inSetup hc hsetup _ _).2
    · exact State.checkSetup_fits hc (State.completeLoad_inSetup hc hsetup)
  · exact hs

theorem keepsCells_loadAnswer (ok : Bool) (v ordered : ProgVals) (hload : (s.cell c).items.load = true) :
    KeepsCells s (s.loadAnswer c ok v ordered) := by
  refine .of_cell ((Moves.refl s).loadAnswer c ok v ordered rfl) fun hc hs => ?_
  have hstate : (s.cell c).state = .setup := hs.2.2.2.1 fun hnone => by simp [hnone, Items.none] at hload
  unfold State.loadAnswer
  dsimp only
  set u := ((s.clearOrder c).modCell c (recordLoaded ok v)).modTimers c _ with hu
  have hcell : u.cell c = _ := State.cell_modCell hc _
  rw [State.cell_modCell hc, State.clearOrder_cell hc] at hcell
  have hsetup : (u.cell c).inSetup := by
    rw [hcell]
    exact Cell.inSetup.item (x := s.cell c) ⟨hstate, hs⟩ rfl rfl
  split
  · exact State.checkSetup_fits hc (State.completeLoad_inSetup hc hsetup)
  · exact State.setupFailure_fits hc hsetup.2 (by simp [hsetup.1]) _

theorem keepsCells_takeLoadDone (m : Msg) : KeepsCells s (s.takeLoadDone m) := by
  unfold State.takeLoadDone
  split
  · split
    · unfold State.acceptLoadDone
      split
      · split
        · rename_i hcurrent
          simp only [Bool.and_eq_true] at hcurrent
          exact keepsCells_loadAnswer _ _ _ hcurrent.2
        · exact (keepsCells_recordLoaded _ _).trans keepsCells_rejudgeLoad
      · split
        · exact .modCell _
        · exact id
    · exact id
  · exact id

/-! ### Run events -/

/-- A run event that is taken finds its cell in a state that takes it. -/
theorem keepsCells_runEvent {m : Msg} {p : Option Pass} {taken : Cell → Run → Bool} {act : State → Nat → Run → State}
    (hact : ∀ (v : State) (r : Run), taken (v.cell m.cell.toNat) r = true → KeepsCells v (act v m.cell.toNat r)) :
    KeepsCells s (s.runEvent m p taken act) := by
  unfold State.runEvent
  dsimp only
  split
  · split
    · rename_i htaken
      exact .trans (.of_moves ((Moves.refl s).modLot _ _)) (hact _ _ htaken)
    · exact .modCell _
  · exact id
  · exact .modCell _

theorem keepsCells_startRun (r : Run) : KeepsCells s (s.startRun c r) := by
  refine .of_cell ((Moves.refl s).startRun c r rfl) fun hc hs => ?_
  unfold State.startRun
  dsimp only
  generalize hv : (if r.segOpen = true then _ else State.openSegment _ c r) = v
  have hcore : (v.cell c).core = (s.cell c).core := by
    subst hv
    split
    · rw [State.modLot_cell, State.modTop_core hc]
    · rw [State.openSegment_core hc, State.modLot_cell, State.modTop_core hc]
  have hfits := hs.congr hcore
  split
  · rename_i hstate
    exact State.toRunning_fits hc (hfits.bears (by simp [hstate])) (hfits.length_pos (by simp [hstate]))
  · exact hfits

theorem keepsCells_takeRunStarted (m : Msg) : KeepsCells s (s.takeRunStarted m) := by
  unfold State.takeRunStarted
  split
  · exact keepsCells_runEvent fun _ _ _ => keepsCells_startRun _
  · exact id

theorem State.startRetest_fits (hc : c < 48) (hs : (s.cell c).Fits) (h : (s.cell c).Bears 2) (k : Nat) :
    ((s.startRetest c k).cell c).Fits := by
  have hcore := State.toRetest_core (s := s) hc k
  unfold State.startRetest
  dsimp only
  split
  · rename_i r htop
    refine State.sendStart_fits hc (h.congr hcore) ?_ r
    rw [List.length_pos_iff]
    intro hnil
    simp [State.top?, hnil] at htop
  · exact hs.congr hcore

theorem State.endStep_fits (hc : c < 48) (h : (s.cell c).Bears 2) (r : Run) : ((s.endStep c r).cell c).Fits := by
  unfold State.endStep
  rw [State.sendLot_cell]
  exact State.afterTop_fits hc ((State.popTop_bears hc (h.congr (State.stepEnd_core hc _))).mono one_le_two)

/-- The end of a pass outside STOPPING, where no run is incoming. -/
theorem keepsCells_endPass (r : Run) (pass : Pass) (fed : Nat)
    (hstate : (s.cell c).state ≠ .stopping) : KeepsCells s (s.endPass c r pass fed) := by
  have hstarted : KeepsCells s (if (s.cell c).state = .starting then s.startRun c r else s) := by
    split
    · exact keepsCells_startRun r
    · exact id
  have hruns : c < 48 → ((if (s.cell c).state = .starting then s.startRun c r else s).cell c).state ≠ .stopping := by
    intro hc
    split
    · rename_i hstarting
      unfold State.startRun
      dsimp only
      generalize hv : (if r.segOpen = true then _ else State.openSegment _ c r) = v
      have hcore : (v.cell c).core = (s.cell c).core := by
        subst hv
        split
        · rw [State.modLot_cell, State.modTop_core hc]
        · rw [State.openSegment_core hc, State.modLot_cell, State.modTop_core hc]
      have hsame : (v.cell c).state = .starting := (congrArg Prod.fst hcore).trans hstarting
      rw [if_pos hsame, State.toRunning_cell hc]
      simp
    · exact hstate
  unfold State.endPass
  dsimp only
  generalize (if (s.cell c).state = .starting then s.startRun c r else s) = v at hstarted hruns
  refine hstarted.trans ?_
  have hrest : ∀ u : State, KeepsCells v u → ((c < 48 → (u.cell c).state ≠ .stopping) → KeepsCells v
      (match u.lot? r.handle with
        | none => u
        | some l => if pass = .first ∧ retestDue (u.lotStep l) l.acc then u.startRetest c r.handle else u.endStep c r)) := by
    intro u hu hne
    split
    · exact hu
    · refine hu.trans ?_
      split
      · exact .of_cell ((Moves.refl u).startRetest c _ rfl) fun hc hs => State.startRetest_fits hc hs (hs.bears (hne hc)) _
      · exact .of_cell ((Moves.refl u).endStep c r rfl) fun hc hs => State.endStep_fits hc (hs.bears (hne hc)) r
  refine hrest _ (keepsCells_clearCtx.trans (keepsCells_modAcc _)) fun hc => ?_
  have hsame : ((v.clearCtx c).cell c).state = (v.cell c).state := congrArg Prod.fst (State.clearCtx_core hc)
  rw [State.modAcc_cell, hsame]
  exact hruns hc

theorem keepsCells_modTop (f : Run → Run) : KeepsCells s (s.modTop c f) :=
  .of_core ((Moves.refl s).modTop c f rfl) fun hc => State.modTop_core hc f

theorem keepsCells_takePassEnd (m : Msg) : KeepsCells s (s.takePassEnd m) := by
  unfold State.takePassEnd
  split
  · refine keepsCells_runEvent fun v r _ => ?_
    split
    · unfold State.markPassEnd
      dsimp only
      refine .trans ?_ (keepsCells_modTop _)
      split
      · exact keepsCells_startRun r
      · exact id
    · exact keepsCells_endPass _ _ _ ‹_›
  · exact id

theorem State.settleStop_fits (hc : c < 48) (h : (s.cell c).Bears 2) (k : Nat) (closed : Bool) (cause : CloseCause) :
    ((s.settleStop c k closed cause).cell c).Fits := by
  refine State.afterTop_fits hc ?_
  rw [State.sendLot_cell]
  exact (State.popTop_bears hc (h.congr (State.closeTop_core hc _))).mono one_le_two

/-- The incoming run joins a stack with room for it (R80). -/
theorem State.takeIncoming_bears (hc : c < 48) (hlength : (s.cell c).stack.length ≤ 2)
    (hroom : (s.cell c).incoming.isSome → (s.cell c).stack.length ≤ 1) : ((s.takeIncoming c).cell c).Bears 2 := by
  unfold State.takeIncoming
  split
  · rename_i i hsome
    rw [State.pushRun_cell hc, State.cell_modCell hc]
    have hroom := hroom (by simp [hsome])
    exact ⟨by simpa using hroom, rfl⟩
  · rename_i hnone
    exact ⟨hlength, hnone⟩

theorem State.settlePreempt_fits (hc : c < 48) (hlength : (s.cell c).stack.length ≤ 2)
    (hroom : (s.cell c).incoming.isSome → (s.cell c).stack.length = 1) (k : Nat) (closed : Bool) :
    ((s.settlePreempt c k closed).cell c).Fits := by
  have hshort : ∀ x : Cell, x.core = (s.cell c).core →
      x.stack.length ≤ 2 ∧ (x.incoming.isSome → x.stack.length ≤ 1) := by
    intro x hx
    simp only [Cell.core, Prod.mk.injEq] at hx
    obtain ⟨-, -, -, -, -, hl, hi⟩ := hx
    rw [hl, hi]
    exact ⟨hlength, fun hsome => (hroom hsome).le⟩
  have hpop : ∀ v : State, (v.cell c).core = (s.cell c).core →
      ((v.popTop c).cell c).stack.length ≤ 2 ∧
        (((v.popTop c).cell c).incoming.isSome → ((v.popTop c).cell c).stack.length ≤ 1) := by
    intro v hv
    obtain ⟨hl, hi⟩ := hshort _ hv
    rw [State.popTop_cell hc]
    simp only [List.length_tail]
    exact ⟨by omega, fun hsome => by have := hi hsome; omega⟩
  unfold State.settlePreempt
  dsimp only
  refine State.afterTop_fits hc ?_
  split
  · obtain ⟨hl, hi⟩ := hpop _ (State.closeTop_core hc .hold)
    exact State.takeIncoming_bears hc (by rwa [State.toHeld_cell]) (by rwa [State.toHeld_cell])
  · split
    · obtain ⟨hl, hi⟩ := hpop s rfl
      exact State.takeIncoming_bears hc (by rwa [State.passOn_cell]) (by rwa [State.passOn_cell])
    · obtain ⟨hl, hi⟩ := hshort (s.cell c) rfl
      exact State.takeIncoming_bears hc hl hi

theorem keepsCells_endStop (r : Run) : KeepsCells s (s.endStop c r) := by
  refine .of_cell ((Moves.refl s).endStop c r rfl) fun hc hs => ?_
  obtain ⟨hruns, hincoming⟩ := hs.1
  have hcore : ∀ v : State, v = (((s.clearCtx c).modTop c fun r => { r with awaiting := false }).modTimers c
      fun t => { t with stop := none }) → ((v.settleStopped c).1.cell c).stack.length = (s.cell c).stack.length ∧
        ((v.settleStopped c).1.cell c).incoming = (s.cell c).incoming := by
    rintro v rfl
    have hsettled := State.settleStopped_core (c := c) (s := ((s.clearCtx c).modTop c fun r =>
      { r with awaiting := false }).modTimers c fun t => { t with stop := none }) hc
    have htimers : ∀ u : State, ((u.modTimers c fun t => { t with stop := none }).cell c).stack = (u.cell c).stack ∧
        ((u.modTimers c fun t => { t with stop := none }).cell c).incoming = (u.cell c).incoming := by
      intro u
      unfold State.modTimers
      rw [State.cell_modCell hc]
      exact ⟨rfl, rfl⟩
    have hmarked := (State.modTop_core (s := s.clearCtx c) hc fun r => { r with awaiting := false }).trans
      (State.clearCtx_core hc)
    simp only [Cell.core, Prod.mk.injEq] at hsettled hmarked
    obtain ⟨-, -, -, -, -, hl, hi⟩ := hsettled
    obtain ⟨-, -, -, -, -, hl', hi'⟩ := hmarked
    obtain ⟨hstack, hinc⟩ := htimers ((s.clearCtx c).modTop c fun r => { r with awaiting := false })
    rw [hl, hi, hstack, hinc]
    exact ⟨hl', hi'⟩
  unfold State.endStop
  dsimp only
  obtain ⟨hl, hi⟩ := hcore _ rfl
  split
  · refine State.settlePreempt_fits hc ?_ ?_ _ _
    · rw [hl]
      exact hs.length_le
    · rw [hl, hi]
      exact fun hsome => (hincoming hsome).2.2
  · rename_i hreason
    refine State.settleStop_fits hc ⟨?_, ?_⟩ _ _ _
    · rw [hl]
      exact hs.length_le
    · rw [hi]
      by_contra hsome
      have hpreempt := (hincoming (Option.isSome_iff_ne_none.mpr hsome)).2.1
      exact hreason (by simp [hpreempt])

theorem keepsCells_unorderedStop (r : Run) (hstate : (s.cell c).state ≠ .stopping) : KeepsCells s (s.unorderedStop c r) := by
  refine .of_cell ((Moves.refl s).unorderedStop c r rfl) fun hc hs => ?_
  exact State.settleStop_fits hc (((hs.bears hstate).congr (State.clearCtx_core hc)).congr (State.modTop_core hc _)) _ _ _

theorem keepsCells_takeRunStopped (m : Msg) : KeepsCells s (s.takeRunStopped m) := by
  unfold State.takeRunStopped
  split
  · refine keepsCells_runEvent fun v r _ => ?_
    split
    · exact keepsCells_endStop _
    · exact keepsCells_unorderedStop _ ‹_›
  · exact id

/-! ### Timers -/

theorem keepsCells_expired (t : CellTimer) (hruns : timerRunsIn t (s.cell c).state = true) : KeepsCells s
    (s.expired c t) := by
  have hfailure : (s.cell c).state ≠ .stopping → ∀ cause, KeepsCells s (s.setupFailure c cause) := fun hstate cause =>
    .of_cell ((Moves.refl s).setupFailure c cause rfl fun _ => trivial) fun hc hs => State.setupFailure_fits hc hs
      hstate cause
  cases t with
  | silence =>
    exact .of_cell ((Moves.refl s).fallSilent c rfl) fun hc hs =>
      State.toOffline_fits hc (State.detach_bears hc hs.length_le)
  | load => exact hfailure (fun e => by simp [timerRunsIn, e] at hruns) _
  | kit => exact hfailure (fun e => by simp [timerRunsIn, e] at hruns) _
  | soak => exact hfailure (fun e => by simp [timerRunsIn, e] at hruns) _
  | start => exact hfailure (fun e => by simp [timerRunsIn, e] at hruns) _
  | stop =>
    exact .of_cell ((Moves.refl s).stopExpired c rfl) fun hc hs =>
      State.toFault_fits hc (State.detach_bears hc hs.length_le) _ _
  | jam => exact keepsCells_requestStop _

theorem keepsCells_takeTimeout (c : Nat) (t : CellTimer) : KeepsCells s (s.takeTimeout c t) := by
  unfold State.takeTimeout
  split
  · rename_i hdue
    simp only [Bool.and_eq_true] at hdue
    exact (keepsCells_expired t hdue.2).trans keepsCells_settle
  · exact id

theorem keepsCells_tickTimers : KeepsCells s s.tickTimers := by
  intro hs c hc
  have hcell : s.tickTimers.cell c = { s.cell c with timers := (s.cell c).timers.tick } := by
    simp [State.cell, State.tickTimers, vget, hc]
  have htick : ∀ t : Option Nat, (countDown t).isSome = t.isSome := by simp [countDown]
  have hidle : ∀ t : Option Nat, countDown t = none ↔ t = none := by simp [countDown]
  rw [hcell]
  obtain ⟨hruns, hfields⟩ := hs c hc
  refine ⟨hruns, ?_⟩
  simpa only [Cell.fieldsFit, Timers.tick, htick, hidle] using hfields

/-! ### Every step -/

theorem resetCell_fits (reg : Option Registration) : (resetCell reg).Fits := by
  simp [Cell.Fits, Cell.runsFit, Cell.fieldsFit, resetCell, Cell.reset, Timers.idle]

theorem cellsFit_of_resetCells (h : t.ctr = resetCells t.tst) : t.CellsFit := by
  intro c hc
  have hcell : t.cell c = resetCell t.tst.regs[c] := by simp [State.cell, h, resetCells, vget, hc]
  rw [hcell]
  exact resetCell_fits _

/-- The cells stay within what their states allow over each part of a step. -/
theorem closed_keepsCells : Closed KeepsCells where
  refl _ := id
  trans h k x := k (h x)
  blocks h := by
    simp only [Prod.mk.injEq] at h
    simp only [KeepsCells, State.CellsFit, State.cell, h, imp_self]
  emptied _ hc _ := cellsFit_of_resetCells hc
  cellsReset _ hc _ := cellsFit_of_resetCells hc
  cellReset s c reg := .of_cell ((Moves.refl s).modCell c _ rfl) fun hc _ => Cell.Fits.modCell hc (resetCell_fits reg)
  cleared s image free level _ := by
    intro c hc
    have hcell : (State.hardReset s.pending image free s.pcl.floorLink s.pcl.plantLink level).cell c = Cell.reset 0 :=
      vget_replicate _ _ hc
    rw [hcell]
    exact resetCell_fits none
  shipLeaves _ _ := id
  joinQueue s h new := .of_moves ((Moves.refl s).joinQueue h new)
  placeHold _ _ n := keepsCells_placeHold n
  leaveHold s h := .of_moves ((Moves.refl s).leaveHold h)
  releasePending s n := .of_moves (.releasePending n (.refl s))
  judgeLapses _ := .foldl _ (fun _ _ => keepsCells_judgeLapse) _ _
  settle _ := keepsCells_settle
  tickTimers _ := keepsCells_tickTimers
  takeTimeout _ c t := keepsCells_takeTimeout c t
  takeStatus _ m := keepsCells_takeStatus m
  takeLoadDone _ m := keepsCells_takeLoadDone m
  takeRunStarted _ m := keepsCells_takeRunStarted m
  takePassEnd _ m := keepsCells_takePassEnd m
  takeRunStopped _ m := keepsCells_takeRunStopped m
  takeBin _ m := keepsCells_takeBin m
  takeCompact _ m := keepsCells_takeCompact m

/-- Settles O5: each operation of a cell leaves it with what its new state allows, and the state it is taken in says so. -/
theorem stepKeepsCellsFit : Obligations.StepKeepsCellsFit := fun _ _ h hstep =>
  step_induction (fun _ _ h => h) (fun _ _ h hn => closed_keepsCells.next hn h) h hstep

end Sys2Proof.Machine
end

section
/-! The ports, the classifier and the queues: what a frame, a notice and an order do while they are let through, and the statements
about the traffic path (R163 to R170, R172, R181). -/

namespace Sys2Proof.Machine

set_option Elab.async false

variable {s : State}

/-! ### Frames that find room -/

theorem State.enqueue_plant_of_room (h : s.plantRoom 1) (f : Frame) : s.enqueue .plant f = s.sendsPlant [f] := by
  have hlen : s.pcl.plantQ.length < queueCapacity := h
  simp [State.enqueue, hlen, State.sendsPlant]

theorem State.enqueue_floor_of_room (h : s.floorRoom 1) (f : Frame) : s.enqueue .floor f = s.sendsFloor [f] := by
  have hlen : s.pcl.floorQ.length < queueCapacity := h
  simp [State.enqueue, hlen, State.sendsFloor]

theorem State.forward_of_room (h : s.plantRoom 1) (kind : Code16) (m : Msg) (body : List Byte) :
    s.forward kind m body = s.sendsPlant [forwardedFrame s kind m body] := State.enqueue_plant_of_room h _

/-- An order to a registered cell joins the floor-bound queue (R70, R170). -/
theorem State.order_of_room {reg : Registration} {c : Nat} (hreg : s.reg? c = some reg) (h : s.floorRoom 1) (run : Option Run)
    (o : Order) : s.order c run o = s.sendsFloor [s.orderFrame reg c run o] := by
  unfold State.order
  rw [State.enqueue_floor_of_room h, hreg]
  rfl

/-- A notice joins the plant-bound queue under the next sequence number (R181). -/
theorem State.notice_of_go (hgo : s.noticesGo) (h : s.plantRoom 1) (b : NoticeBody) : s.notice b = s.notifies b := by
  obtain ⟨haddr, hlink⟩ := hgo
  unfold State.notice
  dsimp only
  rw [if_neg (by rintro (h | h); exacts [haddr h, absurd hlink (by simp [h])]), State.enqueue_plant_of_room (by exact h)]
  rfl

/-- A notice that does not go is discarded and counted (R181). -/
theorem State.notice_discarded (hgo : ¬s.noticesGo) (b : NoticeBody) : s.notice b = { s with pcl := { s.pcl with
    noticeSeq := (s.pcl.noticeSeq + 1) % 65536, discards := bump s.pcl.discards 1 } } := by
  have hstop : s.tst.settings.mgmtAddr = 0 ∨ s.pcl.plantLink = false := by
    by_contra h
    simp only [not_or, Bool.not_eq_false] at h
    exact hgo h
  unfold State.notice
  dsimp only
  rw [if_pos hstop]

theorem State.plantRoom_succ {n : Nat} (h : s.plantRoom (n + 1)) (f : Frame) : (s.sendsPlant [f]).plantRoom n := by
  simp only [State.plantRoom, State.sendsPlant, List.length_append, List.length_singleton] at h ⊢
  omega

theorem State.floorRoom_succ {n : Nat} (h : s.floorRoom (n + 1)) (f : Frame) : (s.sendsFloor [f]).floorRoom n := by
  simp only [State.floorRoom, State.sendsFloor, List.length_append, List.length_singleton] at h ⊢
  omega

theorem State.plantRoom_mono {n k : Nat} (h : s.plantRoom n) (hk : k ≤ n) : s.plantRoom k :=
  (Nat.add_le_add_left hk _).trans h

theorem State.floorRoom_mono {n k : Nat} (h : s.floorRoom n) (hk : k ≤ n) : s.floorRoom k :=
  (Nat.add_le_add_left hk _).trans h

@[simp] theorem bump_one (n : Nat) : bump n 1 = min 4294967295 (n + 1) := rfl

/-! ### Frames that arrive -/

/-- Outside reset a frame has its effect, and the pass it started is taken (R67, R186). -/
theorem arrival_of_running (hreset : s.tbs.resetIn = false) (take : State → State) :
    arrival s take = .next (take s).settle := by simp [arrival, hreset, done]

/-- A frame whose effect starts no pass. -/
theorem arrival_eq {t : State} {take : State → State} (hreset : s.tbs.resetIn = false) (htake : take s = t) (hpass : t.passTaken) :
    arrival s take = .next t := by
  rw [arrival_of_running hreset, htake, State.settle_of_passTaken hpass]

/-- A row of a cell message hands it to the cell tracker or the yield guard, which leave it to its owner (R165). -/
theorem exec_cellMsg {i : Instr} {kind : Code16} {m : Msg} (h : i.cellMsg? = some (kind, m)) (s : State) :
    ∃ take, exec i s = fromCell kind m take s ∨ exec i s = binFrame kind m take s := by
  cases i <;> cases h
  case status => exact ⟨(State.takeStatus · m), .inl rfl⟩
  case loadDone => exact ⟨(State.takeLoadDone · m), .inl rfl⟩
  case runStarted => exact ⟨(State.takeRunStarted · m), .inl rfl⟩
  case passEnd => exact ⟨(State.takePassEnd · m), .inl rfl⟩
  case runStopped => exact ⟨(State.takeRunStopped · m), .inl rfl⟩
  case bin => exact ⟨(State.takeBin · m), .inr rfl⟩
  case binCompact => exact ⟨(State.takeCompact · m), .inr rfl⟩

/-- A row of a request hands it to the management check and its owner (R172). -/
theorem exec_request {i : Instr} {kind : Code16} {m : Msg} (h : i.request? = some (kind, m)) (s : State) :
    ∃ take, exec i s = request kind m take s := by
  cases i <;> cases h <;> exact ⟨_, rfl⟩

theorem State.isStarting_eq : s.isStarting = decide (s.tbs.mode = .starting) := by
  simp [State.isStarting, beq_eq_decide]

/-! ### The statements -/

/-- Settles O11. -/
theorem linkChangeSetsTheLink : Obligations.LinkChangeSetsTheLink := fun _ _ => ⟨rfl, rfl⟩

/-- Settles O12: by the link, the oldest frame leaves or nothing does. -/
theorem queueSendsOldestFrame : Obligations.QueueSendsOldestFrame := by
  intro s f rest hreset
  refine ⟨fun hq => ?_, fun hq => ?_⟩
  · have hsend : s.sendFloor = if s.pcl.floorLink then
        { s with pcl := { s.pcl with floorQ := rest, floorOut := some f.wire } } else s := by
      simp only [State.sendFloor, hq]
    rw [← hsend]
    simp [exec, execQueueSend, hreset]
  · have hsend : s.sendPlant = if s.pcl.plantLink then
        { s with pcl := { s.pcl with plantQ := rest, plantOut := some f.wire } } else s := by
      simp only [State.sendPlant, hq]
    rw [← hsend]
    simp [exec, execQueueSend, hreset]

/-- Settles O13: a frame of another type reaches no classifier. -/
theorem foreignFramePassesThrough : Obligations.ForeignFramePassesThrough := by
  intro f s hreset hpass htype
  have hfloor : s.isFloorFrame f = false := by simpa [State.isFloorFrame] using htype
  have hexec : ∀ port, exec (.foreignFrame port f) s = arrival s fun s => s.passThrough port f := fun port => by
    simp [exec, execForeignFrame, hfloor]
  refine ⟨fun hroom => ?_, fun hroom => ?_⟩
  · rw [hexec]
    exact arrival_eq hreset (State.enqueue_plant_of_room hroom _) hpass
  · rw [hexec]
    exact arrival_eq hreset (State.enqueue_floor_of_room hroom _) hpass

/-- One counter's value after a frame was dropped (R170, R198). -/
theorem State.event_value_of_cfg (e : EventSource) (v : Nat) {i : Nat} (hi : i < 8) {cfg : CounterCfg}
    (hcfg : vget s.tst.counters none i = some cfg) : vget (s.event e v).fcn.values 0 i =
      if cfg.source = .event e ∧ meets cfg v then min 4294967295 (vget s.fcn.values 0 i + 1) else vget s.fcn.values 0 i := by
  simp only [State.event, vget_ofFn _ _ hi, hcfg, counted, bump_one]

/-- Settles O14: the branch of the full queue. -/
theorem fullQueueDropsFrame : Obligations.FullQueueDropsFrame := by
  intro s f
  refine ⟨fun hfull => ?_, fun hfull => ?_⟩
  · have hdrop : s.enqueue .floor f =
        ({ s with pcl := { s.pcl with floorDrops := bump s.pcl.floorDrops 1 } } : State).event .portDrop 0 := by
      simp [State.enqueue, hfull, portCode]
    rw [hdrop]
    exact ⟨rfl, fun c cfg hc hcfg => State.event_value_of_cfg _ _ hc hcfg, rfl⟩
  · have hdrop : s.enqueue .plant f =
        ({ s with pcl := { s.pcl with plantDrops := bump s.pcl.plantDrops 1 } } : State).event .portDrop 1 := by
      simp [State.enqueue, hfull, portCode]
    rw [hdrop]
    exact ⟨rfl, fun c cfg hc hcfg => State.event_value_of_cfg _ _ hc hcfg, rfl⟩

/-- Settles O15: the header is judged before anything else of the frame. -/
theorem unreadableHeaderIsDropped : Obligations.UnreadableHeaderIsDropped := by
  intro f s hreset hpass htype hheader
  have hexec : ∀ port, exec (.headerUnreadable port f) s = arrival s fun s => s.countMalformed port := fun port => by
    simp [exec, execHeaderUnreadable, State.isFloorFrame, htype, hheader]
  exact ⟨(hexec .floor).trans (arrival_eq hreset rfl hpass), (hexec .plant).trans (arrival_eq hreset rfl hpass)⟩

/-- Settles O16: a kind outside the cell kinds reaches no owner. -/
theorem floorForwardsWhatItDoesNotTake : Obligations.FloorForwardsWhatItDoesNotTake := by
  intro kind m s hreset hpass hkind hroom
  have hexec : exec (.floorForwardOnly kind m) s = arrival s fun s => s.forwardOnly kind m := by
    simp [exec, execFloorForwardOnly, hkind]
  rw [hexec]
  refine arrival_eq hreset ?_ ?_
  · simp only [State.forwardOnly, isReserved, State.isStarting_eq, Bool.and_eq_true, Bool.not_eq_true', decide_eq_false_iff_not,
      bump_one]
    split
    · refine State.forward_of_room ?_ _ _ _
      exact hroom
    · exact State.forward_of_room hroom _ _ _
  · split
    · exact hpass
    · exact hpass

/-- Settles O17: no owner is asked in STARTING. -/
theorem startingForwardsCellMessages : Obligations.StartingForwardsCellMessages := by
  intro i kind m s hmsg hreset hmode hpass hroom
  have hstarting : s.isStarting = true := by simp [State.isStarting_eq, hmode]
  have hforward := State.forward_of_room hroom kind m m.body
  obtain ⟨take, hexec | hexec⟩ := exec_cellMsg hmsg s
  · rw [hexec]
    exact arrival_eq hreset (by rw [if_pos hstarting]; exact hforward) hpass
  · rw [hexec]
    exact arrival_eq hreset (by rw [if_pos hstarting]; exact hforward) hpass

/-- Settles O18: the mode and the management check come before the request is opened. -/
theorem requestsThatNobodyTakes : Obligations.RequestsThatNobodyTakes := by
  intro i kind m s hmsg hreset hpass
  obtain ⟨take, hexec⟩ := exec_request hmsg s
  rw [hexec]
  refine ⟨fun hmode => arrival_eq hreset ?_ hpass, fun hmode haddr hsrc => arrival_eq hreset ?_ hpass⟩
  · simp [State.manage, State.isStarting_eq, hmode, State.countStartupDrop]
  · have hmanager : s.isManager m = false := by
      simp only [State.isManager, Bool.or_eq_false_iff, beq_eq_false_iff_ne]
      exact ⟨haddr, hsrc⟩
    simp [State.manage, State.isStarting_eq, hmode, hmanager, State.countNotManager]

/-- Settles O19: by the kind, the mode, and what becomes of the notice. -/
theorem interlockBlocksOrders : Obligations.InterlockBlocksOrders := by
  intro kind m s hreset hpass hdest
  have hexec : exec (.plantFrameToCell kind m) s = arrival s fun s => s.toCell kind m := by
    simp [exec, execPlantFrameToCell, hdest]
  have hblocked : isOrderKind kind = true → s.tbs.mode ≠ .starting → s.toCell kind m =
      ({ s with pcl := { s.pcl with interlock := min 4294967295 (s.pcl.interlock + 1) } } : State).notice
        (.interlock kind m.cell.toNat m.handle.toNat m.inst.toNat m.step.toNat m.src) := fun hkind hmode => by
    simp [State.toCell, hkind, State.isStarting, hmode]
  rw [hexec]
  refine ⟨fun hkind hroom => arrival_eq hreset ?_ hpass, fun hkind hmode => arrival_eq hreset ?_ hpass,
    fun hkind hmode hgo hroom => arrival_eq hreset ?_ hpass, fun hkind hmode hgo => arrival_eq hreset ?_ hpass,
    fun hkind hmode hgo hfull => arrival_eq hreset ?_ hpass⟩
  · simp only [State.toCell, hkind, Bool.false_eq_true, if_false]
    exact State.enqueue_floor_of_room hroom _
  · simp [State.toCell, hkind, State.isStarting, hmode]
  · rw [hblocked hkind hmode]
    refine State.notice_of_go ?_ ?_ _
    · exact hgo
    · exact hroom
  · rw [hblocked hkind hmode]
    refine State.notice_discarded ?_ _
    exact hgo
  · obtain ⟨haddr, hlink⟩ := hgo
    have hlen : ¬s.pcl.plantQ.length < queueCapacity := hfull
    rw [hblocked hkind hmode]
    have hqueued : ¬(s.tst.settings.mgmtAddr = 0 ∨ s.pcl.plantLink = false) := by
      rintro (h | h)
      · exact haddr h
      · exact absurd hlink (by simp [h])
    simp only [State.notice, hqueued, if_false, State.enqueue, hlen, portCode, bump_one]

/-- Settles O20. -/
theorem frameToPlantIsMisdirected : Obligations.FrameToPlantIsMisdirected := by
  intro kind m s htakes hpass hdest
  obtain ⟨hreset, hmode⟩ := htakes
  have hexec : exec (.plantFrameToPlant kind m) s = arrival s fun s => s.misdirect := by
    simp [exec, execPlantFrameToPlant, hdest]
  rw [hexec]
  exact arrival_eq hreset (by simp [State.misdirect, State.isStarting, hmode]) hpass

/-- Settles O21: a body without its tag is answered before its owner sees it; a kind without an owner is answered by its kind. -/
theorem unreadableRequestIsMalformed : Obligations.UnreadableRequestIsMalformed := by
  refine ⟨fun kind m tag rest s haccepts hpass hroom hdest hkind => ?_, fun i kind m s hmsg htakes hsource hpass hroom htag => ?_⟩
  · have hexec : exec (.nonRequestToPart kind m) s = request kind m (takeNonRequest kind) s := by
      simp [exec, execNonRequestToPart, hdest, hkind]
    rw [hexec, request_of_accepts haccepts, takeNonRequest, State.reply_of_plantRoom hroom]
    exact congrArg _ (State.settle_of_passTaken hpass)
  · obtain ⟨hreset, hmode⟩ := htakes
    obtain ⟨take, hexec⟩ := exec_request hmsg s
    have hmanager : s.isManager m = true := by simpa [State.isManager] using hsource
    rw [hexec]
    refine arrival_eq hreset ?_ hpass
    simp only [State.manage, State.isStarting_eq, hmode, decide_false, Bool.false_eq_true, if_false, hmanager, Bool.not_true,
      htag]
    exact State.reply_of_plantRoom hroom _ _ _ _ _

end Sys2Proof.Machine
end

section
/-! Figures, lists and lookups: what the judgements compute, and the requests that answer from the state as it stands
(R8, R17, R26,
R33, R65, R112, R124, R131, R175 to R179, R195). -/

namespace Sys2Proof.Machine

set_option Elab.async false

variable {s : State}

/-! ### Figures -/

theorem mapBin_append_of_holds {l after : List BinRange} {r : BinRange} {soft : Nat} (hl : ∀ q ∈ l, ¬q.holds soft)
    (hr : r.holds soft) : mapBin (l ++ r :: after) soft = ⟨r.hard, r.cls, false⟩ := by
  have hnone : l.find? (fun q => decide (q.low ≤ soft) && decide (soft ≤ q.high)) = none := by
    simpa [BinRange.holds] using hl
  have hhead : (decide (r.low ≤ soft) && decide (soft ≤ r.high)) = true := by simpa [BinRange.holds] using hr
  simp [mapBin, List.find?_append, hnone, hhead]

theorem mapBin_of_none {l : List BinRange} {soft : Nat} (hl : ∀ q ∈ l, ¬q.holds soft) :
    mapBin l soft = ⟨15, .fail, true⟩ := by
  have hnone : l.find? (fun q => decide (q.low ≤ soft) && decide (soft ≤ q.high)) = none := by
    simpa [BinRange.holds] using hl
  simp [mapBin, hnone]

/-- Settles O22. -/
theorem softBinTakesFirstRange : Obligations.SoftBinTakesFirstRange :=
  ⟨fun _ _ _ _ => mapBin_append_of_holds, fun _ _ => mapBin_of_none⟩

/-- A division rounded half up stays within half a divisor of its dividend. -/
theorem half_up_bounds (n t : Nat) (ht : 0 < t) :
    2 * ((n + t / 2) / t) * t ≤ 2 * n + t ∧ 2 * n + t < 2 * ((n + t / 2) / t + 1) * t := by
  have hdiv := Nat.div_add_mod (n + t / 2) t
  have hmod := Nat.mod_lt (n + t / 2) ht
  set q := (n + t / 2) / t
  have hl : 2 * q * t = 2 * (t * q) := by ring
  have hr : 2 * (q + 1) * t = 2 * (t * q) + 2 * t := by ring
  rw [hl, hr]
  omega

/-- A division rounded up is the least multiplier that reaches its dividend. -/
theorem divUp_bounds (n d : Nat) (hn : 0 < n) (hd : 0 < d) : n ≤ divUp n d * d ∧ (divUp n d - 1) * d < n := by
  have hdiv := Nat.div_add_mod (n + d - 1) d
  have hmod := Nat.mod_lt (n + d - 1) hd
  simp only [divUp]
  set q := (n + d - 1) / d
  have hq : 0 < q := by
    by_contra h0
    have : q = 0 := Nat.eq_zero_of_not_pos h0
    rw [this, Nat.mul_zero] at hdiv
    have hlt : n + d - 1 < d := by omega
    omega
  obtain ⟨k, hk⟩ := Nat.exists_eq_succ_of_ne_zero hq.ne'
  rw [hk] at hdiv ⊢
  have hl : d * (k + 1) = k * d + d := by ring
  have hr : (k + 1) * d = k * d + d := by ring
  simp only [Nat.succ_eq_add_one, Nat.add_sub_cancel] at hdiv ⊢
  rw [hl] at hdiv
  rw [hr]
  omega

theorem divUp_thousand (n : Nat) : n ≤ 1000 * divUp n 1000 ∧ 1000 * divUp n 1000 < n + 1000 := by
  simp only [divUp]
  omega

/-- Settles O23. -/
theorem yieldAndEstimateAreRounded : Obligations.YieldAndEstimateAreRounded := by
  refine ⟨fun _ => rfl, fun good tested ht => ?_, fun _ _ => rfl, fun units e t hu he => ?_⟩
  · obtain ⟨hlow, hhigh⟩ := half_up_bounds (good * 1000) tested ht
    refine ⟨(good * 1000 + tested / 2) / tested, by simp [yieldPermille, ht.ne'], by omega, by omega, fun hle => ?_⟩
    refine Nat.lt_succ_iff.mp ((Nat.div_lt_iff_lt_mul ht).mpr ?_)
    omega
  · obtain ⟨hholds, hleast⟩ := divUp_bounds units e hu he
    obtain ⟨hlow, hhigh⟩ := divUp_thousand (divUp units e * t)
    have hest : estimate units e t = divUp (divUp units e * t) 1000 := by simp [estimate, hu.ne']
    exact ⟨divUp units e, hholds, hleast, by rwa [hest], by rwa [hest]⟩

/-! ### The window and the hold list -/

/-- Settles O26: the window has room for the new class or drops its oldest. -/
theorem windowKeepsLastClasses : Obligations.WindowKeepsLastClasses := by
  intro a w cls hw hlen hpass
  unfold pushWindow
  dsimp only
  split
  · rename_i hroom
    refine ⟨?_, ?_, rfl⟩
    · rw [Nat.sub_eq_zero_of_le (by omega), List.drop_zero]
    · simp only [List.count_append, List.count_singleton, hpass, beq_iff_eq]
  · rename_i hfull
    have hone : a.window.length + 1 - w = 1 := by omega
    refine ⟨by rw [hone, List.drop_one], ?_, rfl⟩
    obtain ⟨oldest, rest, hcons⟩ : ∃ x r, a.window ++ [cls] = x :: r :=
      List.exists_cons_of_ne_nil (by simp)
    have hcount : (a.window ++ [cls]).count .pass = a.winPass + if cls = .pass then 1 else 0 := by
      simp only [List.count_append, List.count_singleton, hpass, beq_iff_eq]
    rw [hcons, List.count_cons] at hcount
    simp only [hcons, List.tail_cons, List.head?_cons, Option.some.injEq]
    simp only [beq_iff_eq] at hcount
    omega

theorem mem_addTrip {l : List Trip} {t x : Trip} : x ∈ addTrip l t ↔ x ∈ l ∨ x = t := by
  unfold addTrip
  split
  · rename_i h
    have hmem : t ∈ l := by simpa using h
    constructor
    · exact Or.inl
    · rintro (h | rfl)
      · exact h
      · exact hmem
  · simp

theorem mem_addTrips {ts : List Trip} : ∀ {l : List Trip} {x : Trip}, x ∈ addTrips l ts ↔ x ∈ l ∨ x ∈ ts := by
  induction ts with
  | nil => simp [addTrips]
  | cons t ts ih =>
    intro l x
    have hstep : addTrips l (t :: ts) = addTrips (addTrip l t) ts := rfl
    rw [hstep, ih, mem_addTrip, List.mem_cons, or_assoc]

theorem nodup_addTrips {ts : List Trip} : ∀ {l : List Trip}, l.Nodup → (addTrips l ts).Nodup := by
  induction ts with
  | nil => exact id
  | cons t ts ih =>
    intro l hl
    refine ih ?_
    unfold addTrip
    split
    · exact hl
    · rename_i h
      have hnew : t ∉ l := by simpa using h
      refine List.nodup_append.mpr ⟨hl, List.nodup_singleton t, fun a ha b hb hab => hnew ?_⟩
      rwa [← List.mem_singleton.mp hb, ← hab]

/-- A hold of a reason that no entry has is appended (R131). -/
theorem placeEntry_new {l : List HoldEntry} {n : NewHold} (now : Nat) (h : ∀ e ∈ l, e.reason ≠ n.reason) :
    placeEntry l n now = l ++ [⟨n.reason, now, n.placedBy, n.trips, 1, n.note⟩] := by
  have hany : l.any (fun e => e.reason == n.reason) = false := by simpa using h
  simp [placeEntry, hany]

/-- A hold of a reason that an entry has is merged into it (R131). -/
theorem placeEntry_present {l : List HoldEntry} {n : NewHold} (now : Nat) (h : ∃ e ∈ l, e.reason = n.reason) :
    placeEntry l n now = l.map fun e => if e.reason == n.reason then mergeHold e n else e := by
  have hany : l.any (fun e => e.reason == n.reason) = true := by simpa using h
  simp [placeEntry, hany]

theorem map_reason_merge (l : List HoldEntry) (n : NewHold) :
    (l.map fun e => if e.reason == n.reason then mergeHold e n else e).map HoldEntry.reason = l.map HoldEntry.reason := by
  rw [List.map_map]
  refine List.map_congr_left fun e _ => ?_
  simp only [Function.comp]
  split <;> rfl

/-- The entries of a list with one entry a reason that have another reason are not merged. -/
theorem map_merge_other {l : List HoldEntry} {n : NewHold} (h : ∀ e ∈ l, e.reason ≠ n.reason) :
    (l.map fun e => if e.reason == n.reason then mergeHold e n else e) = l := by
  refine (List.map_congr_left fun e he => ?_).trans (List.map_id' l)
  simp [h e he]

/-- Settles O27: by whether an entry of the reason stands. -/
theorem holdListKeepsOneEntryPerReason : Obligations.HoldListKeepsOneEntryPerReason := by
  intro l n now hnodup hrepeats
  refine ⟨?_, ?_, placeEntry_new now, ?_⟩
  · by_cases h : ∃ e ∈ l, e.reason = n.reason
    · rwa [placeEntry_present now h, map_reason_merge]
    · push Not at h
      rw [placeEntry_new now h, List.map_append]
      refine List.nodup_append.mpr ⟨hnodup, List.nodup_singleton _, ?_⟩
      simpa using fun e he => h e he
  · by_cases h : ∃ e ∈ l, e.reason = n.reason
    · rw [placeEntry_present now h]
      intro e he
      obtain ⟨x, hx, rfl⟩ := List.mem_map.mp he
      split
      · exact Nat.min_le_left _ _
      · exact hrepeats x hx
    · push Not at h
      rw [placeEntry_new now h]
      intro e he
      rcases List.mem_append.mp he with he | he
      · exact hrepeats e he
      · simp only [List.mem_singleton] at he
        simp [he]
  · rintro before after e rfl hreason
    simp only [List.map_append, List.map_cons, List.nodup_append, List.nodup_cons, List.mem_cons, List.mem_map] at hnodup
    obtain ⟨-, ⟨hafter, -⟩, hbefore⟩ := hnodup
    refine ⟨addTrips e.trips n.trips, ?_, fun t => mem_addTrips, nodup_addTrips⟩
    rw [placeEntry_present now ⟨e, by simp, hreason⟩, List.map_append, List.map_cons,
      map_merge_other fun x hx hr => hbefore x.reason ⟨x, hx, rfl⟩ e.reason (.inl rfl) (hr.trans hreason.symm),
      map_merge_other fun x hx hr => hafter ⟨x, hx, hr.trans hreason.symm⟩]
    simp [hreason, mergeHold]

/-! ### Requests that answer from the state -/

/-- A request whose effect starts no pass. -/
theorem request_eq {kind : Code16} {m : Msg} {tag : Nat} {rest : List Byte} {take : ReqRef → List Byte → State → State}
    {t : State}
    (ha : s.accepts m tag rest) (htake : take (reqRef m tag) rest s = t) (hpass : t.passTaken) :
    request kind m take s = .next t := by
  rw [request_of_accepts ha, htake, State.settle_of_passTaken hpass]

/-- A message that names no lot fails the lookup with its code (R8). -/
theorem State.lookup_of_refusesLot {m : Msg} {code : ReplyCode} (h : s.refusesLot m code) :
    ∃ x, s.lookup m.handle.toNat m.inst.toNat = x ∧ x.replyCode = code ∧ ∀ l, x ≠ .found l := by
  have hbound : (groupOf m.handle.toNat < 32 ∧ (s.group (groupOf m.handle.toNat)).state ≠ .unbound) →
      ¬(32 ≤ groupOf m.handle.toNat ∨ (s.group (groupOf m.handle.toNat)).state = .unbound) := by
    rintro ⟨hlt, hstate⟩ (hge | hunbound)
    · omega
    · exact hstate hunbound
  rcases h with ⟨rfl, hunbound⟩ | ⟨rfl, hb, hfree⟩ | ⟨rfl, hb, hlive, hinst⟩
  · refine ⟨.unknownGroup, if_pos ?_, rfl, fun l => by simp⟩
    by_contra hn
    exact hunbound (by simpa only [not_or, not_le] using hn)
  · refine ⟨.unknownLot, ?_, rfl, fun l => by simp⟩
    rw [State.lookup, if_neg (hbound hb), hfree]
  · obtain ⟨l, hl⟩ := Option.isSome_iff_exists.mp hlive
    refine ⟨.stale, ?_, rfl, fun l => by simp⟩
    rw [State.lookup, if_neg (hbound hb), hl]
    exact if_neg hinst

/-- A message that names a live lot finds it (R8). -/
theorem State.lookup_of_namesLot {m : Msg} {l : Lot} (h : s.namesLot m l) :
    s.lookup m.handle.toNat m.inst.toNat = .found l := by
  obtain ⟨hlt, hstate, hslot⟩ := h
  unfold State.lookup
  rw [if_neg (by rintro (hge | hunbound); exacts [absurd hlt (by omega), hstate hunbound]), State.lot?, hslot]
  exact if_pos rfl

theorem State.lot?_of_namesLot {m : Msg} {l : Lot} (h : s.namesLot m l) : s.lot? m.handle.toNat = some l := by
  rw [State.lot?, h.2.2]

/-- Settles O29: each of the four requests looks its lot up before anything else. -/
theorem unresolvedLotIsRefused : Obligations.UnresolvedLotIsRefused := by
  intro m tag rest code s ha hpass hroom hrefuses
  obtain ⟨x, hx, rfl, hne⟩ := State.lookup_of_refusesLot hrefuses
  have hreply := fun kind => State.reply_of_plantRoom hroom kind m tag x.replyCode .empty
  have hrelease : (readRelease rest).isSome → takeRelease (reqRef m tag) rest s =
      s.answers Kind.release m tag x.replyCode .empty := by
    intro hsome
    obtain ⟨⟨reason, d⟩, hb⟩ := Option.isSome_iff_exists.mp hsome
    rw [← hreply]
    cases x with
    | found l => exact absurd rfl (hne l)
    | unknownGroup | unknownLot | stale => simp [takeRelease, hb, reqRef, hx]
  refine ⟨fun hsome => request_eq ha ?_ hpass, fun hsome => ⟨request_eq ha (hrelease hsome) hpass,
    request_eq ha (hrelease hsome) hpass, request_eq ha (hrelease hsome) hpass⟩, fun hnil => request_eq ha ?_ hpass,
    fun ⟨start, hb⟩ => request_eq ha ?_ hpass⟩
  · obtain ⟨note, hb⟩ := Option.isSome_iff_exists.mp hsome
    rw [← hreply]
    cases x with
    | found l => exact absurd rfl (hne l)
    | unknownGroup | unknownLot | stale => simp [takeHold, hb, reqRef, hx]
  · subst hnil
    rw [← hreply]
    cases x with
    | found l => exact absurd rfl (hne l)
    | unknownGroup | unknownLot | stale => simp [takeShipConfirm, readNothing, atEnd, reqRef, hx]
  · rw [← hreply]
    cases x with
    | found l => exact absurd rfl (hne l)
    | unknownGroup | unknownLot | stale => simp [takeQuery, hb, State.queryLot, reqRef, hx]

/-! ### SWEEP -/

theorem State.slot_modLot (h k : Nat) (f : Lot → Lot) : (s.modLot h f).slot k =
    if k = h then { s.slot k with lot := (s.lot? k).map f } else s.slot k := by
  simp only [State.modLot, State.modSlot, State.slot, State.lot?, vget_vmod]
  by_cases hk : k = h
  · subst hk
    by_cases hlt : k < 512
    · simp [hlt]
    · simp [hlt, vget_outside _ _ (Nat.le_of_not_lt hlt), Slot.none]
  · simp [hk, Ne.symm hk]

theorem State.slot_modLot_self (h : Nat) (f : Lot → Lot) :
    (s.modLot h f).slot h = { s.slot h with lot := (s.lot? h).map f } := by rw [State.slot_modLot, if_pos rfl]

theorem State.slot_modLot_ne {h k : Nat} (hk : k ≠ h) (f : Lot → Lot) : (s.modLot h f).slot k = s.slot k := by
  rw [State.slot_modLot, if_neg hk]

/-- The lots of a list of handles changed alike, by a change that done twice is as done once. -/
theorem foldl_modLot (f : Lot → Lot) (hf : ∀ l, f (f l) = f l) (handles : List Nat) : ∀ s : State,
    ∃ slots, handles.foldl (fun v h => v.modLot h f) s = { s with ldr := { s.ldr with slots := slots } } ∧
      ∀ k, vget slots Slot.none k = if k ∈ handles then { s.slot k with lot := (s.lot? k).map f } else s.slot k := by
  induction handles with
  | nil => exact fun s => ⟨s.ldr.slots, rfl, fun k => by simp [State.slot]⟩
  | cons h rest ih =>
    intro s
    obtain ⟨slots, heq, hslots⟩ := ih (s.modLot h f)
    refine ⟨slots, heq, fun k => ?_⟩
    rw [hslots k]
    by_cases hk : k = h
    · subst hk
      simp only [State.lot?, State.slot_modLot_self, Option.map_map, List.mem_cons, true_or, if_true]
      split
      · cases (s.slot k).lot <;> simp [hf]
      · rfl
    · simp only [State.lot?, State.slot_modLot_ne hk, List.mem_cons, hk, false_or]

theorem groupHandles_sorted (g : Nat) : (groupHandles g).Pairwise (· < ·) := by
  unfold groupHandles
  refine List.pairwise_map.mpr (List.pairwise_lt_range.imp fun h => ?_)
  omega

theorem State.sweepEntry_eq_some {h a inst : Nat} {st : LotState} :
    s.sweepEntry h = some (a, inst, st) ↔ a = h ∧ ∃ l, s.slot h = ⟨inst, some l⟩ ∧ l.state = st ∧ l.mark = false := by
  unfold State.sweepEntry State.lot?
  rcases hslot : s.slot h with ⟨n, _ | l⟩
  · simp
  · cases hmark : l.mark
    · simp [hmark, eq_comm (a := a) (b := h)]
    · simp [hmark]

/-- Settles O32: the list is taken before the marks are cleared. -/
theorem sweepListsAndClearsMarks : Obligations.SweepListsAndClearsMarks := by
  intro m tag g rest s ha hb hpass hroom
  refine ⟨fun hunknown => request_eq ha ?_ hpass, fun hg hbound => ?_⟩
  · have hcond : 32 ≤ g ∨ (s.group g).state = .unbound := hunknown
    simp only [takeSweep, State.groupRequest, hb, hcond, if_true]
    exact State.reply_of_plantRoom hroom _ _ _ _ _
  · have hcond : ¬(32 ≤ g ∨ (s.group g).state = .unbound) := by
      rintro (h | h)
      · omega
      · exact hbound h
    obtain ⟨slots, heq, hslots⟩ := foldl_modLot (fun l => { l with mark := false }) (fun _ => rfl) (groupHandles g) s
    refine ⟨slots, (groupHandles g).filterMap s.sweepEntry, request_eq ha ?_ hpass, fun h hh => ?_, fun h hh => ?_, ?_, ?_⟩
    · simp only [takeSweep, State.groupRequest, hb, hcond, if_false, State.clearMarks, heq]
      refine State.reply_of_plantRoom ?_ _ _ _ _ _
      exact hroom
    · rw [hslots, if_pos ((mem_groupHandles g h).mpr hh)]
    · rw [hslots, if_neg fun hmem => hh ((mem_groupHandles g h).mp hmem)]
    · refine List.pairwise_map.mpr (List.pairwise_filterMap.mpr ((groupHandles_sorted g).imp ?_))
      rintro a b hab ⟨x, i, st⟩ hx ⟨y, j, st'⟩ hy
      rw [(State.sweepEntry_eq_some.mp hx).1, (State.sweepEntry_eq_some.mp hy).1]
      exact hab
    · intro h inst st
      simp only [List.mem_filterMap, State.sweepEntry_eq_some, mem_groupHandles]
      constructor
      · rintro ⟨a, hgroup, rfl, hl⟩
        exact ⟨hgroup, hl⟩
      · rintro ⟨hgroup, hl⟩
        exact ⟨h, hgroup, rfl, hl⟩

/-! ### TABLE_READ -/

theorem takeTableRead_refused {m : Msg} {tag target table entry : Nat} {rest : List Byte} {code : ReplyCode}
    (hb : readTableRead rest = some (target, table, entry)) (hroom : s.plantRoom 1)
    (hcode : (8 < table ∧ code = .badTable) ∨ (table ≤ 8 ∧ tableEntries table ≤ entry ∧ code = .badEntry)) :
    takeTableRead (reqRef m tag) rest s = s.answers Kind.tableRead m tag code (.tableRef target table entry) := by
  rw [← State.reply_of_plantRoom hroom]
  rcases hcode with ⟨hlt, rfl⟩ | ⟨hle, hentry, rfl⟩
  · simp only [takeTableRead, hb, if_pos hlt]
  · simp only [takeTableRead, hb, if_neg (Nat.not_lt.mpr hle), if_pos hentry]

/-- Settles O35: the table number, then the entry number, then the entry as it stands. -/
theorem tableReadAnswersEntry : Obligations.TableReadAnswersEntry := by
  intro m tag target table entry rest s ha hb hpass hroom
  refine ⟨fun hlt => ?_, fun hle hentry => ?_, fun hle hentry htarget => ?_⟩
  · have htake := takeTableRead_refused (m := m) (tag := tag) hb hroom (.inl ⟨hlt, rfl⟩)
    exact ⟨request_eq ha htake hpass, request_eq ha htake hpass⟩
  · have htake := takeTableRead_refused (m := m) (tag := tag) hb hroom (.inr ⟨hle, hentry, rfl⟩)
    exact ⟨request_eq ha htake hpass, request_eq ha htake hpass⟩
  · refine ⟨s.activeNote table entry, request_eq ha ?_ hpass, ?_, ?_, ?_, ?_, ?_, ?_⟩
    · rw [← State.reply_of_plantRoom hroom]
      simp only [takeTableRead, hb, if_neg (Nat.not_lt.mpr hle), if_neg (Nat.not_le.mpr hentry), if_pos htarget]
    · rintro rfl
      rfl
    · rintro rfl hsome
      simp [State.activeNote, hsome]
    · rintro (rfl | rfl | rfl) hsome <;> simp_all [State.activeNote, State.activeEntry]
    · rintro rfl
      rfl
    · rintro (rfl | rfl | rfl) <;> rfl
    · intro h2 h5 hnone
      obtain rfl | rfl | rfl | rfl : table = 2 ∨ table = 3 ∨ table = 4 ∨ table = 5 := by omega
      all_goals simp_all [State.activeNote, State.activeEntry]

/-! ### The inhibit input -/

/-- Settles O45: by whether the line is judged, and whether it is released. -/
theorem inhibitChangeMovesTheLine : Obligations.InhibitChangeMovesTheLine := by
  intro level s hpass
  refine ⟨fun hunjudged => ?_, fun hreset hloading => ?_⟩
  · have hjudges : ({ s with tbs := { s.tbs with inhibitIn := level } } : State).judgesLine = false := by
      rcases hunjudged with h | h <;> simp [State.judgesLine, h]
    simp only [exec, execInhibitChange, hjudges, Bool.false_eq_true, if_false]
  · have hjudges : ({ s with tbs := { s.tbs with inhibitIn := level } } : State).judgesLine = true := by
      simp [State.judgesLine, hreset, hloading]
    have hexec : exec (.inhibitChange level) s =
        done ({ s with tbs := { s.tbs with inhibitIn := level } } : State).judgeLine := by
      simp only [exec, execInhibitChange, hjudges, if_true]
    have hline : ({ s with tbs := { s.tbs with inhibitIn := level } } : State).judgeLine =
        if s.tbs.inhibited = true ∧ level ≠ s.tst.settings.inhibit ∧ s.tbs.mode ≠ .starting then { s with
          tbs := { s.tbs with inhibitIn := level, inhibited := level == s.tst.settings.inhibit }
          dar := { s.dar with passDue := true } }
        else { s with tbs := { s.tbs with inhibitIn := level, inhibited := level == s.tst.settings.inhibit } } := by
      simp [State.judgeLine, State.lineAsserted, State.isStarting, State.startPass, and_assoc]
    rw [hexec, hline]
    refine ⟨fun hrelease => ?_, fun hstay => ?_⟩
    · rw [if_pos hrelease, done, beq_eq_false_iff_ne.mpr hrelease.2.1]
    · rw [if_neg hstay, done]
      exact congrArg _ (State.settle_of_passTaken hpass)

/-! ### Queries -/

theorem takeQuery_lot {m : Msg} {tag start : Nat} {rest : List Byte} {l : Lot} (hb : readQuery rest = some (.lot start))
    (hl : s.namesLot m l) : takeQuery (reqRef m tag) rest s =
      s.reply Kind.query (reqRef m tag) .ok (.lot (s.lotReport m.handle.toNat l start)) := by
  have hfound : s.lookup (reqRef m tag).handle (reqRef m tag).inst = .found l := State.lookup_of_namesLot hl
  simp only [takeQuery, hb, State.queryLot, hfound]
  rfl

theorem shipReport_eq (l : Lot) : shipReport l =
    if l.state = .complete ∨ l.state = .released then some (l.shipQty, l.cumYield) else none := by
  unfold shipReport
  cases l.state <;> simp

theorem State.frozenSites_getLsbD {h c : Nat} (hc : s.runCell h = some c) {i : Nat} (hi : i < 16) :
    (s.frozenSites h).getLsbD i = !(s.cell c).enabled.getLsbD i := by
  simp [State.frozenSites, hc, hi]

theorem storeState_none {work : List StoreOp} (h : ∀ op ∈ work, op.isWrite = false) : storeState work = none := by
  simp only [storeState, List.findSome?_eq_none_iff]
  intro op hop
  cases op with
  | read => rfl
  | write => exact absurd (h _ hop) (by simp [StoreOp.isWrite])

theorem storeState_write {before after : List StoreOp} (h : ∀ op ∈ before, op.isWrite = false) (ref : ReqRef)
    (table entry : Nat) (e : Option Entry) (note : WriteNote) (phase : Nat) :
    storeState (before ++ .write ref table entry e note phase :: after) = some (table, entry) := by
  have hnone := storeState_none h
  simp only [storeState] at hnone ⊢
  simp [List.findSome?_append, hnone]

/-- Settles O60: each query's reply is made of the state it found. -/
theorem queriesAnswerFromState : Obligations.QueriesAnswerFromState := by
  intro m tag rest s ha hpass hroom
  have hreply := fun code body => State.reply_of_plantRoom hroom Kind.query m tag code body
  refine ⟨fun l start hb hl => ⟨s.frozenSites m.handle.toNat, request_eq ha ?_ hpass, fun c hc i hi =>
    State.frozenSites_getLsbD hc hi⟩, fun c hb => ⟨fun hc => request_eq ha ?_ hpass, fun hc => request_eq ha ?_ hpass⟩,
    fun start hb => request_eq ha ?_ hpass, fun r p hb => request_eq ha ?_ hpass, fun clear hb => ?_, fun hb => ?_⟩
  · rw [takeQuery_lot hb hl, hreply, State.lotReport, shipReport_eq]
    rfl
  · simp only [takeQuery, hb, State.queryCell, hc, if_true]
    exact hreply _ _
  · simp only [takeQuery, hb, State.queryCell, Nat.not_lt.mpr hc, if_false]
    exact hreply _ _
  · simp only [takeQuery, hb]
    exact hreply _ _
  · simp only [takeQuery, hb]
    exact hreply _ _
  · refine ⟨(List.range 8).map s.counterRow, request_eq ha ?_ ?_, by simp, fun i hi => ?_⟩
    · simp only [takeQuery, hb, State.queryCounters]
      cases clear with
      | true =>
        refine State.reply_of_plantRoom ?_ _ _ _ _ _
        exact hroom
      | false => exact hreply _ _
    · exact hpass
    · simp [hi, State.counterRow]
  · refine ⟨s.partReport, request_eq ha ?_ hpass, rfl, rfl, rfl, rfl, rfl, rfl, rfl, rfl, rfl, rfl, rfl, rfl,
    storeState_none,
      ?_, rfl, rfl⟩
    · simp only [takeQuery, hb]
      exact hreply _ _
    · rintro before ref table entry e note phase after hwork hreads
      exact (congrArg storeState hwork).trans (storeState_write hreads _ _ _ _ _ _)

end Sys2Proof.Machine
end

section
/-! The codings of R202 and R203 read back: numbers as bytes, a forwarded frame's header and body, and the contents of a
table entry
as they stand in its area of the stored image. -/

namespace Sys2Proof.Machine

set_option Elab.async false

/-! ### Numbers as bytes -/

@[simp] theorem length_numBytes : ∀ k n : Nat, (numBytes k n).length = k
  | 0, _ => rfl
  | k + 1, n => by simp [numBytes, length_numBytes k]

theorem bytesNum_append_one (l : List Byte) (b : Byte) : bytesNum (l ++ [b]) = bytesNum l * 256 + b.toNat := by
  simp [bytesNum]

theorem bytesNum_numBytes : ∀ {k n : Nat}, n < 256 ^ k → bytesNum (numBytes k n) = n
  | 0, n, h => by
    have : n = 0 := by simpa using h
    simp [this, numBytes, bytesNum]
  | k + 1, n, h => by
    have hdiv : n / 256 < 256 ^ k := Nat.div_lt_of_lt_mul (by rwa [← Nat.pow_succ'])
    rw [numBytes, bytesNum_append_one, bytesNum_numBytes hdiv, BitVec.toNat_ofNat, Nat.mod_mod]
    omega

theorem bytesNum_lt (l : List Byte) : bytesNum l < 256 ^ l.length := by
  induction l using List.reverseRecOn with
  | nil => simp [bytesNum]
  | append_singleton l b ih =>
    have hb := b.isLt
    rw [bytesNum_append_one, List.length_append, List.length_singleton, Nat.pow_succ]
    omega

/-! ### A forwarded frame -/

@[simp] theorem length_headerBytes (h : Header) (n : Nat) : (headerBytes h n).length = 10 := by simp [headerBytes]

theorem drop_headerBytes (h : Header) (n : Nat) (rest : List Byte) : (headerBytes h n ++ rest).drop 10 = rest := by
  rw [List.drop_append_of_le_length (by simp), List.drop_of_length_le (by simp), List.nil_append]

/-- A field that stands after `before` in the data is read as the number it spells. -/
theorem fieldAt_mid {k n : Nat} {before after : List Byte} (hn : n < 256 ^ k) :
    fieldAt (before ++ (numBytes k n ++ after)) before.length k = n := by
  rw [fieldAt, List.drop_left, List.take_left' (length_numBytes k n), bytesNum_numBytes hn]

/-- The numbers of a header are in the ranges of their fields (R202). -/
def Header.InRange (h : Header) : Prop := h.cell < 256 ∧ h.handle < 256 ^ 2 ∧ h.inst < 256 ∧ h.step < 256

theorem destCode_lt (d : Dest) : destCode d < 256 ^ 1 := by cases d <;> decide

/-- Each field of a header is read from its place. -/
theorem fieldAt_headerBytes {h : Header} {n : Nat} (rest : List Byte) (hh : h.InRange) (hn : n < 256 ^ 2) :
    let data := headerBytes h n ++ rest
    fieldAt data 0 2 = h.kind.toNat ∧ fieldAt data 2 1 = destCode h.dest ∧ fieldAt data 3 1 = h.cell ∧
      fieldAt data 4 2 = h.handle ∧ fieldAt data 6 1 = h.inst ∧ fieldAt data 7 1 = h.step ∧ fieldAt data 8 2 = n := by
  obtain ⟨hcell, hhandle, hinst, hstep⟩ := hh
  have hkind : h.kind.toNat < 256 ^ 2 := h.kind.isLt
  let k := numBytes 2 h.kind.toNat
  let d := k ++ numBytes 1 (destCode h.dest)
  let c := d ++ numBytes 1 h.cell
  let a := c ++ numBytes 2 h.handle
  let i := a ++ numBytes 1 h.inst
  let e := i ++ numBytes 1 h.step
  refine ⟨?_, ?_, ?_, ?_, ?_, ?_, ?_⟩
  · simpa [headerBytes] using fieldAt_mid (before := []) hkind
  · simpa [headerBytes, k] using fieldAt_mid (before := k) (destCode_lt h.dest)
  · simpa [headerBytes, d, k] using fieldAt_mid (k := 1) (before := d) hcell
  · simpa [headerBytes, c, d, k] using fieldAt_mid (before := c) hhandle
  · simpa [headerBytes, a, c, d, k] using fieldAt_mid (k := 1) (before := a) hinst
  · simpa [headerBytes, i, a, c, d, k] using fieldAt_mid (k := 1) (before := i) hstep
  · simpa [headerBytes, e, i, a, c, d, k] using fieldAt_mid (before := e) hn

theorem readDest_destCode (d : Dest) : readDest (destCode d) = d := by cases d <;> rfl

theorem destCode_le (d : Dest) : destCode d ≤ 2 := by cases d <;> decide

/-- Settles O9: the header's fields stand at their places, and the body length says where the body ends. -/
theorem forwardedFrameReadsBack : Obligations.ForwardedFrameReadsBack := by
  intro s kind m hbody
  have hlength : m.body.length < 256 ^ 2 := lt_of_le_of_lt hbody (by decide)
  set h : Header := ⟨kind, m.dest, m.cell.toNat, m.handle.toNat, m.inst.toNat, m.step.toNat⟩ with hh
  have hrange : h.InRange := ⟨m.cell.isLt, m.handle.isLt, m.inst.isLt, m.step.isLt⟩
  obtain ⟨hkind, hdest, hcell, hhandle, hinst, hstep, hlen⟩ := fieldAt_headerBytes (m.body ++ m.pad) hrange hlength
  have hdata : (forwardedFrame s kind m m.body).wire.data = headerBytes h m.body.length ++ (m.body ++ m.pad) :=
    List.append_assoc _ _ _
  refine ⟨?_, ?_, ?_⟩
  · simp only [fieldAt] at hdest hlen
    rw [hdata, headerReadable, hdest, hlen]
    simp [destCode_le]
  · rw [kindOf, hdata, hkind]
    simp [hh]
  · rw [msgOf, hdata, hdest, hcell, hhandle, hinst, hstep, hlen, drop_headerBytes, List.take_left, List.drop_left,
      readDest_destCode]
    simp [hh, forwardedFrame, Frame.wire]

end Sys2Proof.Machine
end

section
/-! Table contents read back (R174, R183, R187): what a reader accepts is in the ranges of its fields, and what is in
range reads back
from the bytes it is written out in. -/

namespace Sys2Proof.Machine

set_option Elab.async false

/-! ### The readers of single fields -/

@[simp] theorem readNum_numBytes {k n : Nat} (hn : n < 256 ^ k) (rest : List Byte) :
    readNum k (numBytes k n ++ rest) = some (n, rest) := by
  have hlen : k ≤ (numBytes k n ++ rest).length := by simp
  rw [readNum, if_pos hlen, List.take_left' (length_numBytes k n), List.drop_left' (length_numBytes k n),
    bytesNum_numBytes hn]

theorem readNum_lt {k n : Nat} {b r : List Byte} (h : readNum k b = some (n, r)) : n < 256 ^ k := by
  unfold readNum at h
  split at h
  · rename_i hk
    obtain ⟨rfl, -⟩ := Prod.mk.inj (Option.some.inj h)
    simpa [Nat.min_eq_left hk] using bytesNum_lt (b.take k)
  · cases h

theorem flagByte_eq (b : Bool) : flagByte b = numBytes 1 (if b then 1 else 0) := by cases b <;> rfl

theorem readNum_flagByte (b : Bool) (rest : List Byte) : readNum 1 (flagByte b ++ rest) = some
    (if b then 1 else 0, rest) := by
  rw [flagByte_eq, readNum_numBytes (by cases b <;> decide)]

theorem readBool_flag (b : Bool) : readBool (if b then 1 else 0) = some b := by cases b <;> rfl

theorem readOpt_optBytes {α : Type} {f : List Byte → Option (α × List Byte)} {g : α → List Byte} {x : Option α}
    (hx : ∀ a ∈ x, ∀ r, f (g a ++ r) = some (a, r)) (rest : List Byte) : readOpt f (optBytes g x ++ rest) = some (x,
      rest) := by
  cases x with
  | none => rfl
  | some a =>
    have hread : readOpt f (optBytes g (some a) ++ rest) = (f (g a ++ rest)).map fun y => (some y.1, y.2) := rfl
    rw [hread, hx a rfl]
    rfl

theorem within_eq_some {lo hi v w : Nat} : within lo hi v = some w ↔ v = w ∧ lo ≤ w ∧ w ≤ hi := by
  unfold within
  split
  · rename_i h
    constructor
    · rintro ⟨rfl⟩
      exact ⟨rfl, h⟩
    · rintro ⟨rfl, -⟩
      rfl
  · rename_i h
    constructor
    · nofun
    · rintro ⟨rfl, hb⟩
      exact absurd hb h

theorem within_self {lo hi v : Nat} (hlo : lo ≤ v) (hhi : v ≤ hi) : within lo hi v = some v := if_pos ⟨hlo, hhi⟩

theorem readStepKind_code (k : StepKind) : readStepKind k.code = some k := by cases k <;> rfl

theorem readTemp_code (t : Temp) : readTemp t.code = some t := by cases t <;> rfl

theorem readClass_code (c : BinClass) : readClass c.code = some c := by cases c <;> rfl

theorem readCounterMode_code (m : CounterMode) : readCounterMode m.code = some m := by cases m <;> rfl

theorem readSource_code (x : Source) : readSource x.code = some x := by
  cases x with
  | event e => cases e <;> rfl
  | occupancy o => cases o <;> rfl

theorem StepKind.code_lt (k : StepKind) : k.code < 256 ^ 1 := by cases k <;> decide

theorem Temp.code_lt (t : Temp) : t.code < 256 ^ 1 := by cases t <;> decide

theorem BinClass.code_lt (c : BinClass) : c.code < 256 ^ 1 := by cases c <;> decide

theorem CounterMode.code_lt (m : CounterMode) : m.code < 256 ^ 1 := by cases m <;> decide

theorem Source.code_lt (x : Source) : x.code < 256 ^ 1 := by
  cases x with
  | event e => cases e <;> decide
  | occupancy o => cases o <;> decide

/-! ### The readers of lists -/

section Many

variable {α β γ : Type} {f : List Byte → Option (α × List Byte)} {g : β → List Byte} {raw : β → α}

theorem readMany_flatMap {l : List β} (hl : ∀ x ∈ l, ∀ r, f (g x ++ r) = some (raw x, r)) (rest : List Byte) :
    readMany f l.length (l.flatMap g ++ rest) = some (l.map raw, rest) := by
  induction l with
  | nil => rfl
  | cons x l ih =>
    have hhead := hl x (.head _) (l.flatMap g ++ rest)
    have htail := ih fun y hy => hl y (.tail _ hy)
    simp [readMany, hhead, htail]

/-- A list read has as many entries as were asked for, each of them read. -/
theorem readMany_spec {n : Nat} : ∀ {b r : List Byte} {l : List α}, readMany f n b = some (l, r) →
    l.length = n ∧ ∀ x ∈ l, ∃ b r, f b = some (x, r) := by
  induction n with
  | zero =>
    intro b r l h
    obtain ⟨rfl, -⟩ := Prod.mk.inj (Option.some.inj h)
    exact ⟨rfl, nofun⟩
  | succ n ih =>
    intro b r l h
    simp only [readMany, Option.bind_eq_bind, Option.bind_eq_some_iff, Option.some.injEq, Prod.mk.injEq, Prod.exists] at h
    obtain ⟨x, b', hx, xs, r', hxs, rfl, -⟩ := h
    obtain ⟨hlen, hall⟩ := ih hxs
    refine ⟨by rw [List.length_cons, hlen], fun y hy => ?_⟩
    rcases List.mem_cons.mp hy with rfl | hy
    · exact ⟨_, _, hx⟩
    · exact hall y hy

theorem mapM_map_of_checks {check : α → Option β} {l : List β} (h : ∀ x ∈ l, check (raw x) = some x) :
    (l.map raw).mapM check = some l := by
  induction l with
  | nil => rfl
  | cons x l ih =>
    rw [List.map_cons, List.mapM_cons, h x (.head _), ih fun y hy => h y (.tail _ hy)]
    rfl

theorem mapM_spec {check : α → Option β} {l : List α} : ∀ {out : List β}, l.mapM check = some out →
    out.length = l.length ∧ ∀ x ∈ out, ∃ y ∈ l, check y = some x := by
  induction l with
  | nil =>
    rintro out ⟨⟩
    exact ⟨rfl, nofun⟩
  | cons y l ih =>
    intro out h
    simp only [List.mapM_cons, Option.bind_eq_bind, Option.bind_eq_some_iff, Option.pure_def, Option.some.injEq] at h
    obtain ⟨x, hx, xs, hxs, rfl⟩ := h
    obtain ⟨hlen, hall⟩ := ih hxs
    refine ⟨by rw [List.length_cons, List.length_cons, hlen], fun z hz => ?_⟩
    rcases List.mem_cons.mp hz with rfl | hz
    · exact ⟨y, .head _, hx⟩
    · obtain ⟨w, hw, hcheck⟩ := hall z hz
      exact ⟨w, .tail _ hw, hcheck⟩

end Many

theorem readListCount_numBytes {most n : Nat} (hn : n ≤ most) (hmost : most < 256) (rest : List Byte) :
    readListCount most (BitVec.ofNat 8 n :: rest) = some (n, rest) := by
  have hcount : readNum 1 (BitVec.ofNat 8 n :: rest) = some (n, rest) := by
    have h := readNum_numBytes (k := 1) (n := n) (by omega) rest
    rwa [numBytes, numBytes, List.nil_append, Nat.mod_eq_of_lt (by omega)] at h
  simp [readListCount, hcount, Nat.not_lt.mpr hn]

theorem atEnd_nil {α : Type} (x : α) : atEnd x [] = some x := rfl

theorem atEnd_eq_some {α : Type} {x y : α} {b : List Byte} : atEnd x b = some y ↔ b = [] ∧ x = y := by
  cases b <;> simp [atEnd]

theorem exists_of_read {α β : Type} {o : Option (α × List Byte)} {f : α × List Byte → Option β} {y : β}
    (h : (o >>= f) = some y) :
    ∃ x r, o = some (x, r) ∧ f (x, r) = some y := by
  obtain ⟨⟨x, r⟩, ho, hf⟩ := Option.bind_eq_some_iff.mp h
  exact ⟨x, r, ho, hf⟩

theorem read_then {α β : Type} {o : Option (α × List Byte)} {x : α} {r : List Byte} {f : α × List Byte → Option β}
    (h : o = some (x, r)) : (o >>= f) = f (x, r) := by
  rw [h]
  rfl

/-- A reading that is `.ok` read a value and its checks passed. -/
theorem EntryRes.ofChecked_eq_ok {r : Option (Option (Entry × WriteNote))} {e : Option Entry} {n : WriteNote} :
    EntryRes.ofChecked r = .ok e n ↔ ∃ x, r = some (some (x, n)) ∧ e = some x := by
  rcases r with _ | _ | ⟨x, m⟩ <;> simp [EntryRes.ofChecked, eq_comm, and_comm]

/-- Contents are a table's own: of its kind, and a setting's value in the range of its number (R27, R174). -/
def Entry.OfTable (table entry : Nat) : Entry → Prop
  | .setting v => table = 0 ∧ settingOk entry v = true
  | .group .. => table = 1
  | .route _ => table = 2
  | .program _ => table = 3
  | .binMap _ => table = 4
  | .profile _ => table = 5
  | .registration _ => table = 6
  | .pin _ => table = 7
  | .counter _ => table = 8

/-- The contents of an entry that is not empty are its table's and read back from its area. -/
def Entry.ReadsBack (table entry : Nat) (x : Entry) : Prop :=
  x.OfTable table entry ∧ ∃ note, readStored table entry false (entryBytes entry x) = .ok (some x) note

/-! ### Settings, groups and registrations -/

theorem settingOk_lt {i v : Nat} (h : settingOk i v) : v < 256 ^ settingSize i := by
  unfold settingOk at h
  unfold settingSize
  split at h <;> simp at h ⊢ <;> omega

theorem readSetting_readsBack {i : Nat} {b : List Byte} {e : Option Entry} {note : WriteNote}
    (h : readSetting i b = .ok e note) :
    ∃ x, e = some x ∧ x.ReadsBack 0 i := by
  unfold readSetting at h
  split at h
  · cases h
  · split at h
    · rename_i hok
      cases h
      refine ⟨_, rfl, ⟨rfl, hok⟩, .none, ?_⟩
      change readSetting i (numBytes (settingSize i) (bytesNum b)) = _
      rw [readSetting, bytesNum_numBytes (settingOk_lt hok)]
      simp [hok]
    · cases h

theorem readGroup_of_fields {f : Nat} (hf : f < 256 ^ 2) (a : CellMask) :
    readGroup (1 :: (numBytes 2 f ++ maskBytes 6 a)) = .ok (some (.group f a)) .none := by
  simp [readGroup, maskBytes, List.take_left', List.drop_left', bytesNum_numBytes hf, bytesNum_numBytes (k := 6) a.isLt]

theorem readGroup_readsBack {i : Nat} {b : List Byte} {e : Option Entry} {note : WriteNote} (h : readGroup b = .ok e note) :
    e = none ∨ ∃ x, e = some x ∧ x.ReadsBack 1 i := by
  unfold readGroup at h
  split at h
  · cases h
  · rename_i f r
    split at h
    · split at h
      · cases h
        exact .inl rfl
      · cases h
    · split at h
      · cases h
      · rename_i hlen
        split at h
        · cases h
          have hf : bytesNum (r.take 2) < 256 ^ 2 := by
            have := bytesNum_lt (r.take 2)
            rwa [List.length_take, Nat.min_eq_left (by omega)] at this
          exact .inr ⟨_, rfl, rfl, .none, readGroup_of_fields hf _⟩
        · cases h

/-- A registration's fields lie within their ranges (R36). -/
def Registration.InRange (r : Registration) : Prop := 1 ≤ r.siteCount ∧ r.siteCount ≤ 16 ∧ r.temps ≠ 0

theorem checkRegistration_inRange {addr count caps temps : Nat} {r : Registration}
    (h : checkRegistration addr count caps temps = some r) : r.InRange := by
  simp only [checkRegistration, Option.bind_eq_bind, Option.bind_eq_some_iff, within_eq_some, Option.some.injEq] at h
  obtain ⟨n, ⟨rfl, hlo, hhi⟩, t, ⟨rfl, htlo, hthi⟩, rfl⟩ := h
  refine ⟨hlo, hhi, fun h0 => ?_⟩
  have := congrArg BitVec.toNat h0
  simp at this
  omega

theorem checkRegistration_fields {r : Registration} (h : r.InRange) :
    checkRegistration r.addr.toNat r.siteCount r.caps.toNat r.temps.toNat = some r := by
  obtain ⟨hlo, hhi, htemps⟩ := h
  have ht : r.temps.toNat ≠ 0 := fun h0 => htemps (BitVec.eq_of_toNat_eq h0)
  have hlt := r.temps.isLt
  rw [checkRegistration, within_self hlo hhi, within_self (by omega) (by omega)]
  simp

theorem readRegistration_of_fields {r : Registration} (h : r.InRange) :
    readRegistration (1 :: registrationBytes r) = .ok (some (.registration r)) .none := by
  have hcount : r.siteCount < 256 ^ 1 := lt_of_le_of_lt h.2.1 (by decide)
  have haddr : bytesNum ((registrationBytes r).take 6) = r.addr.toNat := by
    simp [registrationBytes, maskBytes, bytesNum_numBytes (k := 6) r.addr.isLt]
  have hsites : bytesNum (((registrationBytes r).drop 6).take 1) = r.siteCount := by
    simp [registrationBytes, maskBytes, List.drop_left', bytesNum_numBytes hcount]
  have hcaps : bytesNum (((registrationBytes r).drop 7).take 2) = r.caps.toNat := by
    have := fieldAt_mid (k := 2) (before := maskBytes 6 r.addr ++ numBytes 1 r.siteCount) (after := maskBytes 1 r.temps)
      r.caps.isLt
    simpa [registrationBytes, maskBytes, fieldAt] using this
  have htemps : bytesNum ((registrationBytes r).drop 9) = r.temps.toNat := by
    rw [registrationBytes, List.drop_left' (by simp [maskBytes]), maskBytes,
      bytesNum_numBytes (lt_trans r.temps.isLt (by decide))]
  have hlen : (registrationBytes r).length = 10 := by simp [registrationBytes, maskBytes]
  simp [readRegistration, hlen, haddr, hsites, hcaps, htemps, checkRegistration_fields h]

theorem readRegistration_readsBack {i : Nat} {b : List Byte} {e : Option Entry} {note : WriteNote}
    (h : readRegistration b = .ok e note) : e = none ∨ ∃ x, e = some x ∧ x.ReadsBack 6 i := by
  unfold readRegistration at h
  split at h
  · cases h
  · split at h
    · split at h
      · cases h
        exact .inl rfl
      · cases h
    · split at h
      · cases h
      · split at h
        · split at h
          · rename_i x hx
            cases h
            exact .inr ⟨_, rfl, rfl, .none, readRegistration_of_fields (checkRegistration_inRange hx)⟩
          · cases h
        · cases h

/-! ### Routes and programs -/

/-- A step's fields lie within their ranges (R22). -/
def RouteStep.InRange (x : RouteStep) : Prop :=
  x.program ≤ 63 ∧ x.kit ≤ 31 ∧ x.binMap ≤ 15 ∧ x.profile ≤ 15 ∧
    match x.kind with
    | .test => x.sample = .none
    | .sample => ∃ n, x.sample = some n ∧ 1 ≤ n ∧ n ≤ 5000

/-- A step's fields as numbers. -/
def RouteStep.raw (x : RouteStep) : RawStep :=
  ⟨x.kind.code, x.temp.code, x.program, x.kit, x.binMap, x.profile, if x.retest then 1 else 0, x.sample⟩

theorem checkStep_inRange {y : RawStep} {x : RouteStep} (h : checkStep y = some x) : x.InRange := by
  simp only [checkStep, Option.bind_eq_bind, Option.bind_eq_some_iff, within_eq_some, Option.some.injEq] at h
  obtain ⟨k, -, t, -, p, ⟨-, -, hp⟩, kit, ⟨-, -, hkit⟩, m, ⟨-, -, hm⟩, g, ⟨-, -, hg⟩, r, -, n, hn, rfl⟩ := h
  refine ⟨hp, hkit, hm, hg, ?_⟩
  cases k with
  | test =>
    cases hn
    rfl
  | sample =>
    simp only [checkSample, Option.map_eq_some_iff, Option.bind_eq_some_iff, within_eq_some] at hn
    obtain ⟨v, ⟨w, -, -, hlo, hhi⟩, rfl⟩ := hn
    exact ⟨v, rfl, hlo, hhi⟩

theorem checkStep_raw {x : RouteStep} (h : x.InRange) : checkStep x.raw = some x := by
  obtain ⟨kind, temp, p, kit, m, g, r, n⟩ := x
  obtain ⟨hp, hkit, hm, hg, hn⟩ := h
  have hsample : checkSample kind n = some n := by
    cases kind with
    | test => exact congrArg some hn.symm
    | sample =>
      obtain ⟨v, rfl, hlo, hhi⟩ := hn
      exact congrArg (Option.map some) (within_self hlo hhi)
  simp only [checkStep, RouteStep.raw, readStepKind_code, readTemp_code, readBool_flag, hsample, within_self
    (Nat.zero_le _) hp,
    within_self (Nat.zero_le _) hkit, within_self (Nat.zero_le _) hm, within_self (Nat.zero_le _) hg, Option.bind_eq_bind,
    Option.bind_some]

theorem readRawStep_stepBytes {x : RouteStep} (h : x.InRange) (rest : List Byte) :
    readRawStep (stepBytes x ++ rest) = some (x.raw, rest) := by
  obtain ⟨kind, temp, p, kit, m, g, r, n⟩ := x
  obtain ⟨hp, hkit, hm, hg, hn⟩ := h
  dsimp only at hp hkit hm hg
  have hsample : ∀ a ∈ n, ∀ r, readNum 2 (numBytes 2 a ++ r) = some (a, r) := by
    rintro a rfl
    cases kind with
    | test => cases hn
    | sample =>
      obtain ⟨v, ⟨⟩, -, hhi⟩ := hn
      exact readNum_numBytes (by omega)
  simp only [readRawStep, stepBytes, List.append_assoc, readNum_numBytes kind.code_lt, readNum_numBytes temp.code_lt,
    readNum_numBytes (show p < 256 ^ 1 by omega), readNum_numBytes (show kit < 256 ^ 1 by omega),
    readNum_numBytes (show m < 256 ^ 1 by omega), readNum_numBytes (show g < 256 ^ 1 by omega), readNum_flagByte,
    readOpt_optBytes hsample, Option.bind_eq_bind, Option.bind_some, RouteStep.raw]

theorem readRoute_readsBack {i : Nat} {b : List Byte} {e : Option Entry} {note : WriteNote} (h : readRoute b = .ok e note) :
    ∃ x, e = some x ∧ x.ReadsBack 2 i := by
  obtain ⟨x, hx, rfl⟩ := EntryRes.ofChecked_eq_ok.mp h
  simp only [Option.bind_eq_bind, Option.bind_eq_some_iff, Prod.exists, atEnd_eq_some] at hx
  obtain ⟨count, b1, -, floor, b2, -, n, b3, -, l, b4, -, -, hcheck⟩ := hx
  simp only [checkRoute, Option.bind_eq_bind, Option.bind_eq_some_iff, within_eq_some] at hcheck
  obtain ⟨m, ⟨-, hlo, hhi⟩, f, ⟨-, -, hfloor⟩, steps, hsteps, hroute⟩ := hcheck
  split at hroute
  · rename_i hlen
    cases hroute
    have hall : ∀ x ∈ steps, x.InRange := fun x hx =>
      let ⟨_, _, hcheck⟩ := (mapM_spec hsteps).2 x hx
      checkStep_inRange hcheck
    refine ⟨_, rfl, rfl, .none, ?_⟩
    change readRoute (numBytes 1 steps.length ++ numBytes 2 f ++ listBytes stepBytes steps) = _
    have hmany := readMany_flatMap (f := readRawStep) (fun x hx => readRawStep_stepBytes (hall x hx)) []
    rw [List.append_nil] at hmany
    have hmap := mapM_map_of_checks (check := checkStep) fun x hx => checkStep_raw (hall x hx)
    simp only [readRoute, listBytes, List.append_assoc, readNum_numBytes (show steps.length < 256 ^ 1 by omega),
      readNum_numBytes (show f < 256 ^ 2 by omega), readListCount_numBytes (show steps.length ≤ 6 by omega) (by decide),
      hmany, Option.bind_eq_bind, Option.bind_some, atEnd_nil, checkRoute, within_self (show 1 ≤ steps.length by omega)
      (show steps.length ≤ 6 by omega), within_self (Nat.zero_le f) hfloor, hmap]
    rfl
  · cases hroute

theorem readProgram_readsBack {i : Nat} {b : List Byte} {e : Option Entry} {note : WriteNote}
    (h : readProgram b = .ok e note) :
    ∃ x, e = some x ∧ x.ReadsBack 3 i := by
  obtain ⟨x, hx, rfl⟩ := EntryRes.ofChecked_eq_ok.mp h
  simp only [Option.bind_eq_bind, Option.bind_eq_some_iff, Prod.exists, atEnd_eq_some, Option.map_eq_some_iff,
    within_eq_some] at hx
  obtain ⟨number, b1, hnumber, rev, b2, hrev, check, b3, hchk, caps, b4, -, index, b5, hindex, -, t, ⟨rfl, hlo, hhi⟩,
    hx⟩ := hx
  cases hx
  refine ⟨_, rfl, rfl, .none, ?_⟩
  change readProgram (progBytes ⟨number, rev, check⟩ ++ maskBytes 2 (BitVec.ofNat 16 caps) ++ numBytes 2 index) = _
  have hlast := readNum_numBytes (show index < 256 ^ 2 by omega) []
  rw [List.append_nil] at hlast
  simp only [readProgram, progBytes, maskBytes, List.append_assoc, readNum_numBytes (readNum_lt hnumber),
    readNum_numBytes (readNum_lt hrev), readNum_numBytes (readNum_lt hchk),
    readNum_numBytes (k := 2) (BitVec.ofNat 16 caps).isLt, hlast, Option.bind_eq_bind, Option.bind_some, within_self hlo hhi,
    Option.map_some, atEnd_nil, BitVec.ofNat_toNat, BitVec.setWidth_eq, EntryRes.ofChecked]

/-! ### Bin maps and profiles -/

/-- A range's fields lie within their ranges (R25). -/
def BinRange.InRange (x : BinRange) : Prop := x.low < 256 ∧ x.high < 256 ∧ x.hard ≤ 15

/-- A range's fields as numbers. -/
def BinRange.raw (x : BinRange) : Nat × Nat × Nat × Nat := (x.low, x.high, x.hard, x.cls.code)

theorem BinRange.InRange.ordered {x : BinRange} (h : x.InRange) : x.ordered.InRange :=
  ⟨lt_of_le_of_lt (min_le_left _ _) h.1, max_lt h.1 h.2.1, h.2.2⟩

theorem readRawRange_inRange {b r : List Byte} {y : Nat × Nat × Nat × Nat} {x : BinRange} (hy : readRawRange b = some (y, r))
    (hx : checkRange y = some x) : x.InRange := by
  simp only [readRawRange, Option.bind_eq_bind, Option.bind_eq_some_iff, Prod.exists, Option.some.injEq, Prod.mk.injEq] at hy
  obtain ⟨low, b1, hlow, high, b2, hhigh, hard, b3, -, cls, b4, -, rfl, -⟩ := hy
  simp only [checkRange, Option.bind_eq_bind, Option.bind_eq_some_iff, within_eq_some, Option.some.injEq] at hx
  obtain ⟨n, ⟨rfl, -, hhard⟩, c, -, rfl⟩ := hx
  exact ⟨readNum_lt hlow, readNum_lt hhigh, hhard⟩

theorem checkRange_raw {x : BinRange} (h : x.InRange) : checkRange x.raw = some x := by
  simp only [checkRange, BinRange.raw, within_self (Nat.zero_le _) h.2.2, readClass_code, Option.bind_eq_bind,
    Option.bind_some]

theorem readRawRange_rangeBytes {x : BinRange} (h : x.InRange) (rest : List Byte) :
    readRawRange (rangeBytes x ++ rest) = some (x.raw, rest) := by
  obtain ⟨hlow, hhigh, hhard⟩ := h
  simp only [readRawRange, rangeBytes, List.append_assoc, readNum_numBytes (show x.low < 256 ^ 1 from hlow),
    readNum_numBytes (show x.high < 256 ^ 1 from hhigh), readNum_numBytes (show x.hard < 256 ^ 1 by omega),
    readNum_numBytes x.cls.code_lt, Option.bind_eq_bind, Option.bind_some, BinRange.raw]

theorem readRanges_inRange {b : List Byte} {m : List BinRange} (h : readRanges b = some (some m)) :
    1 ≤ m.length ∧ m.length ≤ 32 ∧ ∀ x ∈ m, x.InRange := by
  simp only [readRanges, Option.bind_eq_bind, Option.bind_eq_some_iff, Prod.exists, atEnd_eq_some] at h
  obtain ⟨n, b1, -, l, b2, hl, -, hcheck⟩ := h
  simp only [checkBinMap, Option.bind_eq_bind, Option.bind_eq_some_iff] at hcheck
  obtain ⟨out, hout, hlen⟩ := hcheck
  split at hlen
  · rename_i hbounds
    cases hlen
    obtain ⟨heq, hall⟩ := mapM_spec hout
    refine ⟨by omega, by omega, fun x hx => ?_⟩
    obtain ⟨y, hy, hcheck⟩ := hall x hx
    obtain ⟨_, _, hread⟩ := (readMany_spec hl).2 y hy
    exact readRawRange_inRange hread hcheck
  · cases hlen

theorem readRanges_of_inRange {m : List BinRange} (hlo : 1 ≤ m.length) (hhi : m.length ≤ 32) (hall : ∀ x ∈ m, x.InRange) :
    readRanges (listBytes rangeBytes m) = some (some m) := by
  have hmany := readMany_flatMap (f := readRawRange) (fun x hx => readRawRange_rangeBytes (hall x hx)) []
  rw [List.append_nil] at hmany
  have hmap := mapM_map_of_checks (check := checkRange) fun x hx => checkRange_raw (hall x hx)
  simp only [readRanges, listBytes, readListCount_numBytes hhi (by decide), hmany, Option.bind_eq_bind,
    Option.bind_some, atEnd_nil,
    checkBinMap, hmap, List.length_map, if_pos (And.intro hlo hhi)]

theorem readBinMap_readsBack {i : Nat} {b : List Byte} {e : Option Entry} {note : WriteNote}
    (h : readBinMap b = .ok e note) :
    ∃ x, e = some x ∧ x.ReadsBack 4 i := by
  obtain ⟨x, hx, rfl⟩ := EntryRes.ofChecked_eq_ok.mp h
  simp only [Option.map_eq_some_iff] at hx
  obtain ⟨_, hread, m, rfl, hstored⟩ := hx
  cases hstored
  obtain ⟨hlo, hhi, hall⟩ := readRanges_inRange hread
  have hback : readRanges (listBytes rangeBytes (m.map BinRange.ordered)) = some (some (m.map BinRange.ordered)) := by
    refine readRanges_of_inRange (by simpa using hlo) (by simpa using hhi) fun x hx => ?_
    obtain ⟨y, hy, rfl⟩ := List.mem_map.mp hx
    exact (hall y hy).ordered
  refine ⟨_, rfl, rfl, .none, ?_⟩
  simp only [readStored, entryBytes, hback, Option.map_some, EntryRes.ofChecked]

/-- The field checks of a profile (R113); W is not checked. -/
def Profile.checks (p : Profile) (ceilings : List Nat) : Bool :=
  1 ≤ p.minSample && p.yieldFloor ≤ 1000 && ceilings.all (· ≤ 1000) && p.windowFloor ≤ 1000 && p.skewLimit ≤ 1000 &&
    1 ≤ p.skewMin && p.consecLimit ≤ 15 && 1 ≤ p.minSites && p.minSites ≤ 16 && p.finalFloor ≤ 1000 && p.lostAllow ≤ 1000

/-- A profile's fields fit their bytes and pass their checks. -/
def Profile.InRange (p : Profile) : Prop :=
  p.minSample < 256 ^ 2 ∧ p.window < 256 ^ 2 ∧ p.skewMin < 256 ^ 2 ∧ p.mismatchLimit < 256 ^ 1 ∧ p.checks p.ceilings.toList

theorem toList_ceilingTable {l : List Nat} (h : l.length = 16) : (ceilingTable l).toList = l := by
  refine List.ext_getElem (by simp [h]) fun i hi hl => ?_
  simp [ceilingTable, hl]

theorem ceilingTable_toList (v : Vector Nat 16) : ceilingTable v.toList = v := by
  refine Vector.ext fun i hi => ?_
  simp [ceilingTable]

theorem readFields_inRange {b : List Byte} {p : Profile} (h : readFields b = some (some p)) : p.InRange := by
  obtain ⟨minSample, _, hmin, h⟩ := exists_of_read h
  obtain ⟨yieldFloor, _, -, h⟩ := exists_of_read h
  obtain ⟨ceilings, _, hceil, h⟩ := exists_of_read h
  obtain ⟨window, _, hwindow, h⟩ := exists_of_read h
  obtain ⟨windowFloor, _, -, h⟩ := exists_of_read h
  obtain ⟨skewLimit, _, -, h⟩ := exists_of_read h
  obtain ⟨skewMin, _, hskew, h⟩ := exists_of_read h
  obtain ⟨consecLimit, _, -, h⟩ := exists_of_read h
  obtain ⟨minSites, _, -, h⟩ := exists_of_read h
  obtain ⟨finalFloor, _, -, h⟩ := exists_of_read h
  obtain ⟨lostAllow, _, -, h⟩ := exists_of_read h
  obtain ⟨mismatch, _, hmismatch, h⟩ := exists_of_read h
  obtain ⟨-, hok⟩ := atEnd_eq_some.mp h
  split at hok
  · rename_i hchecks
    cases hok
    refine ⟨readNum_lt hmin, readNum_lt hwindow, readNum_lt hskew, readNum_lt hmismatch, ?_⟩
    rw [toList_ceilingTable (readMany_spec hceil).1]
    exact hchecks
  · cases hok

theorem readFields_of_inRange {p : Profile} {i : Nat} (h : p.InRange) : readFields (entryBytes i (.profile p)) = some
    (some p) := by
  obtain ⟨hmin, hwindow, hskew, hmismatch, hchecks⟩ := h
  have hok := hchecks
  simp only [Profile.checks, Bool.and_eq_true, decide_eq_true_eq, List.all_eq_true] at hok
  obtain ⟨⟨⟨⟨⟨⟨⟨⟨⟨⟨-, hyield⟩, hceil⟩, hwfloor⟩, hslimit⟩, -⟩, hconsec⟩, -⟩, hsites⟩, hfinal⟩, hlost⟩ := hok
  have hmany := fun rest => readMany_flatMap (f := readNum 2) (raw := id) (l := p.ceilings.toList)
    (fun x hx => readNum_numBytes (k := 2) (lt_of_le_of_lt (hceil x hx) (by decide))) rest
  simp only [Vector.length_toList, List.map_id] at hmany
  have hlast := readNum_numBytes hmismatch []
  rw [List.append_nil] at hlast
  simp only [entryBytes, List.append_assoc]
  unfold readFields
  refine (read_then (readNum_numBytes hmin _)).trans ?_
  refine (read_then (readNum_numBytes (show p.yieldFloor < 256 ^ 2 by omega) _)).trans ?_
  refine (read_then (hmany _)).trans ?_
  refine (read_then (readNum_numBytes hwindow _)).trans ?_
  refine (read_then (readNum_numBytes (show p.windowFloor < 256 ^ 2 by omega) _)).trans ?_
  refine (read_then (readNum_numBytes (show p.skewLimit < 256 ^ 2 by omega) _)).trans ?_
  refine (read_then (readNum_numBytes hskew _)).trans ?_
  refine (read_then (readNum_numBytes (show p.consecLimit < 256 ^ 1 by omega) _)).trans ?_
  refine (read_then (readNum_numBytes (show p.minSites < 256 ^ 1 by omega) _)).trans ?_
  refine (read_then (readNum_numBytes (show p.finalFloor < 256 ^ 2 by omega) _)).trans ?_
  refine (read_then (readNum_numBytes (show p.lostAllow < 256 ^ 2 by omega) _)).trans ?_
  refine (read_then (hlast)).trans ?_
  simp only [atEnd_nil, ceilingTable_toList]
  exact congrArg some (if_pos hchecks)

theorem readProfile_readsBack {i : Nat} {b : List Byte} {e : Option Entry} {note : WriteNote}
    (h : readProfile b = .ok e note) :
    ∃ x, e = some x ∧ x.ReadsBack 5 i := by
  obtain ⟨x, hx, rfl⟩ := EntryRes.ofChecked_eq_ok.mp h
  simp only [Option.map_eq_some_iff] at hx
  obtain ⟨_, hread, p, rfl, hstored⟩ := hx
  cases hstored
  obtain ⟨hmin, -, hskew, hmismatch, hchecks⟩ := readFields_inRange hread
  have hwindow : clampWindow p.window < 256 ^ 2 := by
    simp only [clampWindow]
    omega
  have hback := readFields_of_inRange (p := { p with window := clampWindow p.window }) (i := i)
    ⟨hmin, hwindow, hskew, hmismatch, hchecks⟩
  refine ⟨_, rfl, rfl, .none, ?_⟩
  simp only [readStored, hback, Option.map_some, EntryRes.ofChecked]

/-! ### Pins and counters -/

theorem readPin_readsBack {i : Nat} {b : List Byte} {e : Option Entry} {note : WriteNote} (h : readPin b = .ok e note) :
    ∃ x, e = some x ∧ x.ReadsBack 7 i := by
  obtain ⟨x, hx, rfl⟩ := EntryRes.ofChecked_eq_ok.mp h
  simp only [Option.bind_eq_bind, Option.bind_eq_some_iff, Prod.exists, atEnd_eq_some, within_eq_some] at hx
  obtain ⟨g, _, -, c, _, -, f, _, -, -, _, ⟨rfl, -, hg⟩, _, ⟨rfl, -, hc⟩, excl, -, hx⟩ := hx
  cases hx
  refine ⟨_, rfl, rfl, .none, ?_⟩
  change readPin (numBytes 1 g ++ numBytes 1 c ++ flagByte excl) = _
  have hlast := readNum_flagByte excl []
  rw [List.append_nil] at hlast
  simp only [readPin, List.append_assoc, readNum_numBytes (show g < 256 ^ 1 by omega), readNum_numBytes (show c < 256 ^
    1 by omega),
    hlast, Option.bind_eq_bind, Option.bind_some, within_self (Nat.zero_le _) hg, within_self (Nat.zero_le _) hc,
      readBool_flag,
    atEnd_nil, EntryRes.ofChecked]

theorem readCounter_readsBack {i : Nat} {b : List Byte} {e : Option Entry} {note : WriteNote}
    (h : readCounter b = .ok e note) :
    ∃ x, e = some x ∧ x.ReadsBack 8 i := by
  obtain ⟨x, hx, rfl⟩ := EntryRes.ofChecked_eq_ok.mp h
  simp only [Option.bind_eq_bind, Option.bind_eq_some_iff, Prod.exists, atEnd_eq_some] at hx
  obtain ⟨_, _, -, _, _, -, threshold, _, hthreshold, _, _, -, -, src, -, mode, -, invert, -, hx⟩ := hx
  split at hx
  · rename_i hsuits
    cases hx
    refine ⟨_, rfl, rfl, .none, ?_⟩
    change readCounter (numBytes 1 src.code ++ numBytes 1 mode.code ++ numBytes 4 threshold ++ flagByte invert) = _
    have hlast := readNum_flagByte invert []
    rw [List.append_nil] at hlast
    simp only [readCounter, List.append_assoc, readNum_numBytes src.code_lt, readNum_numBytes mode.code_lt,
      readNum_numBytes (readNum_lt hthreshold), hlast, Option.bind_eq_bind, Option.bind_some, readSource_code,
      readCounterMode_code, readBool_flag, if_pos hsuits, atEnd_nil, EntryRes.ofChecked]
  · cases hx

/-! ### Every table -/

theorem readContents_readsBack {table entry : Nat} {b : List Byte} {e : Option Entry} {note : WriteNote}
    (h : readContents table entry b = .ok e note) : (e = none ∧ table ≠ 0) ∨ ∃ x, e = some x ∧ x.ReadsBack table entry := by
  unfold readContents at h
  split at h
  · exact .inr (readSetting_readsBack h)
  · exact (readGroup_readsBack h).imp_left fun hnone => ⟨hnone, by decide⟩
  · exact .inr (readRoute_readsBack h)
  · exact .inr (readProgram_readsBack h)
  · exact .inr (readBinMap_readsBack h)
  · exact .inr (readProfile_readsBack h)
  · exact (readRegistration_readsBack h).imp_left fun hnone => ⟨hnone, by decide⟩
  · exact .inr (readPin_readsBack h)
  · exact .inr (readCounter_readsBack h)
  · cases h

theorem decodeArea_empty {table entry : Nat} (h : table ≠ 0) : decodeArea table entry (areaBytes entry none) = some none
    := by
  have hread : readStored table entry true [] = .ok none (emptyNote table) := by
    simp [readStored, readEntry, h]
  simp [decodeArea, areaBytes, readFlag, hread]

theorem decodeArea_of_readsBack {table entry : Nat} {x : Entry} (h : x.ReadsBack table entry) :
    decodeArea table entry (areaBytes entry (some x)) = some (some x) := by
  obtain ⟨-, note, hread⟩ := h
  simp [decodeArea, areaBytes, readFlag, hread]

/-- Accepted contents are empty, but not a setting, or their table's and read back. -/
theorem readEntry_readsBack {table entry : Nat} {empty : Bool} {b : List Byte} {e : Option Entry} {note : WriteNote}
    (h : readEntry table entry empty b = .ok e note) :
    (e = none ∧ table ≠ 0) ∨ ∃ x, e = some x ∧ x.ReadsBack table entry := by
  unfold readEntry at h
  split at h
  · split at h
    · cases h
    · split at h
      · cases h
      · rename_i htable
        cases h
        exact .inl ⟨rfl, htable⟩
  · exact readContents_readsBack h

/-- Settles O10: what is accepted is empty or reads back from its bytes, table by table. -/
theorem storedContentsReadBack : Obligations.StoredContentsReadBack := by
  intro table entry empty bytes e note h
  rcases readEntry_readsBack h with ⟨rfl, htable⟩ | ⟨x, rfl, hx⟩
  · exact decodeArea_empty htable
  · exact decodeArea_of_readsBack hx

end Sys2Proof.Machine
end

section
/-! The store controller's work list: stored reads and writes join it, run at its front and leave it (R33, R188, R189),
and what a
hard reset keeps of it (R186, R190). -/

namespace Sys2Proof.Machine

set_option Elab.async false

variable {s : State}

/-! ### Areas of the image -/

theorem Image.area_setArea_ne {im : Image} {table entry t i : Nat} (b : List Byte) (h : ¬(t = table ∧ i = entry)) :
    (im.setArea table entry b).area t i = im.area t i := by
  simp only [Image.area, Image.setArea, List.getD_eq_getElem?_getD, List.getElem?_modify]
  by_cases ht : table = t
  · subst ht
    have hi : entry ≠ i := fun hi => h ⟨rfl, hi.symm⟩
    rcases im.areas[table]? with _ | l
    · rfl
    · simp [List.getElem?_set_ne hi]
  · simp [ht]

theorem Image.area_setArea_self {im : Image} {table entry : Nat} (b : List Byte) (ht : table < im.areas.length)
    (he : entry < (im.areas.getD table []).length) : (im.setArea table entry b).area table entry = b := by
  simp only [List.getD_eq_getElem?_getD, List.getElem?_eq_getElem ht, Option.getD_some] at he
  simp [Image.area, Image.setArea, ht, he]

/-! ### The work list -/

theorem State.endOp_eq : s.endOp = s.opEnded := by
  simp only [State.endOp, State.opEnded, List.isEmpty_iff]
  rfl

theorem State.reply_of_room (hroom : s.plantRoom 1) (kind : Code16) (ref : ReqRef) (code : ReplyCode) (body : ReplyBody) :
    s.reply kind ref code body = s.sendsPlant [s.replyFrameTo kind ref code body] :=
  State.enqueue_plant_of_room hroom _

/-- The REPLY with which the operation at the front of the work list ends. -/
theorem State.reply_opEnded (hroom : s.plantRoom 1) (kind : Code16) (ref : ReqRef) (code : ReplyCode) (body : ReplyBody) :
    s.endOp.reply kind ref code body = s.opEnded.sendsPlant [s.replyFrameTo kind ref code body] := by
  rw [State.endOp_eq]
  exact State.reply_of_room (s := s.opEnded) hroom _ _ _ _

theorem State.joinWork_eq (op : StoreOp) : s.joinWork op = { s with scn := { s.scn with
    work := s.scn.work ++ [op], flashLeft := if s.scn.work = [] then some 10 else s.scn.flashLeft } } := by
  simp only [State.joinWork, List.isEmpty_iff]
  rfl

theorem done_eq {t : State} (h : t.passTaken) : done t = .next t := congrArg Host.Outcome.next (State.settle_of_passTaken h)

theorem countP_reads {work : List StoreOp} (h : ∀ op ∈ work, op.isWrite = false) : readCount work = work.length :=
  List.countP_eq_length.mpr fun op hop => by simp [h op hop]

/-- Settles O36. -/
theorem storedReadsTakeTheirTurn : Obligations.StoredReadsTakeTheirTurn := by
  refine ⟨fun m tag table entry rest s ha hb htable hentry hpass => ?_, fun ref table entry more s hwork hpass hroom => ?_⟩
  · have htake : takeTableRead (reqRef m tag) rest s = s.readLater (reqRef m tag) table entry := by
      simp only [takeTableRead, hb, if_neg (Nat.not_lt.mpr htable), if_neg (Nat.not_le.mpr hentry), Nat.one_ne_zero,
        if_false]
    refine ⟨fun hbusy hroom => request_eq ha ?_ hpass, fun hreads hlen => request_eq ha ?_ ?_⟩
    · have hrefused : (writeInFlight s.scn.work || decide (maxReads ≤ readCount s.scn.work)) = true := by
        rw [Bool.or_eq_true, decide_eq_true_eq]
        exact hbusy.imp_left List.any_eq_true.mpr
      rw [htake, State.readLater, if_pos hrefused]
      exact State.reply_of_plantRoom hroom _ _ _ _ _
    · have htaken : (writeInFlight s.scn.work || decide (maxReads ≤ readCount s.scn.work)) = false := by
        rw [Bool.or_eq_false_iff, decide_eq_false_iff_not, countP_reads hreads, Nat.not_le]
        exact ⟨by simpa [writeInFlight] using hreads, hlen⟩
      rw [htake, State.readLater, htaken]
      exact State.joinWork_eq _
    · exact hpass
  · have hend : Machine.exec .storedReadComplete s = done (s.endOp.reply Kind.tableRead ref .ok (.tableRead 1 table entry
        (storedContents s.scn.image table entry).1 (storedContents s.scn.image table entry).2)) := by
      simp only [exec, execStoredReadComplete, State.endRead, hwork]
    have hanswer : Machine.exec .storedReadComplete s = .next (s.opEnded.sendsPlant [s.replyFrameTo Kind.tableRead ref .ok
        (.tableRead 1 table entry (storedContents s.scn.image table entry).1 (storedContents s.scn.image table
          entry).2)]) := by
      rw [hend, State.reply_opEnded hroom]
      exact done_eq hpass
    refine ⟨fun htable => ?_, fun htable e he => ?_, fun htable he => ?_⟩
    · rw [hanswer, storedContents, if_neg htable]
    · subst htable
      rw [hanswer, storedContents, if_pos rfl, he]
    · subst htable
      rw [hanswer, storedContents, if_pos rfl, he]

/-! ### Stored writes -/

theorem tableEntries_zero : tableEntries 0 = 11 := rfl

/-- A write that passes checks 1 to 4 of R29 is `.ok` with its contents. -/
theorem State.writeCheck_of_writesEntry {w : WriteBody} {e : Option Entry} {note : WriteNote} (h : s.writesEntry w e note) :
    s.writeCheck w = (.ok, e, note) := by
  obtain ⟨htable, hentry, hread, hclash⟩ := h
  have hsetting : ¬(w.table = 0 ∧ 10 < w.entry) := by
    rintro ⟨h0, hlt⟩
    rw [h0, tableEntries_zero] at hentry
    omega
  rw [State.writeCheck, if_neg (Nat.not_lt.mpr htable), if_neg hsetting, hread]
  simp only [if_neg (Nat.not_le.mpr hentry)]
  split
  · rw [hclash _ rfl]
    rfl
  · rfl

theorem takeTableWrite_of_writesEntry {m : Msg} {tag : Nat} {rest : List Byte} {w : WriteBody} {e : Option Entry} {note
    : WriteNote}
    (hb : readTableWrite rest = some w) (h : s.writesEntry w e note) : takeTableWrite (reqRef m tag) rest s =
      if w.target = 0 then s.writeNow (reqRef m tag) w e note else s.writeLater (reqRef m tag) w e note := by
  simp only [takeTableWrite, hb, State.writeCheck_of_writesEntry h]

/-- Settles O37: the write joins the list, and each phase programs its own part of the image. -/
theorem storedWriteRunsItsPhases : Obligations.StoredWriteRunsItsPhases := by
  refine ⟨fun m tag rest w e note s ha hb htarget hw hpass => ?_, fun ref table entry e note more s hpass =>
    ⟨fun hwork => ?_, fun hwork => ?_, fun hwork hroom => ⟨?_, ?_⟩⟩⟩
  · have htake : takeTableWrite (reqRef m tag) rest s = s.writeLater (reqRef m tag) w e note := by
      rw [takeTableWrite_of_writesEntry hb hw, htarget]
      rfl
    refine ⟨fun hbusy hroom => request_eq ha ?_ hpass, fun hreads => request_eq ha ?_ ?_⟩
    · have hflight : writeInFlight s.scn.work = true := List.any_eq_true.mpr hbusy
      rw [htake, State.writeLater, if_pos hflight, htarget]
      exact State.reply_of_plantRoom hroom _ _ _ _ _
    · have hflight : writeInFlight s.scn.work = false := by simpa [writeInFlight] using hreads
      rw [htake, State.writeLater, hflight]
      exact State.joinWork_eq _
    · exact hpass
  · refine ⟨programEntry s.scn.image table entry e, ?_, rfl, rfl, fun ht he => ?_, fun t i hne => ?_⟩
    · simp only [exec, execStorePhaseEnd, State.endPhase, hwork]
      refine (done_eq ?_).trans ?_
      · exact hpass
      · simp only [State.toPhase, List.tail_cons]
        rfl
    · exact Image.area_setArea_self _ ht he
    · exact Image.area_setArea_ne _ hne
  · simp only [exec, execStorePhaseEnd, State.endPhase, hwork]
    refine (done_eq ?_).trans ?_
    · exact hpass
    · simp only [State.toPhase, List.tail_cons]
      rfl
  · simp only [exec, execStoredWriteComplete, State.completeWrite, hwork, if_true]
    rw [State.reply_opEnded]
    · refine (done_eq ?_).trans ?_
      · exact hpass
      · simp only [State.opEnded, hwork]
        rfl
    · exact hroom
  · refine ⟨{ spoil s.scn.image table entry s.scn.freeIndex with mark := failedMark s.scn.image 3 s.scn.freeIndex }, ?_,
    rfl, rfl,
      fun t i hne => Image.area_setArea_ne _ hne⟩
    simp only [exec, execStoredWriteComplete, State.completeWrite, hwork, Bool.false_eq_true, if_false, State.failWrite]
    rw [State.reply_opEnded]
    · refine (done_eq ?_).trans ?_
      · exact hpass
      · simp only [State.opEnded, hwork]
        rfl
    · exact hroom

/-! ### Hard reset -/

/-- Settles O39: the image is the flash's own but for the entry and check value of an abandoned write. -/
theorem hardResetClearsState : Obligations.HardResetClearsState := by
  intro s
  refine ⟨⟨(abandon s.scn.image s.scn.work s.scn.freeIndex).1, if (abandon s.scn.image s.scn.work s.scn.freeIndex).2 then
    s.scn.freeIndex + 1 else s.scn.freeIndex, rfl, fun hother => ?_, ?_⟩, ⟨_, rfl, fun h hh => ?_, rfl, rfl, rfl, rfl,
      rfl, rfl,
    rfl, rfl, rfl, fun i hi => ?_⟩, fun hreset => ?_⟩
  · unfold abandon
    split
    · rename_i hwork
      exact absurd rfl (hother _ _ _ _ _ _ _ hwork).1
    · rename_i hwork
      exact absurd rfl (hother _ _ _ _ _ _ _ hwork).2
    · rfl
  · rintro ref table entry e note phase more hwork (rfl | rfl)
    · rw [hwork]
      exact ⟨rfl, fun t i hne => Image.area_setArea_ne _ hne⟩
    · rw [hwork]
      exact ⟨rfl, fun t i hne => rfl⟩
  · exact vget_replicate _ _ hh
  · exact vget_replicate _ _ hi
  · simp only [exec, execResetRelease, hreset, if_true]
    rfl

end Sys2Proof.Machine
end

section
/-! Tables set from the image, and the ends of a load: start-up, RESTART and its re-read, and a flash device that does
not answer
(R19, R20, R34, R35, R59, R186, R187, R191, R192). -/

namespace Sys2Proof.Machine

set_option Elab.async false

variable {s : State}

/-! ### Entries of the image -/

theorem readStored_ofTable {table entry : Nat} {empty : Bool} {b : List Byte} {x : Entry} {note : WriteNote}
    (h : readStored table entry empty b = .ok (some x) note) : x.OfTable table entry := by
  unfold readStored at h
  split at h
  · obtain ⟨y, hy, hxy⟩ := EntryRes.ofChecked_eq_ok.mp h
    simp only [Option.map_eq_some_iff] at hy
    obtain ⟨_, -, m, -, hm⟩ := hy
    cases hm
    cases hxy
    rfl
  · obtain ⟨y, hy, hxy⟩ := EntryRes.ofChecked_eq_ok.mp h
    simp only [Option.map_eq_some_iff] at hy
    obtain ⟨_, -, m, -, hm⟩ := hy
    cases hm
    cases hxy
    rfl
  · rcases readEntry_readsBack h with ⟨hnone, -⟩ | ⟨y, hy, htable, -⟩
    · cases hnone
    · cases hy
      exact htable

theorem Image.entry_ofTable {im : Image} {table entry : Nat} {x : Entry} (h : im.entry table entry = some x) :
    x.OfTable table entry := by
  simp only [Image.entry, Option.getD_eq_iff, reduceCtorEq, and_false, or_false] at h
  simp only [decodeArea, Option.bind_eq_bind, Option.bind_eq_some_iff, Prod.exists] at h
  obtain ⟨empty, rest, -, hread⟩ := h
  split at hread
  · rename_i hok
    cases hread
    exact readStored_ofTable hok
  · cases hread
  · cases hread

/-! ### Settings -/

theorem Settings.get_put_self {t : Settings} {i v : Nat} (hi : i < 11) (hv : settingOk i v) : (t.put i v).get i = v := by
  interval_cases i <;> simp [settingOk, Settings.put, Settings.get] at hv ⊢
  · omega
  · omega
  · split <;> simp [levelCode] <;> omega

theorem Settings.get_put_ne {t : Settings} {i j : Nat} (v : Nat) (hi : i < 11) (hj : j < 11) (h : j ≠ i) :
    (t.put i v).get j = t.get j := by
  interval_cases i <;> interval_cases j <;> simp [Settings.put, Settings.get] at h ⊢

/-- One setting loaded over settings so far (R187). -/
def loadSetting (im : Image) (t : Settings) (i : Nat) : Settings :=
  match im.entry 0 i with
  | some (.setting v) => t.put i v
  | _ => t

theorem loadSettings_eq (im : Image) : loadSettings im = (List.range 11).foldl (loadSetting im) Settings.factory := rfl

theorem get_loadSetting_ne {im : Image} {t : Settings} {i j : Nat} (hi : i < 11) (hj : j < 11) (h : j ≠ i) :
    (loadSetting im t i).get j = t.get j := by
  unfold loadSetting
  split
  · exact Settings.get_put_ne _ hi hj h
  · rfl

theorem get_loadSetting_self {im : Image} {t : Settings} {i : Nat} (hi : i < 11) :
    Entry.setting ((loadSetting im t i).get i) = (im.entry 0 i).getD (.setting (t.get i)) := by
  unfold loadSetting
  rcases hentry : im.entry 0 i with _ | x
  · rfl
  · have htable := Image.entry_ofTable hentry
    cases x with
    | setting v => exact congrArg Entry.setting (Settings.get_put_self hi htable.2)
    | group | route | program | binMap | profile | registration | pin | counter => cases htable

/-- Each setting loaded is the image's, or stands as it did. -/
theorem get_foldl_loadSetting (im : Image) (t : Settings) {n : Nat} (hn : n ≤ 11) {j : Nat} (hj : j < 11) :
    Entry.setting (((List.range n).foldl (loadSetting im) t).get j) =
      if j < n then (im.entry 0 j).getD (.setting (t.get j)) else .setting (t.get j) := by
  induction n with
  | zero => rfl
  | succ n ih =>
    have ih := ih (Nat.le_of_succ_le hn)
    rw [List.range_succ, List.foldl_append, List.foldl_cons, List.foldl_nil]
    by_cases hjn : j = n
    · subst hjn
      rw [if_neg (Nat.lt_irrefl j)] at ih
      rw [get_loadSetting_self hj, ih, if_pos (Nat.lt_succ_self j)]
    · rw [get_loadSetting_ne hn hj hjn, ih]
      simp only [Nat.lt_succ_iff_lt_or_eq, hjn, or_false]

/-! ### Pins -/

/-- A pin loaded, `none` when its group or cell stands in an entry loaded before it (R187). -/
def loadPin (im : Image) (loaded : List (Option Pin)) (i : Nat) : Option Pin :=
  (im.pin i).filter fun p => !loaded.any fun q => match q with
    | some q => q.group == p.group || q.cell == p.cell
    | none => false

/-- The first `n` pins loaded. -/
def pinsUpTo (im : Image) (n : Nat) : List (Option Pin) := (List.range n).foldl (fun l i => l ++ [loadPin im l i]) []

theorem pinsUpTo_succ (im : Image) (n : Nat) : pinsUpTo im (n + 1) = pinsUpTo im n ++ [loadPin im (pinsUpTo im n) n] := by
  rw [pinsUpTo, List.range_succ, List.foldl_append]
  rfl

theorem length_pinsUpTo (im : Image) : ∀ n, (pinsUpTo im n).length = n
  | 0 => rfl
  | n + 1 => by rw [pinsUpTo_succ, List.length_append, length_pinsUpTo im n, List.length_singleton]

theorem getD_pinsUpTo (im : Image) {i n : Nat} (h : i < n) : (pinsUpTo im n).getD i none = loadPin im (pinsUpTo im i) i := by
  induction n with
  | zero => omega
  | succ n ih =>
    have hlen := length_pinsUpTo im n
    rw [pinsUpTo_succ]
    by_cases hi : i < n
    · rw [List.getD_append _ _ _ _ (by rwa [hlen]), ih hi]
    · obtain rfl : i = n := by omega
      rw [List.getD_append_right _ _ _ _ (by rw [hlen]), hlen, Nat.sub_self]
      rfl

theorem loadPin_eq_some {im : Image} {loaded : List (Option Pin)} {i : Nat} {p : Pin} : loadPin im loaded i = some p ↔
    im.entry 7 i = some (.pin p) ∧ ∀ q, some q ∈ loaded → q.group ≠ p.group ∧ q.cell ≠ p.cell := by
  have hpin : im.pin i = some p ↔ im.entry 7 i = some (.pin p) := by
    unfold Image.pin
    rcases hentry : im.entry 7 i with _ | x
    · simp
    · have htable := Image.entry_ofTable hentry
      cases x with
      | pin q => simp
      | setting => cases htable.1
      | group | route | program | binMap | profile | registration | counter => cases htable
  rw [loadPin, Option.filter_eq_some_iff, hpin]
  refine and_congr_right fun _ => ?_
  simp only [Bool.not_eq_true', List.any_eq_false]
  constructor
  · intro h q hq
    simpa using h _ hq
  · rintro h (_ | q) hq
    · simp
    · simpa using h q hq

/-! ### The tables and cells of a load -/

/-- A loaded entry is the image's: of its table's kind, or empty. -/
theorem map_load {α : Type} {im : Image} {table i : Nat} {o : Option α} {f : α → Entry}
    (hkind : ∀ x : Entry, x.OfTable table i → ∃ a, x = f a) (hnone : im.entry table i = none → o = none)
    (hsome : ∀ a, im.entry table i = some (f a) → o = some a) : o.map f = im.entry table i := by
  rcases hentry : im.entry table i with _ | x
  · rw [hnone hentry]
    rfl
  · obtain ⟨a, rfl⟩ := hkind x (Image.entry_ofTable hentry)
    rw [hsome a hentry]
    rfl

theorem loadRoute_eq (im : Image) (i : Nat) : (loadRoute im i).map .route = im.entry 2 i := by
  refine map_load (fun x hx => ?_) (fun h => by rw [loadRoute, h]) (fun a h => by rw [loadRoute, h])
  cases x with
  | route a => exact ⟨a, rfl⟩
  | setting => cases hx.1
  | group | program | binMap | profile | registration | pin | counter => cases hx

theorem loadProgram_eq (im : Image) (i : Nat) : (loadProgram im i).map .program = im.entry 3 i := by
  refine map_load (fun x hx => ?_) (fun h => by rw [loadProgram, h]) (fun a h => by rw [loadProgram, h])
  cases x with
  | program a => exact ⟨a, rfl⟩
  | setting => cases hx.1
  | group | route | binMap | profile | registration | pin | counter => cases hx

theorem loadBinMap_eq (im : Image) (i : Nat) : (loadBinMap im i).map .binMap = im.entry 4 i := by
  refine map_load (fun x hx => ?_) (fun h => by rw [loadBinMap, h]) (fun a h => by rw [loadBinMap, h])
  cases x with
  | binMap a => exact ⟨a, rfl⟩
  | setting => cases hx.1
  | group | route | program | profile | registration | pin | counter => cases hx

theorem loadProfile_eq (im : Image) (i : Nat) : (loadProfile im i).map .profile = im.entry 5 i := by
  refine map_load (fun x hx => ?_) (fun h => by rw [loadProfile, h]) (fun a h => by rw [loadProfile, h])
  cases x with
  | profile a => exact ⟨a, rfl⟩
  | setting => cases hx.1
  | group | route | program | binMap | registration | pin | counter => cases hx

theorem loadRegistration_eq (im : Image) (i : Nat) : (loadRegistration im i).map .registration = im.entry 6 i := by
  refine map_load (fun x hx => ?_) (fun h => by rw [loadRegistration, h]) (fun a h => by rw [loadRegistration, h])
  cases x with
  | registration a => exact ⟨a, rfl⟩
  | setting => cases hx.1
  | group | route | program | binMap | profile | pin | counter => cases hx

theorem loadCounter_eq (im : Image) (i : Nat) : (loadCounter im i).map .counter = im.entry 8 i := by
  refine map_load (fun x hx => ?_) (fun h => by rw [loadCounter, h]) (fun a h => by rw [loadCounter, h])
  cases x with
  | counter a => exact ⟨a, rfl⟩
  | setting => cases hx.1
  | group | route | program | binMap | profile | registration | pin => cases hx

theorem loadedFrom_of_tst {t : State} {im : Image} {groups : Vector GroupEntry 32} (h : t.tst = tablesOf im groups) :
    t.loadedFrom im := by
  refine ⟨fun table entry h2 h8 h7 hentry => ?_, fun i hi => ?_, fun i p hi => ?_⟩
  · have hload : ∀ {α : Type} {n : Nat} (load : Image → Nat → Option α) (f : α → Entry), entry < n →
        (load im entry).map f = im.entry table entry →
        (vget (Vector.ofFn fun i : Fin n => load im i.val) none entry).map f = im.entry table entry := fun load f hn hf => by
      rw [vget_ofFn _ _ hn]
      exact hf
    obtain rfl | rfl | rfl | rfl | rfl | rfl : table = 2 ∨ table = 3 ∨ table = 4 ∨ table = 5 ∨ table = 6 ∨ table = 8 :=
      by omega
    · rw [State.activeEntry, State.route?, h]
      exact hload loadRoute .route hentry (loadRoute_eq im entry)
    · rw [State.activeEntry, State.program?, h]
      exact hload loadProgram .program hentry (loadProgram_eq im entry)
    · rw [State.activeEntry, State.binMap?, h]
      exact hload loadBinMap .binMap hentry (loadBinMap_eq im entry)
    · rw [State.activeEntry, State.profile?, h]
      exact hload loadProfile .profile hentry (loadProfile_eq im entry)
    · rw [State.activeEntry, State.reg?, h]
      exact hload loadRegistration .registration hentry (loadRegistration_eq im entry)
    · have hcounter : t.activeEntry 8 entry = (vget t.tst.counters none entry).map .counter := rfl
      rw [hcounter, h]
      exact hload loadCounter .counter hentry (loadCounter_eq im entry)
  · have hput := get_foldl_loadSetting im Settings.factory (Nat.le_refl 11) hi
    rw [if_pos hi, ← loadSettings_eq] at hput
    rw [← hput, State.activeEntry, h]
    rfl
  · have hpins : ∀ j, j < 4 → vget t.tst.pins none j = loadPin im (pinsUpTo im j) j := fun j hj => by
      rw [h, tablesOf, vget_ofFn _ _ hj]
      exact getD_pinsUpTo im hj
    have hmem : ∀ q, some q ∈ pinsUpTo im i ↔ ∃ j, j < i ∧ vget t.tst.pins none j = some q := by
      intro q
      rw [List.mem_iff_getElem]
      simp only [length_pinsUpTo]
      refine exists_congr fun j => ?_
      have hget : ∀ hj : j < i, (pinsUpTo im i)[j]'(by rwa [length_pinsUpTo]) = vget t.tst.pins none j := fun hj => by
        rw [hpins j (by omega), ← getD_pinsUpTo im hj, List.getD_eq_getElem]
      constructor
      · rintro ⟨hj, hq⟩
        exact ⟨hj, by rw [← hget hj, hq]⟩
      · rintro ⟨hj, hq⟩
        exact ⟨hj, by rw [hget hj, hq]⟩
    rw [hpins i hi, loadPin_eq_some]
    refine and_congr_right fun _ => ?_
    simp only [hmem]
    constructor
    · intro hall j q hj hq
      exact hall q ⟨j, hj, hq⟩
    · rintro hall q ⟨j, hj, hq⟩
      exact hall j q hj hq

theorem loadGroup_some {im : Image} {i f : Nat} {a : CellMask} (h : im.entry 1 i = some (.group f a)) :
    loadGroup im i = ⟨.opened, f, a, false⟩ := by rw [loadGroup, h]

theorem loadGroup_none {im : Image} {i : Nat} (h : im.entry 1 i = none) : loadGroup im i = GroupEntry.empty := by
  rw [loadGroup, h]

theorem reloadGroup_some {im : Image} {i f : Nat} {a : CellMask} (x : GroupEntry) (h : im.entry 1 i = some (.group f a)) :
    reloadGroup im x i = if x.state = .unbound then ⟨.opened, f, a, false⟩ else ⟨x.state, f, a, x.retirePending⟩ := by
  rw [reloadGroup, h]

theorem reloadGroup_none {im : Image} {i : Nat} (x : GroupEntry) (h : im.entry 1 i = none) :
    reloadGroup im x i = GroupEntry.empty := by rw [reloadGroup, h]

/-- Cells at their reset values have the sites of their registrations (R59). -/
theorem cell_of_resetCells {t u : State} {c : Nat} (hc : c < 48) (h : t.ctr = resetCells u.tst) :
    t.cell c = Cell.reset (allSites (u.siteCount c)) := by
  have hreg : t.cell c = resetCell (u.reg? c) := by
    rw [State.cell, h, State.reg?, resetCells]
    simp [vget, hc]
  rw [hreg, resetCell, State.siteCount]
  cases u.reg? c <;> rfl

/-! ### Start-up -/

/-- A state that has left STARTING with the tables of a start-up, before its notices (R186). -/
def State.started (s : State) (t : Tables) (cause : Option BadCause) : State :=
  ({ s with tst := t, ctr := resetCells t } : State).leaveStarting cause

theorem State.startUp_invalid (cause : BadCause) : s.startUp (some cause) = ((s.started Tables.factory (some cause)).notice
    (.partStarted .hard .safe .invalid none Config.stationAddress)).notice (.storedImageBad cause) := rfl

/-- A start-up without an image ends in SAFE with the factory tables, its notices discarded (R181, R186). -/
theorem startUp_invalid_spec (cause : BadCause) : let u := s.startUp (some cause)
    u.tbs = { s.tbs with mode := .safe, ready := false, inhibited := s.tbs.inhibitIn == .high } ∧
      u.tst = Tables.factory ∧ (∀ c, c < 48 → u.cell c = Cell.reset 0) ∧
      u.scn = { s.scn with check := .invalid, loading := .none, flashLeft := none } ∧ u.ldr = s.ldr ∧ u.rlu = s.rlu ∧
      u.fcn = s.fcn ∧ u.pcl.floorQ = s.pcl.floorQ ∧ u.pcl.plantQ = s.pcl.plantQ := by
  have hstop : ∀ b, ¬((s.started Tables.factory (some cause)).notice b).noticesGo := fun b h => by
    simp only [State.noticesGo, State.notice_tst] at h
    exact h.1 rfl
  have hfirst : ¬(s.started Tables.factory (some cause)).noticesGo := fun h => h.1 rfl
  rw [State.startUp_invalid, State.notice_discarded (hstop _), State.notice_discarded hfirst]
  refine ⟨rfl, rfl, fun c hc => ?_, rfl, rfl, rfl, rfl, rfl, rfl⟩
  have hsites : (State.siteCount { s with tst := Tables.factory } c) = 0 := by
    simp [State.siteCount, State.reg?, Tables.factory, vget_replicate _ _ hc]
  refine (cell_of_resetCells (u := { s with tst := Tables.factory }) hc ?_).trans ?_
  · rfl
  · rw [hsites]
    rfl

/-- Settles O40. -/
theorem startUpSetsTables : Obligations.StartUpSetsTables := by
  intro s hload
  have hexec : Machine.exec .imageLoadComplete s = done (s.startUp s.scn.image.fault) := by
    simp only [exec, execImageLoadComplete, hload]
  refine ⟨fun hvalid => ?_, fun cause hcause => ?_⟩
  · rw [hvalid] at hexec
    refine ⟨_, s.started (tablesOf s.scn.image (Vector.ofFn fun i => loadGroup s.scn.image i.val)) none, hexec.trans rfl, rfl,
      loadedFrom_of_tst rfl, fun g hg => ?_, fun c hc => cell_of_resetCells hc rfl, rfl, rfl, rfl, rfl, rfl, rfl, rfl, rfl⟩
    have hgroup : (s.started (tablesOf s.scn.image (Vector.ofFn fun i => loadGroup s.scn.image i.val)) none).group g =
        loadGroup s.scn.image g := vget_ofFn _ _ hg
    rw [hgroup]
    exact ⟨fun f a => loadGroup_some, loadGroup_none⟩
  · rw [hcause] at hexec
    exact ⟨_, hexec.trans rfl, startUp_invalid_spec cause⟩

/-! ### RESTART -/

/-- What a soft reset leaves (R19, R59, R182, R191). -/
theorem softReset_spec : (∀ h, h < 512 → s.softReset.slot h = ⟨if (s.slot h).inst = 255 then 1 else (s.slot h).inst + 1, none⟩) ∧
    (∀ r, r < 16 → vget s.softReset.ldr.useCount 0 r = 0) ∧
    (∀ c, c < 48 → s.softReset.cell c = Cell.reset (allSites (s.siteCount c))) ∧
    (∀ i, i < 8 → vget s.softReset.fcn.values 0 i = 0 ∧ vget s.softReset.fcn.last none i = none) := by
  refine ⟨fun h hh => ?_, fun r hr => vget_replicate _ _ hr, fun c hc => cell_of_resetCells hc rfl, fun i hi =>
    ⟨vget_replicate _ _ hi, vget_replicate _ _ hi⟩⟩
  simp [State.slot, State.softReset, Ldr.softReset, vget, hh, nextInst]

/-- A RESTART with nothing in the store work list (R191, R192). -/
theorem takeRestart_idle {ref : ReqRef} (hwork : s.scn.work = []) :
    takeRestart ref [] s = if s.tbs.mode = .safe then s.restartReread ref else s.restartNow ref := by
  simp only [takeRestart, readNothing, atEnd, List.isEmpty_nil, if_true, hwork, Bool.not_true, Bool.false_eq_true, if_false]

theorem restartNow_eq (m : Msg) (tag : Nat) : s.restartNow (reqRef m tag) =
    (s.softReset.answers Kind.restart m tag .ok (.restart .normal)).notice
      (.partStarted .soft .normal s.scn.check s.tbs.floorTime Config.stationAddress) := by
  have hroom : s.softReset.plantRoom 1 := by simp [State.plantRoom, State.softReset, Pcl.softReset, Pcl.reset, queueCapacity]
  rw [State.restartNow, State.reply_of_plantRoom hroom]
  rfl

/-- Settles O41. -/
theorem restartInNormal : Obligations.RestartInNormal := by
  intro m tag s ha hpass
  refine ⟨fun hwork hroom => request_eq ha ?_ hpass, fun hwork hmode => ⟨s.softReset, fun hgo => request_eq ha ?_ ?_,
    fun hstop =>
    request_eq ha ?_ ?_, ?_⟩⟩
  · have hbusy : (!s.scn.work.isEmpty) = true := by simpa using hwork
    simp only [takeRestart, readNothing, atEnd, List.isEmpty_nil, if_true, hbusy]
    exact State.reply_of_plantRoom hroom _ _ _ _ _
  · rw [takeRestart_idle hwork, if_neg (by simp [hmode]), restartNow_eq]
    refine State.notice_of_go ?_ ?_ _
    · exact hgo
    · simp [State.plantRoom, State.answers, State.sendsPlant, State.softReset, Pcl.softReset, Pcl.reset, queueCapacity]
  · rfl
  · rw [takeRestart_idle hwork, if_neg (by simp [hmode]), restartNow_eq, State.notice_discarded]
    · rfl
    · exact hstop
  · rfl
  · obtain ⟨hslots, hcounts, hcells, hfcn⟩ := softReset_spec (s := s)
    exact ⟨hslots, hcounts, rfl, rfl, hcells, hfcn, rfl, rfl, rfl, rfl, rfl⟩

/-! ### The re-read of a RESTART -/

/-- A state whose re-read has set the tables of a valid image, before its frames (R192). -/
def State.rereadTables (s : State) : State :=
  let t := tablesOf s.scn.image (Vector.ofFn fun i => reloadGroup s.scn.image (s.group i.val) i.val)
  { s with tst := t, ctr := resetCells t, fcn := Fcn.reset }

/-- The REPLY and PART_STARTED of a re-read, from the state that has left STARTING (R192). -/
def State.rereadAnswered (s : State) (ref : ReqRef) : State :=
  let t := s.reply Kind.restart ref .ok (.restart s.tbs.mode)
  t.notice (.partStarted .soft t.tbs.mode t.scn.check t.tbs.floorTime Config.stationAddress)

theorem State.reread_valid {ref : ReqRef} (hroom : s.plantRoom 1) : s.reread ref none =
    ((s.rereadTables.leaveStarting none).sendsPlant [(s.rereadTables.leaveStarting none).replyFrameTo Kind.restart ref .ok
      (.restart .normal)]).notice (.partStarted .soft .normal .valid s.tbs.floorTime Config.stationAddress) := by
  have hread : s.reread ref none = (s.rereadTables.leaveStarting none).rereadAnswered ref := rfl
  rw [hread, State.rereadAnswered, State.reply_of_room]
  · rfl
  · exact hroom

theorem State.reread_invalid {ref : ReqRef} (cause : BadCause) (hroom : s.plantRoom 1) : s.reread ref (some cause) =
    (((s.leaveStarting (some cause)).sendsPlant [(s.leaveStarting (some cause)).replyFrameTo Kind.restart ref .ok
      (.restart .safe)]).notice (.partStarted .soft .safe .invalid s.tbs.floorTime Config.stationAddress)).notice
        (.storedImageBad cause) := by
  have hread : s.reread ref (some cause) = ((s.leaveStarting (some cause)).rereadAnswered ref).notice (.storedImageBad
    cause) := rfl
  rw [hread, State.rereadAnswered, State.reply_of_room]
  · rfl
  · exact hroom

/-- Settles O42. -/
theorem restartInSafe : Obligations.RestartInSafe := by
  refine ⟨fun m tag s ha hwork hmode => ⟨s.restartReread (reqRef m tag), request_eq ha ?_ ?_, rfl, rfl, rfl, rfl, rfl, ?_⟩,
    fun ref s hload hroom => ⟨fun hvalid => ?_, fun cause hcause => ?_⟩⟩
  · rw [takeRestart_idle hwork, if_pos hmode]
  · rfl
  · obtain ⟨hslots, hcounts, hcells, hfcn⟩ := softReset_spec (s := s)
    exact ⟨hslots, hcounts, rfl, rfl, hcells, hfcn⟩
  · have hexec : Machine.exec .imageRereadComplete s = done (s.reread ref none) := by
      simp only [exec, execImageRereadComplete, hload, hvalid]
    refine ⟨_, s.rereadTables.leaveStarting none, hexec.trans rfl, State.reread_valid hroom, loadedFrom_of_tst rfl, fun
      g hg => ?_,
      fun c hc => cell_of_resetCells hc rfl, fun i hi => ⟨vget_replicate _ _ hi, vget_replicate _ _ hi⟩, rfl, rfl, rfl,
        rfl, rfl,
      rfl, rfl⟩
    have hgroup : (s.rereadTables.leaveStarting none).group g = reloadGroup s.scn.image (s.group g) g := vget_ofFn _ _ hg
    rw [hgroup]
    exact ⟨fun f a h => by
      rw [reloadGroup_some _ h]
      exact ⟨fun hu => if_pos hu, fun hb => if_neg hb⟩, reloadGroup_none _⟩
  · have hexec : Machine.exec .imageRereadComplete s = done (s.reread ref (some cause)) := by
      simp only [exec, execImageRereadComplete, hload, hcause]
    exact ⟨_, s.leaveStarting (some cause), hexec.trans rfl, State.reread_invalid cause hroom, rfl, rfl, rfl, rfl, rfl,
      rfl, rfl,
      rfl, rfl, rfl⟩

/-! ### No answer from the flash device -/

/-- Settles O38: by what was under way. -/
theorem flashTimeoutEndsOperation : Obligations.FlashTimeoutEndsOperation := by
  intro s hdue
  have hexec : Machine.exec .flashTimeout s = done s.noAnswer := by
    simp only [exec, execFlashTimeout, hdue]
    rfl
  refine ⟨fun ref table entry more hload hpass hroom hwork => ?_, fun ref table entry phase e note more hload hpass
    hroom hwork => ?_,
    fun hload => ?_, fun ref hload hroom => ?_⟩
  · simp only [hexec, State.noAnswer, hload, hwork]
    rw [State.reply_opEnded hroom]
    refine done_eq ?_
    exact hpass
  · refine ⟨{ spoil s.scn.image table entry s.scn.freeIndex with mark := failedMark s.scn.image phase s.scn.freeIndex },
    ?_, rfl,
      fun t i hne => Image.area_setArea_ne _ hne⟩
    simp only [hexec, State.noAnswer, hload, hwork, State.failWrite]
    rw [State.reply_opEnded]
    · refine (done_eq ?_).trans ?_
      · exact hpass
      · simp only [State.opEnded, hwork, hload]
        rfl
    · exact hroom
  · obtain ⟨htbs, htst, hcells, hscn, hldr, hrlu, hfcn, -, -⟩ := startUp_invalid_spec (s := s) .noResponse
    refine ⟨s.startUp (some .noResponse), ?_, ?_, ?_, hscn, htst, hcells, hldr, hrlu, hfcn⟩
    · simp only [hexec, State.noAnswer, hload]
      rfl
    · rw [htbs]
    · rw [htbs]
  · refine ⟨_, s.leaveStarting (some .noResponse), ?_, State.reread_invalid _ hroom, rfl⟩
    simp only [hexec, State.noAnswer, hload]
    rfl

end Sys2Proof.Machine
end

section
/-! ACTIVE writes: the entry replaced, and what else the write of each table changes (R5, R28, R30, R31, R37, R196). -/

namespace Sys2Proof.Machine

set_option Elab.async false

variable {s : State}

/-! ### The tables entry by entry -/

/-- Two sets of tables hold the same table of a number. -/
def Tables.same (table : Nat) (t u : Tables) : Prop :=
  match table with
  | 0 => t.settings = u.settings
  | 1 => t.groups = u.groups
  | 2 => t.routes = u.routes
  | 3 => t.programs = u.programs
  | 4 => t.binMaps = u.binMaps
  | 5 => t.profiles = u.profiles
  | 6 => t.regs = u.regs
  | 7 => t.pins = u.pins
  | _ => t.counters = u.counters

theorem activeEntry_of_same {u : State} {table : Nat} (h : Tables.same table u.tst s.tst) (i : Nat) :
    u.activeEntry table i = s.activeEntry table i := by
  unfold Tables.same at h
  unfold State.activeEntry State.group State.route? State.program? State.binMap? State.profile? State.reg?
  split <;> simp only at h <;> rw [h]

/-- The effect of an ACTIVE write common to every table: the entry replaced, every other standing, and of the blocks
only those
the table acts on changed (R30). -/
structure ActiveWrite (s u : State) (table entry : Nat) (e : Option Entry) : Prop where
  reads : u.activeEntry table entry = e
  others : ∀ t i, t ≤ 8 → i < tableEntries t → ¬(t = table ∧ i = entry) → u.activeEntry t i = s.activeEntry t i
  groups : ∀ g, g < 32 → ¬(table = 1 ∧ g = entry) → u.group g = s.group g
  pending : u.pending = s.pending
  pcl : u.pcl = s.pcl
  ldr : u.ldr = s.ldr
  rlu : u.rlu = s.rlu
  scn : u.scn = s.scn
  queue : u.dar.queue = s.dar.queue
  ctr : table ≠ 6 → u.ctr = s.ctr
  fcn : table ≠ 8 → u.fcn = s.fcn
  tbs : ¬(table = 0 ∧ entry = 10) → u.tbs = s.tbs

/-- A write that changes the tables alone, and of them one. -/
theorem ActiveWrite.of_tables {t : Tables} {table entry : Nat} {e : Option Entry}
    (hreads : ({ s with tst := t } : State).activeEntry table entry = e)
    (hothers : ∀ i, i < tableEntries table → i ≠ entry → ({ s with tst := t } : State).activeEntry table i =
      s.activeEntry table i)
    (hsame : ∀ n, n ≤ 8 → n ≠ table → Tables.same n t s.tst) (hgroups : t.groups = s.tst.groups) :
    ActiveWrite s { s with tst := t } table entry e where
  reads := hreads
  others n i hn hi hne := by
    by_cases h : n = table
    · subst h
      exact hothers i hi fun hi => hne ⟨rfl, hi⟩
    · exact activeEntry_of_same (hsame n hn h) i
  groups g _ _ := congrArg (fun v => vget v GroupEntry.empty g) hgroups
  pending := rfl
  pcl := rfl
  ldr := rfl
  rlu := rfl
  scn := rfl
  queue := rfl
  ctr _ := rfl
  fcn _ := rfl
  tbs _ := rfl

/-- An entry of a table of optional entries, read after a write. -/
theorem map_vget_vmod_self {α : Type} {n entry : Nat} (v : Vector (Option α) n) (f : α → Entry) (x : Option α)
    (h : entry < n) :
    (vget (vmod v entry fun _ => x) none entry).map f = x.map f := by rw [vget_vmod_self _ _ _ h]

theorem map_vget_vmod_ne {α : Type} {n entry i : Nat} (v : Vector (Option α) n) (f : α → Entry) (x : Option α)
    (h : i ≠ entry) :
    (vget (vmod v entry fun _ => x) none i).map f = (vget v none i).map f := by rw [vget_vmod_ne _ _ _ h.symm]

/-- A write that changes blocks of its own beside the tables. -/
theorem ActiveWrite.with_blocks {u : State} {table entry : Nat} {e : Option Entry}
    (h : ActiveWrite s { s with tst := u.tst } table entry e) (hblocks : u.pending = s.pending ∧ u.pcl = s.pcl ∧ u.ldr =
      s.ldr ∧
      u.rlu = s.rlu ∧ u.scn = s.scn ∧ u.dar.queue = s.dar.queue) (hctr : table ≠ 6 → u.ctr = s.ctr)
    (hfcn : table ≠ 8 → u.fcn = s.fcn) (htbs : ¬(table = 0 ∧ entry = 10) → u.tbs = s.tbs) : ActiveWrite s u table entry
      e := by
  obtain ⟨hpending, hpcl, hldr, hrlu, hscn, hqueue⟩ := hblocks
  exact ⟨h.reads, h.others, h.groups, hpending, hpcl, hldr, hrlu, hscn, hqueue, hctr, hfcn, htbs⟩

theorem activeWrite_tst_setting {entry v : Nat} (hentry : entry < 11) (hv : settingOk entry v) :
    ActiveWrite s { s with tst := { s.tst with settings := s.tst.settings.put entry v } } 0 entry (some (.setting v)) := by
  refine .of_tables ?_ (fun i hi hne => ?_) (fun n hn hne => ?_) rfl
  · exact congrArg (fun x => some (Entry.setting x)) (Settings.get_put_self hentry hv)
  · exact congrArg (fun x => some (Entry.setting x)) (Settings.get_put_ne v hentry hi hne)
  · interval_cases n <;> simp_all [Tables.same]

theorem activeWrite_tst_route {entry : Nat} (v : Option Route) (h : entry < 16) :
    ActiveWrite s { s with tst := { s.tst with routes := vmod s.tst.routes entry fun _ => v } } 2 entry (v.map .route) := by
  refine .of_tables (map_vget_vmod_self _ _ _ h) (fun i _ hne => map_vget_vmod_ne _ _ _ hne) (fun n hn hne => ?_) rfl
  interval_cases n <;> simp_all [Tables.same]

theorem activeWrite_tst_program {entry : Nat} (v : Option Program) (h : entry < 64) :
    ActiveWrite s { s with tst := { s.tst with programs := vmod s.tst.programs entry fun _ => v } } 3 entry (v.map
      .program) := by
  refine .of_tables (map_vget_vmod_self _ _ _ h) (fun i _ hne => map_vget_vmod_ne _ _ _ hne) (fun n hn hne => ?_) rfl
  interval_cases n <;> simp_all [Tables.same]

theorem activeWrite_tst_binMap {entry : Nat} (v : Option (List BinRange)) (h : entry < 16) :
    ActiveWrite s { s with tst := { s.tst with binMaps := vmod s.tst.binMaps entry fun _ => v } } 4 entry (v.map
      .binMap) := by
  refine .of_tables (map_vget_vmod_self _ _ _ h) (fun i _ hne => map_vget_vmod_ne _ _ _ hne) (fun n hn hne => ?_) rfl
  interval_cases n <;> simp_all [Tables.same]

theorem activeWrite_tst_profile {entry : Nat} (v : Option Profile) (h : entry < 16) :
    ActiveWrite s { s with tst := { s.tst with profiles := vmod s.tst.profiles entry fun _ => v } } 5 entry (v.map
      .profile) := by
  refine .of_tables (map_vget_vmod_self _ _ _ h) (fun i _ hne => map_vget_vmod_ne _ _ _ hne) (fun n hn hne => ?_) rfl
  interval_cases n <;> simp_all [Tables.same]

theorem activeWrite_tst_registration {entry : Nat} (v : Option Registration) (h : entry < 48) :
    ActiveWrite s { s with tst := { s.tst with regs := vmod s.tst.regs entry fun _ => v } } 6 entry (v.map
      .registration) := by
  refine .of_tables (map_vget_vmod_self _ _ _ h) (fun i _ hne => map_vget_vmod_ne _ _ _ hne) (fun n hn hne => ?_) rfl
  interval_cases n <;> simp_all [Tables.same]

theorem activeWrite_tst_pin {entry : Nat} (v : Option Pin) (h : entry < 4) :
    ActiveWrite s { s with tst := { s.tst with pins := vmod s.tst.pins entry fun _ => v } } 7 entry (v.map .pin) := by
  refine .of_tables (map_vget_vmod_self _ _ _ h) (fun i _ hne => map_vget_vmod_ne _ _ _ hne) (fun n hn hne => ?_) rfl
  interval_cases n <;> simp_all [Tables.same]

theorem activeWrite_tst_counter {entry : Nat} (v : Option CounterCfg) (h : entry < 8) :
    ActiveWrite s { s with tst := { s.tst with counters := vmod s.tst.counters entry fun _ => v } } 8 entry (v.map
      .counter) := by
  refine .of_tables (map_vget_vmod_self _ _ _ h) (fun i _ hne => map_vget_vmod_ne _ _ _ hne) (fun n hn hne => ?_) rfl
  interval_cases n <;> simp_all [Tables.same]

/-- The written contents of a group. -/
def groupEntry (v : Option (Nat × CellMask)) : Option Entry := v.map fun x => .group x.1 x.2

theorem groupContents_writeGroup (v : Option (Nat × CellMask)) (x : GroupEntry) :
    groupContents (writeGroup v x) = groupEntry v := by
  cases v with
  | none => rfl
  | some p => by_cases h : x.state = .held <;> simp [groupContents, writeGroup, groupEntry, h]

theorem activeWrite_tst_group {entry : Nat} (v : Option (Nat × CellMask)) (h : entry < 32) :
    ActiveWrite s (s.modGroup entry (writeGroup v)) 1 entry (groupEntry v) where
  reads := by
    rw [← groupContents_writeGroup v (s.group entry)]
    exact congrArg groupContents (vget_vmod_self _ _ _ h)
  others n i hn hi hne := by
    by_cases hone : n = 1
    · subst hone
      exact congrArg groupContents (vget_vmod_ne _ _ _ fun hi => hne ⟨rfl, hi.symm⟩)
    · refine activeEntry_of_same ?_ i
      interval_cases n <;> simp_all [Tables.same, State.modGroup]
  groups g hg hne := vget_vmod_ne _ _ _ fun hi => hne ⟨rfl, hi.symm⟩
  pending := rfl
  pcl := rfl
  ldr := rfl
  rlu := rfl
  scn := rfl
  queue := rfl
  ctr _ := rfl
  fcn _ := rfl
  tbs _ := rfl

/-! ### The writes of the tables with effects of their own -/

theorem judgeLine_blocks : s.judgeLine.pending = s.pending ∧ s.judgeLine.pcl = s.pcl ∧ s.judgeLine.ldr = s.ldr ∧
    s.judgeLine.rlu = s.rlu ∧ s.judgeLine.scn = s.scn ∧ s.judgeLine.dar.queue = s.dar.queue ∧ s.judgeLine.tst = s.tst ∧
    s.judgeLine.ctr = s.ctr ∧ s.judgeLine.fcn = s.fcn ∧
    s.judgeLine.tbs = { s.tbs with inhibited := s.tbs.inhibitIn == s.tst.settings.inhibit } := by
  unfold State.judgeLine
  dsimp only
  split <;> exact ⟨rfl, rfl, rfl, rfl, rfl, rfl, rfl, rfl, rfl, rfl⟩

theorem activeWrite_setting {entry v : Nat} (hentry : entry < 11) (hv : settingOk entry v) :
    ActiveWrite s (s.writeSetting entry v) 0 entry (some (.setting v)) := by
  have htables := activeWrite_tst_setting (s := s) hentry hv
  unfold State.writeSetting
  dsimp only
  split
  · rename_i hline
    obtain ⟨hpending, hpcl, hldr, hrlu, hscn, hqueue, htst, hctr, hfcn, -⟩ :=
      judgeLine_blocks (s := { s with tst := { s.tst with settings := s.tst.settings.put entry v } })
    refine .with_blocks ?_ ⟨hpending, hpcl, hldr, hrlu, hscn, hqueue⟩ (fun _ => hctr) (fun _ => hfcn)
      fun hne => absurd ⟨rfl, hline⟩ hne
    rw [htst]
    exact htables
  · exact htables

theorem activeWrite_registration {entry : Nat} (v : Option Registration) (h : entry < 48) :
    ActiveWrite s (s.writeRegistration entry v) 6 entry (v.map .registration) := by
  have htables := activeWrite_tst_registration (s := s) v h
  unfold State.writeRegistration
  dsimp only
  split
  · exact .with_blocks htables ⟨rfl, rfl, rfl, rfl, rfl, rfl⟩ (absurd rfl) (fun _ => rfl) fun _ => rfl
  · exact htables

theorem activeWrite_counter {entry : Nat} (v : Option CounterCfg) (h : entry < 8) :
    ActiveWrite s (s.writeCounter entry v) 8 entry (v.map .counter) :=
  .with_blocks (activeWrite_tst_counter v h) ⟨rfl, rfl, rfl, rfl, rfl, rfl⟩ (fun _ => rfl) (absurd rfl) fun _ => rfl

/-- Contents that pass the checks of a write are written as its table's own. -/
theorem activeWrite_writeActive {w : WriteBody} {e : Option Entry} {note : WriteNote} (hw : s.writesEntry w e note) :
    ActiveWrite s (s.writeActive w.table w.entry e) w.table w.entry e := by
  obtain ⟨htable, hentry, hread, -⟩ := hw
  rcases readEntry_readsBack hread with ⟨rfl, hne⟩ | ⟨x, rfl, hx, -⟩
  · generalize w.table = table at *
    interval_cases table
    · exact absurd rfl hne
    · exact activeWrite_tst_group none hentry
    · exact activeWrite_tst_route none hentry
    · exact activeWrite_tst_program none hentry
    · exact activeWrite_tst_binMap none hentry
    · exact activeWrite_tst_profile none hentry
    · exact activeWrite_registration none hentry
    · exact activeWrite_tst_pin none hentry
    · exact activeWrite_counter none hentry
  · generalize w.table = table at *
    cases x with
    | setting v =>
      obtain ⟨rfl, hv⟩ := hx
      exact activeWrite_setting hentry hv
    | group f a =>
      obtain rfl : table = 1 := hx
      exact activeWrite_tst_group (some (f, a)) hentry
    | route r =>
      obtain rfl : table = 2 := hx
      exact activeWrite_tst_route (some r) hentry
    | program p =>
      obtain rfl : table = 3 := hx
      exact activeWrite_tst_program (some p) hentry
    | binMap m =>
      obtain rfl : table = 4 := hx
      exact activeWrite_tst_binMap (some m) hentry
    | profile p =>
      obtain rfl : table = 5 := hx
      exact activeWrite_tst_profile (some p) hentry
    | registration r =>
      obtain rfl : table = 6 := hx
      exact activeWrite_registration (some r) hentry
    | pin p =>
      obtain rfl : table = 7 := hx
      exact activeWrite_tst_pin (some p) hentry
    | counter c =>
      obtain rfl : table = 8 := hx
      exact activeWrite_counter (some c) hentry

/-! ### The command -/

theorem takeTableWrite_active {m : Msg} {tag : Nat} {rest : List Byte} {w : WriteBody} {e : Option Entry} {note : WriteNote}
    (hb : readTableWrite rest = some w) (htarget : w.target = 0) (hw : s.writesEntry w e note)
    (hfree : s.inUse w.table w.entry = false) : takeTableWrite (reqRef m tag) rest s =
      (s.writeActive w.table w.entry e).replyAs s.tst.settings.frameType Kind.tableWrite (reqRef m tag) .ok
        (.tableWrite 0 w.table w.entry note) := by
  rw [takeTableWrite_of_writesEntry hb hw, if_pos htarget, State.writeNow, hfree, htarget]
  rfl

/-- The REPLY of an ACTIVE write joins the plant-bound queue, in a frame of the type in force before it. -/
theorem ActiveWrite.reply {u : State} {m : Msg} {tag table entry : Nat} {e : Option Entry} {code : ReplyCode} {body :
    ReplyBody}
    (h : ActiveWrite s u table entry e) (hroom : s.plantRoom 1) :
    u.replyAs s.tst.settings.frameType Kind.tableWrite (reqRef m tag) code body =
      u.sendsPlant [s.replyFrame Kind.tableWrite m tag code body] := by
  refine State.enqueue_plant_of_room ?_ _
  rw [State.plantRoom, h.pcl]
  exact hroom

theorem exec_tableWriteActive {m : Msg} {tag : Nat} {rest : List Byte} {w : WriteBody} {e : Option Entry} {note : WriteNote}
    (ha : s.accepts m tag rest) (hb : readTableWrite rest = some w) (htarget : w.target = 0) (hw : s.writesEntry w e note)
    (hroom : s.plantRoom 1) (hfree : s.inUse w.table w.entry = false) : exec (.tableWriteActive m) s =
      .next ((s.writeActive w.table w.entry e).sendsPlant
        [s.replyFrame Kind.tableWrite m tag .ok (.tableWrite 0 w.table w.entry note)]).settle := by
  rw [← (activeWrite_writeActive hw).reply hroom, ← takeTableWrite_active hb htarget hw hfree]
  exact request_of_accepts ha _ _

/-- Settles O33. -/
theorem activeWriteReplacesEntry : Obligations.ActiveWriteReplacesEntry := by
  intro m tag rest w e note s ha hb htarget hw hroom hfree
  have h := activeWrite_writeActive hw
  refine ⟨_, exec_tableWriteActive ha hb htarget hw hroom hfree, h.reads, h.others, h.groups, ?_, h.pending, h.ldr, h.rlu,
    h.scn, h.queue, h.ctr, h.fcn, h.tbs⟩
  simp only [State.sendsPlant, State.answers, h.pcl]

/-! ### What the write of each table changes beside its entry -/

theorem writeActive_group {w : WriteBody} {e : Option Entry} {note : WriteNote} (hw : s.writesEntry w e note)
    (h : w.table = 1) :
    ∃ v : Option (Nat × CellMask), e = groupEntry v ∧ s.writeActive w.table w.entry e = s.modGroup w.entry (writeGroup
      v) := by
  rw [h]
  rcases readEntry_readsBack hw.2.2.1 with ⟨rfl, -⟩ | ⟨x, rfl, hx, -⟩
  · exact ⟨none, rfl, rfl⟩
  · rw [h] at hx
    cases x with
    | group f a => exact ⟨some (f, a), rfl, rfl⟩
    | setting => cases hx.1
    | route | program | binMap | profile | registration | pin | counter => cases hx

theorem writeActive_registration {w : WriteBody} {e : Option Entry} {note : WriteNote} (hw : s.writesEntry w e note)
    (h : w.table = 6) :
    ∃ v : Option Registration, e = v.map .registration ∧ s.writeActive w.table w.entry e = s.writeRegistration w.entry v
      := by
  rw [h]
  rcases readEntry_readsBack hw.2.2.1 with ⟨rfl, -⟩ | ⟨x, rfl, hx, -⟩
  · exact ⟨none, rfl, rfl⟩
  · rw [h] at hx
    cases x with
    | registration x => exact ⟨some x, rfl, rfl⟩
    | setting => cases hx.1
    | group | route | program | binMap | profile | pin | counter => cases hx

theorem writeActive_counter {w : WriteBody} {e : Option Entry} {note : WriteNote} (hw : s.writesEntry w e note)
    (h : w.table = 8) :
    ∃ v : Option CounterCfg, e = v.map .counter ∧ s.writeActive w.table w.entry e = s.writeCounter w.entry v := by
  rw [h]
  rcases readEntry_readsBack hw.2.2.1 with ⟨rfl, -⟩ | ⟨x, rfl, hx, -⟩
  · exact ⟨none, rfl, rfl⟩
  · rw [h] at hx
    cases x with
    | counter x => exact ⟨some x, rfl, rfl⟩
    | setting => cases hx.1
    | group | route | program | binMap | profile | registration | pin => cases hx

theorem writeActive_setting {w : WriteBody} {e : Option Entry} {note : WriteNote} (hw : s.writesEntry w e note)
    (h : w.table = 0) :
    ∃ v, e = some (.setting v) ∧ s.writeActive w.table w.entry e = s.writeSetting w.entry v := by
  rw [h]
  rcases readEntry_readsBack hw.2.2.1 with ⟨rfl, hne⟩ | ⟨x, rfl, hx, -⟩
  · exact absurd h hne
  · rw [h] at hx
    cases x with
    | setting v => exact ⟨v, rfl, rfl⟩
    | group | route | program | binMap | profile | registration | pin | counter => cases hx

/-- A group written keeps HELD and is OPEN otherwise, without retire pending (R5). -/
theorem group_modGroup_writeGroup {g : Nat} (hg : g < 32) (v : Option (Nat × CellMask)) :
    ((s.modGroup g (writeGroup v)).group g).retirePending = false ∧ ((groupEntry v).isSome →
      ((s.modGroup g (writeGroup v)).group g).state = if (s.group g).state = .held then .held else .opened) := by
  have hgroup : (s.modGroup g (writeGroup v)).group g = writeGroup v (s.group g) := vget_vmod_self _ _ _ hg
  rw [hgroup]
  cases v with
  | none => exact ⟨rfl, nofun⟩
  | some p => exact ⟨rfl, fun _ => rfl⟩

/-- A registration written resets its cell when the flag, the address or the site count changes (R37). -/
theorem cell_writeRegistration {c : Nat} (hc : c < 48) (v : Option Registration) :
    (∀ d, d ≠ c → (s.writeRegistration c v).cell d = s.cell d) ∧ (s.writeRegistration c v).reg? c = v ∧
      (s.writeRegistration c v).cell c = if reRegisters (s.reg? c) v then resetCell v else s.cell c := by
  unfold State.writeRegistration
  dsimp only
  split
  · exact ⟨fun d hd => vget_vmod_ne _ _ _ hd.symm, vget_vmod_self _ _ _ hc, vget_vmod_self _ _ _ hc⟩
  · exact ⟨fun d _ => rfl, vget_vmod_self _ _ _ hc, rfl⟩

/-- Settles O34: by table. -/
theorem activeWriteActsOnItsTable : Obligations.ActiveWriteActsOnItsTable := by
  intro m tag rest w e note s ha hb htarget hw hpass hroom
  have hentry := hw.2.1
  refine ⟨fun huse => request_eq ha ?_ hpass, fun hfree => ⟨_, exec_tableWriteActive ha hb htarget hw hroom hfree,
    fun h => ?_, fun h => ?_, fun h => ?_, fun h hline => ?_⟩⟩
  · rw [takeTableWrite_of_writesEntry hb hw, if_pos htarget, State.writeNow, huse, htarget]
    exact State.reply_of_plantRoom hroom _ _ _ _ _
  · obtain ⟨v, rfl, hu⟩ := writeActive_group hw h
    rw [hu]
    rw [h] at hentry
    exact group_modGroup_writeGroup hentry v
  · obtain ⟨v, rfl, hu⟩ := writeActive_registration hw h
    rw [hu]
    rw [h] at hentry
    obtain ⟨hothers, hreg, hcell⟩ := cell_writeRegistration (s := s) hentry v
    refine ⟨hothers, fun hsame => hcell.trans (if_neg ?_), fun hdiff => hcell.trans ((if_pos ?_).trans ?_)⟩
    · have hsame := hsame.trans (congrArg _ hreg)
      simp [reRegisters, hsame]
    · have hdiff := fun heq => hdiff (Eq.trans heq (congrArg _ hreg).symm)
      simpa [reRegisters] using hdiff
    · have hsites : (s.writeRegistration w.entry v).siteCount w.entry = (v.map Registration.siteCount).getD 0 := by
        rw [State.siteCount, hreg]
        cases v <;> rfl
      exact congrArg (fun n => Cell.reset (allSites n)) hsites.symm
  · obtain ⟨v, rfl, hu⟩ := writeActive_counter hw h
    rw [hu]
    rw [h] at hentry
    exact ⟨vget_vmod_self _ _ _ hentry, vget_vmod_self _ _ _ hentry, fun i hi =>
      ⟨vget_vmod_ne _ _ _ hi.symm, vget_vmod_ne _ _ _ hi.symm⟩⟩
  · obtain ⟨v, rfl, hu⟩ := writeActive_setting hw h
    rw [hu, State.writeSetting, if_pos hline]
    obtain ⟨-, -, -, -, -, -, htst, -, -, htbs⟩ :=
      judgeLine_blocks (s := { s with tst := { s.tst with settings := s.tst.settings.put w.entry v } })
    refine htbs.trans ?_
    simp only [State.sendsPlant, htst]

end Sys2Proof.Machine
end

section
/-! The operations on lots, cells and lists as equations between states: a lot in its slot replaced, a cell's record
changed, a lot
joining the dispatch queue or becoming HELD, a hold placed with its notice. -/

namespace Sys2Proof.Machine

set_option Elab.async false

variable {s : State}

/-! ### The lot of a slot -/

theorem State.lt_of_lot? {h : Nat} {l : Lot} (hl : s.lot? h = some l) : h < 512 := by
  by_contra hge
  rw [State.lot?, State.slot, vget_outside _ _ (Nat.le_of_not_lt hge)] at hl
  cases hl

theorem State.slot_setLot_self {h : Nat} (hh : h < 512) (l : Lot) : (s.setLot h l).slot h = ⟨(s.slot h).inst, some l⟩ :=
  vget_vmod_self _ _ _ hh

theorem State.slot_setLot_ne {h k : Nat} (hk : k ≠ h) (l : Lot) : (s.setLot h l).slot k = s.slot k :=
  vget_vmod_ne _ _ _ hk.symm

theorem State.lot?_setLot {h : Nat} {l : Lot} (hl : s.lot? h = some l) (l' : Lot) : (s.setLot h l').lot? h = some l' := by
  rw [State.lot?, State.slot_setLot_self (State.lt_of_lot? hl)]

theorem State.lot?_setLot_of_lt {h : Nat} (hh : h < 512) (l' : Lot) : (s.setLot h l').lot? h = some l' := by
  rw [State.lot?, State.slot_setLot_self hh]

theorem State.lot?_setLot_ne {h k : Nat} (hk : k ≠ h) (l' : Lot) : (s.setLot h l').lot? k = s.lot? k :=
  congrArg Slot.lot (State.slot_setLot_ne hk l')

/-- The number of a slot stands when its lot is replaced. -/
theorem State.inst_setLot (h k : Nat) (l : Lot) : ((s.setLot h l).slot k).inst = (s.slot k).inst := by
  by_cases hk : k = h
  · subst hk
    by_cases hlt : k < 512
    · rw [State.slot_setLot_self hlt]
    · simp only [State.slot, vget_outside _ _ (Nat.le_of_not_lt hlt)]
  · rw [State.slot_setLot_ne hk]

theorem vmod_congr {α : Type} {n : Nat} (v : Vector α n) (d : α) {i : Nat} {f g : α → α}
    (h : f (vget v d i) = g (vget v d i)) :
    vmod v i f = vmod v i g := by
  unfold vmod
  split
  · rename_i x hx
    have hget : vget v d i = x := by simp [vget, hx]
    rw [hget] at h
    rw [h]
  · rfl

theorem vmod_vmod {α : Type} {n : Nat} (v : Vector α n) (i : Nat) (f g : α → α) :
    vmod (vmod v i f) i g = vmod v i fun x => g (f x) := by
  by_cases hi : i < n
  · simp [vmod, hi]
  · simp [vmod, hi]

theorem vmod_self {α : Type} {n : Nat} (v : Vector α n) (d : α) {i : Nat} {f : α → α} (h : f (vget v d i) = vget v d i) :
    vmod v i f = v := by
  unfold vmod
  split
  · rename_i x hx
    have hget : vget v d i = x := by simp [vget, hx]
    rw [hget] at h
    rw [h]
    refine Vector.ext fun j hj => ?_
    rw [Vector.getElem_setIfInBounds]
    split
    · rename_i hij
      subst hij
      simpa [hj] using hx.symm
    · rfl
  · rfl

/-- A change of a live lot puts the changed lot in its slot. -/
theorem State.modLot_of_lot {h : Nat} {l : Lot} (hl : s.lot? h = some l) (f : Lot → Lot) : s.modLot h f = s.setLot h
    (f l) := by
  have hslots : vmod s.ldr.slots h (fun x => { x with lot := x.lot.map f }) =
      vmod s.ldr.slots h fun x => { x with lot := some (f l) } :=
    vmod_congr _ Slot.none (by
      have hlot : (vget s.ldr.slots Slot.none h).lot = some l := hl
      rw [hlot]
      rfl)
  unfold State.modLot State.setLot State.modSlot
  rw [hslots]

theorem State.setLot_setLot (h : Nat) (l l' : Lot) : (s.setLot h l).setLot h l' = s.setLot h l' := by
  unfold State.setLot State.modSlot
  dsimp only
  rw [vmod_vmod]

theorem State.setLot_self {h : Nat} {l : Lot} (hl : s.lot? h = some l) : s.setLot h l = s := by
  have hslots : vmod s.ldr.slots h (fun x => { x with lot := some l }) = s.ldr.slots := vmod_self _ Slot.none (by
    rw [← hl]
    rfl)
  unfold State.setLot State.modSlot
  rw [hslots]

/-- The lots of a state with one lot replaced. -/
theorem State.sameOtherLots_setLot (h : Nat) (l : Lot) : s.sameOtherLots (s.setLot h l) h :=
  ⟨fun _ hk => State.slot_setLot_ne hk l, rfl⟩

/-! ### The record of a cell -/

theorem State.modCell_congr {c : Nat} {f g : Cell → Cell} (h : f (s.cell c) = g (s.cell c)) : s.modCell c f = s.modCell
    c g := by
  unfold State.modCell
  rw [vmod_congr _ (Cell.reset 0) h]

theorem State.modCell_modCell (c : Nat) (f g : Cell → Cell) : (s.modCell c f).modCell c g = s.modCell c fun x => g (f x)
    := by
  unfold State.modCell
  dsimp only
  rw [vmod_vmod]

theorem State.modCell_self {c : Nat} {f : Cell → Cell} (h : f (s.cell c) = s.cell c) : s.modCell c f = s := by
  unfold State.modCell
  rw [vmod_self _ (Cell.reset 0) h]

/-! ### The dispatch queue and the release-pending set -/

/-- A live lot joining the dispatch queue (R60, R61, R67). -/
theorem State.joinQueue_of_lot {h : Nat} {l : Lot} (hl : s.lot? h = some l) (new : Bool) : s.joinQueue h new =
    s.joins h { l with state := .waiting, arrival := if new then s.now else l.arrival } := by
  unfold State.joinQueue
  rw [State.modLot_of_lot hl]
  simp only [State.lot?_setLot hl, State.inst_setLot]
  rfl

/-- A live lot becoming HELD (R133, R151). -/
theorem State.toHeld_of_lot {h : Nat} {l : Lot} (hl : s.lot? h = some l) : s.toHeld h = s.becomesHeld h l := by
  have hlots : (s.modLot h fun l => { l with relPending := false }).modLot h (fun l => { l with state := .held }) =
      s.setLot h { l with state := .held, relPending := false } := by
    rw [State.modLot_of_lot hl, State.modLot_of_lot (State.lot?_setLot hl _), State.setLot_setLot]
  unfold State.becomesHeld
  rw [← hlots]
  rfl

/-! ### Holds -/

/-- A hold added or merged on a live lot (R131). -/
theorem State.addHold_of_lot {h : Nat} {l : Lot} (hl : s.lot? h = some l) (n : NewHold) : s.addHold h n =
    (s.setLot h { l with
      holds := placeEntry l.holds n s.now
      target := if l.holds = [] then some (if l.state = .complete then .complete else .resume) else l.target
      mark := true }).event .holdPlaced n.reason.code := by
  have htarget : firstTarget l.state = if l.state = .complete then .complete else .resume := by cases l.state <;> rfl
  rw [State.addHold, State.modLot_of_lot hl, htarget]
  simp only [List.isEmpty_iff]

theorem Lot.hasHold_eq_false {l : Lot} {r : HoldReason} (h : ∀ e ∈ l.holds, e.reason ≠ r) : l.hasHold r = false := by
  simpa [Lot.hasHold] using h

theorem Lot.hasHold_eq_true {l : Lot} {r : HoldReason} (h : ∃ e ∈ l.holds, e.reason = r) : l.hasHold r = true := by
  simpa [Lot.hasHold] using h

theorem State.isNewHold_of_lot {h : Nat} {l : Lot} (hl : s.lot? h = some l) (r : HoldReason) :
    s.isNewHold h r = !l.hasHold r := by simp only [State.isNewHold, hl]

/-- The notice of a live lot's entry, the last of its list. -/
theorem State.heldNotice_of_last {h : Nat} {l : Lot} {before : List HoldEntry} {e : HoldEntry} {r : HoldReason}
    (hl : s.lot? h = some l) (hholds : l.holds = before ++ [e]) (hbefore : ∀ x ∈ before, x.reason ≠ r) (he : e.reason = r)
    (after : LotState) (hgo : s.noticesGo) (hroom : s.plantRoom 1) : s.heldNotice h r after =
      s.notifies (.lotHeld (s.named h l) (s.group (groupOf h)).family e after l.target) := by
  have hfind : l.hold? r = some e := by
    have hnone : before.find? (fun x => x.reason == r) = none := by simpa using hbefore
    simp [Lot.hold?, hholds, List.find?_append, hnone, he]
  simp only [State.heldNotice, hl, hfind]
  exact State.notice_of_go hgo hroom _

/-- A hold of a new reason on a live lot, with its LOT_HELD (R131, R132). -/
theorem State.addHold_heldNotice {h : Nat} {l : Lot} (hl : s.lot? h = some l) {n : NewHold}
    (hnew : ∀ e ∈ l.holds, e.reason ≠ n.reason) (after : LotState) (hgo : s.noticesGo) (hroom : s.plantRoom 1) :
    let e : HoldEntry := ⟨n.reason, s.now, n.placedBy, n.trips, 1, n.note⟩
    let target := if l.holds = [] then some (if l.state = .complete then Target.complete else Target.resume) else l.target
    (s.addHold h n).heldNotice h n.reason after =
      ((s.setLot h { l with holds := l.holds ++ [e], target := target, mark := true }).event .holdPlaced
        n.reason.code).notifies
        (.lotHeld (s.named h l) (s.group (groupOf h)).family e after target) := by
  rw [State.addHold_of_lot hl, placeEntry_new _ hnew]
  refine (State.heldNotice_of_last
    (s := (s.setLot h _).event .holdPlaced n.reason.code) (e := ⟨n.reason, s.now, n.placedBy, n.trips, 1, n.note⟩)
      (State.lot?_setLot hl _) ?_ hnew rfl
    after ?_ ?_).trans ?_
  · rfl
  · exact hgo
  · exact hroom
  · have hinst : ∀ l', (((s.setLot h l').event .holdPlaced n.reason.code).slot h).inst = (s.slot h).inst :=
    State.inst_setLot h h
    simp only [State.named, hinst]
    rfl

/-- A hold placed quietly for a reason no entry has (R131, R134). -/
theorem State.placeQuiet_new {h : Nat} {l : Lot} (hl : s.lot? h = some l) {reason : HoldReason} (by_ : PlacedBy)
    (trips : List Trip)
    (hnew : ∀ e ∈ l.holds, e.reason ≠ reason) (hgo : s.noticesGo) (hroom : s.plantRoom 1) :
    s.placeQuiet h ⟨reason, by_, trips, none⟩ = s.heldFor h l reason by_ trips .held := by
  rw [State.placeQuiet, State.isNewHold_of_lot hl, Lot.hasHold_eq_false hnew]
  exact State.addHold_heldNotice hl hnew .held hgo hroom

/-- The lot of a new hold. -/
def Lot.heldBy (l : Lot) (e : HoldEntry) : Lot :=
  { l with
    holds := l.holds ++ [e]
    target := if l.holds = [] then some (if l.state = .complete then Target.complete else Target.resume) else l.target
    mark := true }

theorem State.lot?_heldFor {h : Nat} {l : Lot} (hl : s.lot? h = some l) (reason : HoldReason) (by_ : PlacedBy)
    (trips : List Trip)
    (after : LotState) : (s.heldFor h l reason by_ trips after).lot? h = some (l.heldBy ⟨reason, s.now, by_, trips, 1,
      none⟩) :=
  State.lot?_setLot hl _

theorem State.hasHolds_of_lot {h : Nat} {l : Lot} (hl : s.lot? h = some l) : s.hasHolds h = decide (l.holds ≠ []) := by
  simp only [State.hasHolds, hl]
  cases l.holds <;> simp

end Sys2Proof.Machine
end

section
/-! An accepted LOT_ORDER and its lot (R12 to R15), and TIME (R52, R53, R193). -/

namespace Sys2Proof.Machine

set_option Elab.async false

variable {s : State}

/-! ### LOT_ORDER -/

theorem State.freeHandle_of_lowest {g h : Nat} (hgroup : groupOf h = g) (hfree : s.lot? h = none)
    (hlow : ∀ k, groupOf k = g → k < h → (s.lot? k).isSome) : s.freeHandle g = some h := by
  obtain ⟨k, hk⟩ : ∃ k, s.freeHandle g = some k := by
    refine Option.ne_none_iff_exists'.mp fun hnone => ?_
    have := (State.freeHandle_eq_none_iff g).mp hnone h hgroup
    rw [hfree] at this
    cases this
  obtain ⟨hkgroup, hkfree⟩ := State.freeHandle_spec hk
  have hge : h ≤ k := by
    by_contra hlt
    have := hlow k hkgroup (by omega)
    rw [hkfree] at this
    cases this
  rcases Nat.eq_or_lt_of_le hge with rfl | hlt
  · exact hk
  · obtain ⟨-, before, after, hsplit, hbefore⟩ := List.find?_eq_some_iff_append.mp hk
    have hmem : h ∈ before := by
      have hall := (mem_groupHandles g h).mpr hgroup
      have hsorted := groupHandles_sorted g
      rw [hsplit] at hall hsorted
      rcases List.mem_append.mp hall with hmem | hmem
      · exact hmem
      · rcases List.mem_cons.mp hmem with rfl | hmem
        · omega
        · have := (List.pairwise_cons.mp (List.pairwise_append.mp hsorted).2.1).1 h hmem
          omega
    have := hbefore h hmem
    rw [hfree] at this
    cases this

theorem newLot_of_route {b : OrderBody} {x : Route} (hx : s.route? b.route = some x) :
    s.newLot b = { lotCreated b (x.steps.getD 0 RouteStep.none) s.now with
      state := if (s.group b.group).state = .held then .held else .waiting } := by
  have hstep : s.routeStep b.route 0 = x.steps.getD 0 RouteStep.none := by rw [State.routeStep, hx]
  rw [← hstep]
  rfl

/-- The state with a route's use count raised and a new lot in its slot (R13, R15). -/
def State.lotPlaced (s : State) (route h : Nat) (l : Lot) : State :=
  State.setLot { s with ldr := { s.ldr with useCount := vmod s.ldr.useCount route fun n => n + 1 } } h l

theorem State.lot?_lotPlaced {route h : Nat} (hh : h < 512) (l : Lot) : (s.lotPlaced route h l).lot? h = some l :=
  State.lot?_setLot_of_lt hh l

theorem State.setLot_lotPlaced (route h : Nat) (l l' : Lot) : (s.lotPlaced route h l).setLot h l' = s.lotPlaced route h l' :=
  State.setLot_setLot h l l'

theorem State.inst_lotPlaced (route h k : Nat) (l : Lot) : ((s.lotPlaced route h l).slot k).inst = (s.slot k).inst :=
  State.inst_setLot h k l

theorem createLot_opened {b : OrderBody} {h : Nat} {x : Route} (hh : h < 512) (hx : s.route? b.route = some x)
    (hopen : (s.group b.group).state = .opened) : s.createLot b h =
      let l := lotCreated b (x.steps.getD 0 RouteStep.none) s.now
      { s.lotPlaced b.route h l with dar := ⟨s.queueWith h l, true⟩ } := by
  have hnew : s.newLot b = lotCreated b (x.steps.getD 0 RouteStep.none) s.now := by rw [newLot_of_route hx, hopen]; rfl
  have hplaced : s.createLot b h = (s.lotPlaced b.route h (s.newLot b)).joinQueue h true := by
    unfold State.createLot
    dsimp only
    rw [if_neg (by rw [hnew]; nofun)]
    rfl
  rw [hplaced, hnew, State.joinQueue_of_lot (State.lot?_lotPlaced hh _)]
  unfold State.joins
  rw [State.setLot_lotPlaced]
  simp only [State.queueWith, State.inst_lotPlaced]
  rfl

/-- An order accepted in a HELD group: the lot is created HELD with a FAMILY entry, and LOT_HELD is sent (R14). -/
theorem createLot_held {b : OrderBody} {h : Nat} {x : Route} (hh : h < 512) (hx : s.route? b.route = some x)
    (hheld : (s.group b.group).state = .held) (hgroup : groupOf h = b.group) (hgo : s.noticesGo) (hroom : s.plantRoom 1) :
    s.createLot b h =
      let l := lotCreated b (x.steps.getD 0 RouteStep.none) s.now
      let e : HoldEntry := ⟨.family, s.now, .plant, [], 1, none⟩
      ((s.lotPlaced b.route h { l with state := .held, holds := [e], target := some .resume }).event .holdPlaced 5).notifies
        (.lotHeld ⟨h, (s.slot h).inst, b.name, b.group⟩ (s.group b.group).family e .held (some .resume)) := by
  have hnew : s.newLot b = { lotCreated b (x.steps.getD 0 RouteStep.none) s.now with state := .held } := by
    rw [newLot_of_route hx, hheld]
    rfl
  have hplaced : s.createLot b h = ((s.lotPlaced b.route h (s.newLot b)).addHold h familyHold).heldNotice h .family
    .held := by
    unfold State.createLot
    dsimp only
    rw [if_pos (by rw [hnew])]
    rfl
  have hplace := State.addHold_heldNotice (s := s.lotPlaced b.route h (s.newLot b)) (State.lot?_lotPlaced hh _) (n :=
    familyHold)
    (by rw [hnew]; nofun) .held hgo hroom
  refine hplaced.trans (hplace.trans ?_)
  rw [State.setLot_lotPlaced, hnew, ← hgroup]
  simp only [State.named, State.inst_lotPlaced]
  rfl

/-- Settles O30: by whether the group is OPEN or HELD. -/
theorem lotOrderCreatesLot : Obligations.LotOrderCreatesLot := by
  intro m tag h rest b x s ha hb hpass hmode hg hx hfilled hlo hhi hgroup hfree hlow
  have hh : h < 512 := by
    simp only [groupOf] at hgroup
    omega
  have horderable : s.routeOrderable b.route = true := (State.routeOrderable_iff _).mpr ⟨x, hx, hfilled⟩
  have hcheck : (s.group b.group).state ≠ .unbound → ¬s.orderRetired b → s.orderCheck b = (.ok, h) := fun hbound hr => by
    have hknown : ¬s.orderUnknown b := by
      rintro (h0 | h0)
      · omega
      · exact hbound h0
    have hqty : ¬b.badQuantity := by
      simp only [OrderBody.badQuantity, maxQuantity]
      omega
    rw [State.orderCheck_of_qty (by simp [hmode]) hknown hr horderable hqty, State.freeHandle_of_lowest hgroup hfree hlow]
    rfl
  refine ⟨fun hopen hroom => ?_, fun hheld hpending hgo hroom => ?_⟩
  · have hc := hcheck (by simp [hopen]) (by simp [State.orderRetired, hopen])
    rw [exec_lotOrder_accepted ha hb hc, createLot_opened hh hx hopen, State.reply_of_plantRoom]
    · exact congrArg (fun n => Host.Outcome.next (State.answers _ _ _ _ _ (.lotOrder h n (min b.cls 3))).settle)
        (State.inst_lotPlaced _ _ _ _)
    · exact hroom
  · have hc := hcheck (by simp [hheld]) (by simp [State.orderRetired, hheld, hpending])
    rw [exec_lotOrder_accepted ha hb hc, createLot_held hh hx hheld hgroup hgo (State.plantRoom_mono hroom (by decide)),
      State.reply_of_plantRoom]
    · refine (congrArg Host.Outcome.next (State.settle_of_passTaken ?_)).trans ?_
      · exact hpass
      · exact congrArg (fun n => Host.Outcome.next (State.answers _ _ _ _ _ (.lotOrder h n (min b.cls 3))))
          (State.inst_lotPlaced _ _ _ _)
    · refine State.plantRoom_succ ?_ _
      exact hroom

/-! ### The judgement of a lapse -/

theorem lapsed_eq_true {f e : Option Nat} : lapsed f e = true ↔ ∃ a b, f = some a ∧ e = some b ∧ b ≤ a := by
  cases f <;> cases e <;> simp [lapsed]

/-- A cell whose calibration has not lapsed, or that no lapse acts on, stands (R52, R53). -/
theorem State.judgeLapse_eq_self {c : Nat} (h : (∀ f e, s.tbs.floorTime = some f → (s.cell c).expiry = some e → f < e) ∨
    (s.cell c).state = .stopping ∨ (s.cell c).state = .offline ∨ (s.cell c).state = .idle ∨ (s.cell c).state = .fault) :
    s.judgeLapse c = s := by
  unfold State.judgeLapse
  split
  · rename_i hlapsed
    obtain ⟨f, e, hf, he, hle⟩ := lapsed_eq_true.mp hlapsed
    rcases h with h | h | h | h | h
    · exact absurd (h f e hf he) (by omega)
    all_goals rw [h]
  · rfl

theorem CellState.acts_or_rests (st : CellState) : (st = .setup ∨ st = .starting ∨ st = .running ∨ st = .paused) ∨
    (st = .stopping ∨ st = .offline ∨ st = .idle ∨ st = .fault) := by cases st <;> simp

/-- At a floor time no calibration has lapsed at the judgement does nothing. -/
theorem State.judgeLapses_eq_self {v : Nat} (ht : s.tbs.floorTime = some v) (hno : s.noLapse v) : s.judgeLapses = s := by
  unfold State.judgeLapses
  have hcell : ∀ c, c < 48 → s.judgeLapse c = s := fun c hc => by
    refine State.judgeLapse_eq_self ((CellState.acts_or_rests (s.cell c).state).imp_left fun hacts f e hf he => ?_)
    obtain rfl : v = f := Option.some.inj (ht.symm.trans hf)
    exact hno c e hc hacts he
  suffices h : ∀ l : List Nat, (∀ c ∈ l, c < 48) → l.foldl (fun s c => s.judgeLapse c) s = s from
    h _ fun c hc => List.mem_range.mp hc
  intro l hl
  induction l with
  | nil => rfl
  | cons c l ih =>
    rw [List.foldl_cons, hcell c (hl c (.head _))]
    exact ih fun d hd => hl d (.tail _ hd)

/-! ### TIME -/

theorem takeTime_eq {ref : ReqRef} {v : Nat} {rest : List Byte} (hb : readTime rest = some v) : takeTime ref rest s =
    (s.offerTime v).reply Kind.time ref .ok (.time (s.offerTime v).tbs.floorTime (s.rejectsTime v)) := by
  simp only [takeTime, hb]

theorem State.offerTime_none {v : Nat} (h : s.tbs.floorTime = none) : s.offerTime v = (s.setTime v).startPass ∧
    s.rejectsTime v = false := by
  simp [State.offerTime, State.rejectsTime, h]

theorem State.offerTime_some {v f : Nat} (h : s.tbs.floorTime = some f) : s.offerTime v =
    (if v < f then { s with tbs := { s.tbs with timeRejected := bump s.tbs.timeRejected 1 } } else if v = f then s
      else s.setTime v) ∧ s.rejectsTime v = decide (v < f) := by
  simp [State.offerTime, State.rejectsTime, h]

theorem State.setTime_of_noLapse {v : Nat} (h : s.noLapse v) :
    s.setTime v = { s with tbs := { s.tbs with floorTime := some v } } := by
  unfold State.setTime
  refine State.judgeLapses_eq_self rfl ?_
  exact h

/-- The lapse judged for every cell leaves the tables and floor time. -/
theorem State.base_setTime (v : Nat) : (s.setTime v).tst = s.tst ∧ (s.setTime v).tbs.floorTime = some v := by
  unfold State.setTime
  obtain ⟨-, htst, -, htbs, -, -⟩ := (Moves.refl (C := fun _ => True) (S := True)
    ({ s with tbs := { s.tbs with floorTime := some v } } : State)).judgeLapses.base
  exact ⟨htst, by rw [htbs]⟩

theorem State.setTime_eq (v : Nat) : s.setTime v =
    (List.range 48).foldl State.judgeLapse { s with tbs := { s.tbs with floorTime := some v } } := by
  unfold State.setTime State.judgeLapses
  rfl

/-- The REPLY to a TIME that moved floor time, whatever else the lapse changed. -/
theorem State.reply_time {t : State} {v : Nat} (htst : t.tst = s.tst) (htime : t.tbs.floorTime = some v) (m : Msg)
    (tag : Nat) :
    t.reply Kind.time (reqRef m tag) .ok (.time t.tbs.floorTime false) =
      t.enqueue .plant (s.replyFrame Kind.time m tag .ok (.time (some v) false)) := by
  simp only [State.reply, State.replyAs, State.replyFrame, htst, htime]
  rfl

/-- Settles O43: by where the value stands to floor time. -/
theorem timeSetsFloorTime : Obligations.TimeSetsFloorTime := by
  refine ⟨fun m tag v rest s ha hb hpass hroom => ⟨fun hnone hno => ?_, fun f hf => ⟨fun hlt => ?_, fun heq => ?_,
    fun hlt hno => ?_⟩⟩, fun m tag v rest s ha hb => ⟨fun hnone => ?_, fun f hf hlt => ?_⟩⟩
  · obtain ⟨hoffer, hrejects⟩ := State.offerTime_none (v := v) hnone
    refine (request_of_accepts ha _ _).trans (congrArg (fun t => Host.Outcome.next (State.settle t)) ?_)
    rw [takeTime_eq hb, hoffer, hrejects, State.setTime_of_noLapse hno, State.reply_of_plantRoom]
    · rfl
    · exact hroom
  · obtain ⟨hoffer, hrejects⟩ := State.offerTime_some (v := v) hf
    refine request_eq ha ?_ ?_
    · rw [takeTime_eq hb, hoffer, hrejects, if_pos hlt, State.reply_of_plantRoom, hf, decide_eq_true hlt]
      · rfl
      · exact hroom
    · exact hpass
  · obtain ⟨hoffer, hrejects⟩ := State.offerTime_some (v := v) hf
    refine request_eq ha ?_ hpass
    rw [takeTime_eq hb, hoffer, hrejects, if_neg (by omega), if_pos heq, State.reply_of_plantRoom hroom, hf,
      decide_eq_false (by omega)]
  · obtain ⟨hoffer, hrejects⟩ := State.offerTime_some (v := v) hf
    refine request_eq ha ?_ ?_
    · rw [takeTime_eq hb, hoffer, hrejects, if_neg (by omega), if_neg (by omega), State.setTime_of_noLapse hno,
        State.reply_of_plantRoom, decide_eq_false (by omega)]
      exact hroom
    · exact hpass
  · obtain ⟨hoffer, hrejects⟩ := State.offerTime_none (v := v) hnone
    refine (request_of_accepts ha _ _).trans (congrArg (fun t => Host.Outcome.next (State.settle t)) ?_)
    obtain ⟨htst, htime⟩ := State.base_setTime (s := s) v
    rw [takeTime_eq hb, hoffer, hrejects, State.reply_time (t := (s.setTime v).startPass)
      ((State.startPass_tst _).trans htst) (by rw [State.startPass_tbs, htime]), State.startPass,
      State.setTime_eq]
  · obtain ⟨hoffer, hrejects⟩ := State.offerTime_some (v := v) hf
    refine (request_of_accepts ha _ _).trans (congrArg (fun t => Host.Outcome.next (State.settle t)) ?_)
    obtain ⟨htst, htime⟩ := State.base_setTime (s := s) v
    rw [takeTime_eq hb, hoffer, hrejects, if_neg (by omega), if_neg (by omega), decide_eq_false (by omega),
      State.reply_time htst htime, State.setTime_eq]

end Sys2Proof.Machine
end

section
/-! The second event: the timers and floor time counted, the expiries and the lapse it brings, and the samples of the
counters
(R52, R58, R193, R194, R199). -/

namespace Sys2Proof.Machine

set_option Elab.async false

variable {s : State}

/-! ### Samples -/

theorem meets_eq_ite (cfg : CounterCfg) (n : Nat) :
    meets cfg n = if cfg.invert then decide (n < cfg.threshold) else decide (cfg.threshold ≤ n) := by
  unfold meets
  cases cfg.invert <;> simp

theorem sampleCounter_of_occupancy {i : Nat} {cfg : CounterCfg} {o : OccSource} (h : vget s.tst.counters none i = some cfg)
    (ho : cfg.source = .occupancy o) : s.sampleCounter i =
      (sampledValue cfg (s.sampleOf o) (vget s.fcn.last none i) (vget s.fcn.values 0 i),
        sampledLast cfg (s.sampleOf o) (vget s.fcn.last none i)) := by
  simp only [State.sampleCounter, h, ho]

theorem sampleCounter_of_other {i : Nat} (h : ∀ cfg o, vget s.tst.counters none i = some cfg → cfg.source ≠ .occupancy o) :
    s.sampleCounter i = (vget s.fcn.values 0 i, vget s.fcn.last none i) := by
  unfold State.sampleCounter
  dsimp only
  split
  · rfl
  · rename_i cfg hcfg
    split
    · rfl
    · rename_i o ho
      exact absurd ho (h cfg o hcfg)

/-- Every counter takes its sample, and nothing else changes. -/
theorem State.sampledTo_sample : s.sampledTo s.sample := by
  refine ⟨rfl, fun i hi => ?_⟩
  have hvalue : vget s.sample.fcn.values 0 i = (s.sampleCounter i).1 := vget_ofFn _ _ hi
  have hlast : vget s.sample.fcn.last none i = (s.sampleCounter i).2 := vget_ofFn _ _ hi
  rw [hvalue, hlast]
  refine ⟨fun h => ?_, fun cfg o h ho => ?_⟩
  · rw [sampleCounter_of_other h]
    exact ⟨rfl, rfl⟩
  · rw [sampleCounter_of_occupancy h ho, ← meets_eq_ite]
    refine ⟨fun hmode => ?_, fun hmode => ⟨?_, ?_⟩, fun hmode => ?_⟩
    · simp [sampledValue, hmode]
    · simp [sampledLast, hmode]
    · simp [sampledValue, hmode]
    · simp only [sampledValue, hmode]
      rfl

/-! ### The count of a second -/

/-- The state after the timers and floor time have counted a second (R58, R193). -/
def State.counted (s : State) : State :=
  { s.tickTimers with tbs := { s.tbs with floorTime := s.tbs.floorTime.map nextTime } }

theorem State.cell_tickTimers {c : Nat} (hc : c < 48) :
    s.tickTimers.cell c = { s.cell c with timers := (s.cell c).timers.tick } := by
  simp [State.cell, State.tickTimers, vget, hc]

theorem State.countedTo_counted : s.countedTo s.counted := by
  refine ⟨fun c hc => State.cell_tickTimers hc, ?_, rfl, rfl⟩
  rfl

/-- Floor time counted, and a change of it judged for every cell (R193). -/
theorem State.tickTime_eq : s.tickTime =
    let t : State := { s with tbs := { s.tbs with floorTime := s.tbs.floorTime.map nextTime } }
    if t.tbs.floorTime = s.tbs.floorTime then t else (List.range 48).foldl State.judgeLapse t := by
  unfold State.tickTime State.judgeLapses
  rcases hf : s.tbs.floorTime with _ | f
  · simp only [Option.map_none, if_true]
    rw [← hf]
  · simp only [Option.map_some, Option.some.injEq]

/-- The count of a second in a state that another one's second has reached. -/
theorem tickTime_of_sameTbs {t : State} (htbs : t.tbs = s.tbs) : t.tickTime =
    let u : State := { t with tbs := { t.tbs with floorTime := s.counted.tbs.floorTime } }
    if s.counted.tbs.floorTime = s.tbs.floorTime then u else (List.range 48).foldl State.judgeLapse u := by
  rw [State.tickTime_eq, ← htbs]
  simp only [State.counted, htbs]

theorem State.noLapse_counted {v : Nat} (h : s.noLapse v) : s.counted.noLapse v := by
  intro c e hc hstate hexpiry
  have hcell : s.counted.cell c = { s.cell c with timers := (s.cell c).timers.tick } := State.cell_tickTimers hc
  rw [hcell] at hstate hexpiry
  exact h c e hc hstate hexpiry

/-- A second in which nothing lapses counts the timers and floor time alone. -/
theorem tickTime_of_noLapse {t : State} (htbs : t.tbs = s.tbs)
    (hno : ∀ f, s.tbs.floorTime = some f → f ≠ 4294967295 → t.noLapse (f + 1)) :
    t.tickTime = { t with tbs := { s.tbs with floorTime := s.tbs.floorTime.map nextTime } } := by
  rw [State.tickTime_eq, htbs]
  dsimp only
  split
  · rfl
  · rename_i hmoved
    obtain ⟨f, hf⟩ : ∃ f, s.tbs.floorTime = some f := by
      refine Option.ne_none_iff_exists'.mp fun hnone => hmoved ?_
      rw [hnone]
      rfl
    have htop : f ≠ 4294967295 := fun h => hmoved (by
      rw [hf, h]
      rfl)
    have hnext : nextTime f = f + 1 := if_neg htop
    have hno := hno f hf htop
    have hjudge : State.judgeLapses { t with tbs := { s.tbs with floorTime := s.tbs.floorTime.map nextTime } } =
        { t with tbs := { s.tbs with floorTime := s.tbs.floorTime.map nextTime } } := by
      refine State.judgeLapses_eq_self (v := f + 1) ?_ ?_
      · simp only [hf, Option.map_some, hnext]
      · exact hno
    rw [State.judgeLapses] at hjudge
    exact hjudge

/-! ### Expiries -/

theorem exec_expiryRow (x : Fin 48 × CellTimer) (t : State) :
    exec (expiryRow x) t = .next (t.takeTimeout x.1.val x.2) := by
  rcases x with ⟨c, timer⟩
  cases timer <;> rfl

/-- Expiries taken one after another as their own rows. -/
theorem runsTo_expiries (taken : List (Fin 48 × CellTimer)) : ∀ {v x : State}, v.runsTo (taken.map expiryRow) x ↔
    x = taken.foldl (fun t x => t.takeTimeout x.1.val x.2) v := by
  induction taken with
  | nil => exact Iff.rfl
  | cons y taken ih =>
    intro v x
    simp only [List.map_cons, State.runsTo, exec_expiryRow, List.foldl_cons, ih]
    constructor
    · rintro ⟨u, hu, hx⟩
      cases hu
      exact hx
    · intro hx
      exact ⟨_, rfl, hx⟩

theorem State.takeTimeout_eq_self {c : Nat} {timer : CellTimer} (h : timerOf timer (s.cell c).timers ≠ some 0) :
    s.takeTimeout c timer = s := by
  have hdue : isDue (timerOf timer (s.cell c).timers) = false := by simpa [isDue] using h
  rw [State.takeTimeout, hdue]
  rfl

theorem foldl_takeTimeout_eq_self {taken : List (Fin 48 × CellTimer)}
    (h : ∀ x ∈ taken, timerOf x.2 (s.cell x.1.val).timers ≠ some 0) :
    taken.foldl (fun t x => t.takeTimeout x.1.val x.2) s = s := by
  induction taken with
  | nil => rfl
  | cons y taken ih =>
    rw [List.foldl_cons, State.takeTimeout_eq_self (h y (.head _))]
    exact ih fun x hx => h x (.tail _ hx)

/-- The listed expiries leave the mode, the lines and floor time. -/
theorem foldl_takeTimeout_tbs (taken : List (Fin 48 × CellTimer)) : ∀ s : State,
    (taken.foldl (fun t x => t.takeTimeout x.1.val x.2) s).tbs = s.tbs := by
  induction taken with
  | nil => exact fun _ => rfl
  | cons y taken ih =>
    intro s
    obtain ⟨-, -, -, htbs, -, -⟩ := (AnyMoves.takeTimeout s y.1.val y.2).base
    rw [List.foldl_cons, ih, htbs]

/-- Settles O44. -/
theorem secondEventCounts : Obligations.SecondEventCounts := by
  intro s hreset
  have hsecond : ∀ sampling, exec (.secondEvent sampling) s = .next (s.second sampling) := fun sampling => by
    simp only [exec, execSecondEvent, hreset, Bool.false_eq_true, if_false]
  refine ⟨s.counted, State.countedTo_counted, fun hpass hno => ?_, fun taken x => ?_⟩
  · have hquiet : s.tickTimers.tickTime = s.counted := by
      refine (tickTime_of_noLapse (s := s) ?_ fun f hf htop => ?_).trans ?_
      · rfl
      · exact State.noLapse_counted (hno f hf htop)
      · rfl
    have hsettle : s.counted.settle = s.counted := State.settle_of_passTaken hpass
    refine ⟨fun moment taken hdue => ⟨s.counted.sample, ?_, State.sampledTo_sample⟩, fun c i timer v hi hv =>
      ⟨v.sample, ?_, State.sampledTo_sample⟩⟩
    · have hafter : s.counted.sampleAfter taken = s.counted.sample :=
        congrArg State.sample (foldl_takeTimeout_eq_self hdue)
      cases moment with
      | first =>
        have hsample : s.tickTimers.sampleAfter taken = s.tickTimers.sample :=
          congrArg State.sample (foldl_takeTimeout_eq_self hdue)
        have hfirst : s.tickTimers.sample.tickTime = s.counted.sample := by
          refine (tickTime_of_noLapse (s := s) ?_ fun f hf htop => ?_).trans ?_
          · rfl
          · exact State.noLapse_counted (hno f hf htop)
          · rfl
        rw [hsecond, State.second]
        dsimp only
        rw [hsample, hfirst]
        exact congrArg _ (State.settle_of_passTaken hpass)
      | afterLapse =>
        rw [hsecond, State.second]
        dsimp only
        rw [hquiet, hafter]
        exact congrArg _ (State.settle_of_passTaken hpass)
      | last =>
        rw [hsecond, State.second]
        dsimp only
        rw [hquiet, hsettle, hafter]
    · have hrow : expiryRow (c, timer) = i := by
        simp only [List.mem_cons, Prod.mk.injEq, List.not_mem_nil, or_false] at hi
        rcases hi with ⟨rfl, rfl⟩ | ⟨rfl, rfl⟩ | ⟨rfl, rfl⟩ | ⟨rfl, rfl⟩ | ⟨rfl, rfl⟩ | ⟨rfl, rfl⟩ | ⟨rfl, rfl⟩ <;> rfl
      rw [← hrow, exec_expiryRow] at hv
      cases hv
      rw [hsecond, State.second]
      dsimp only
      rw [hquiet, hsettle]
      rfl
  · have hjudged : s.tickTimers.tickTime = if s.counted.tbs.floorTime = s.tbs.floorTime then s.counted
        else (List.range 48).foldl State.judgeLapse s.counted := State.tickTime_eq
    refine ⟨fun hx => ⟨x.sample, State.sampledTo_sample, ?_⟩, fun hx => ⟨x.sample, State.sampledTo_sample, ?_⟩,
      fun hx => ⟨x.sample, State.sampledTo_sample, ?_⟩⟩
    · obtain rfl := (runsTo_expiries taken).mp hx
      have htbs : (s.tickTimers.sampleAfter taken).tbs = s.tbs := foldl_takeTimeout_tbs taken s.tickTimers
      exact (hsecond _).trans (congrArg (fun t : State => Host.Outcome.next t.settle) (tickTime_of_sameTbs htbs))
    · obtain rfl := (runsTo_expiries taken).mp hx
      refine (hsecond _).trans ?_
      rw [State.second]
      dsimp only
      rw [hjudged]
      rfl
    · obtain rfl := (runsTo_expiries taken).mp hx
      refine (hsecond _).trans ?_
      rw [State.second]
      dsimp only
      rw [hjudged]
      rfl

end Sys2Proof.Machine
end

section
/-! Runs leaving a cell: the segment of a run closed, the run off its stack, its lot sent where R51 sends it, and the cell's
record once its runs are gone (R51, R53, R76, R97). -/

namespace Sys2Proof.Machine

set_option Elab.async false

variable {s t : State} {c : Nat}

/-! ### Changes of lots, lists and frames beside a change of a cell -/

@[simp] theorem State.setLot_modCell (h : Nat) (l : Lot) (f : Cell → Cell) :
    (s.modCell c f).setLot h l = (s.setLot h l).modCell c f := rfl

@[simp] theorem State.modLot_modCell (h : Nat) (g : Lot → Lot) (f : Cell → Cell) :
    (s.modCell c f).modLot h g = (s.modLot h g).modCell c f := rfl

@[simp] theorem State.joins_modCell (h : Nat) (l : Lot) (f : Cell → Cell) :
    (s.modCell c f).joins h l = (s.joins h l).modCell c f := rfl

@[simp] theorem State.becomesHeld_modCell (h : Nat) (l : Lot) (f : Cell → Cell) :
    (s.modCell c f).becomesHeld h l = (s.becomesHeld h l).modCell c f := rfl

@[simp] theorem State.heldFor_modCell (h : Nat) (l : Lot) (reason : HoldReason) (by_ : PlacedBy) (trips : List Trip)
    (after : LotState) (f : Cell → Cell) :
    (s.modCell c f).heldFor h l reason by_ trips after = (s.heldFor h l reason by_ trips after).modCell c f := rfl

@[simp] theorem State.lot?_modCell (h : Nat) (f : Cell → Cell) : (s.modCell c f).lot? h = s.lot? h := rfl

@[simp] theorem State.heldFor_setLot (h : Nat) (l l' : Lot) (reason : HoldReason) (by_ : PlacedBy) (trips : List Trip)
    (after : LotState) : (s.setLot h l).heldFor h l' reason by_ trips after = s.heldFor h l' reason by_ trips after := by
  unfold State.heldFor
  simp only [State.setLot_setLot, State.named, State.inst_setLot]
  rfl

/-! ### A lot sent on -/

/-- A lot whose run has left its cell, WAITING in the dispatch queue or HELD (R51). -/
def State.sends (s : State) (h : Nat) (l : Lot) (new : Bool) : State :=
  if l.holds = [] then s.joins h { l with state := .waiting, arrival := if new then s.now else l.arrival } else
    s.becomesHeld h l

theorem State.sendLot_of_lot {h : Nat} {l : Lot} (hl : s.lot? h = some l) (new : Bool) :
    s.sendLot h false new = s.sends h l new := by
  unfold State.sendLot State.sends
  rw [State.hasHolds_of_lot hl]
  by_cases hholds : l.holds = []
  · rw [if_neg (by simp [hholds]), if_neg Bool.false_ne_true, if_pos hholds, State.joinQueue_of_lot hl]
  · rw [if_pos (by simp [hholds]), if_neg hholds, State.toHeld_of_lot hl]

theorem State.joins_setLot (h : Nat) (l l' : Lot) : (s.setLot h l).joins h l' = s.joins h l' := by
  unfold State.joins
  rw [State.setLot_setLot]
  simp only [State.queueWith, State.inst_setLot]
  rfl

theorem State.becomesHeld_setLot (h : Nat) (l l' : Lot) : (s.setLot h l).becomesHeld h l' = s.becomesHeld h l' := by
  unfold State.becomesHeld
  rw [State.setLot_setLot]
  rfl

@[simp] theorem State.sends_setLot (h : Nat) (l l' : Lot) (new : Bool) : (s.setLot h l).sends h l' new = s.sends h l'
    new := by
  unfold State.sends
  rw [State.joins_setLot, State.becomesHeld_setLot]
  rfl

@[simp] theorem State.sends_modCell (h : Nat) (l : Lot) (new : Bool) (f : Cell → Cell) :
    (s.modCell c f).sends h l new = (s.sends h l new).modCell c f := by
  unfold State.sends
  split <;> rfl

theorem State.sendLot_popTop {h : Nat} {l : Lot} (hl : s.lot? h = some l) (new : Bool) :
    (s.popTop c).sendLot h false new = (s.sends h l new).popTop c :=
  (State.sendLot_of_lot (s := s.popTop c) hl new).trans (State.sends_modCell _ _ _ _)

theorem State.sends_frame (h : Nat) (l : Lot) (new : Bool) : (s.sends h l new).pcl = s.pcl ∧ (s.sends h l new).fcn = s.fcn ∧
    (s.sends h l new).tst = s.tst ∧ (s.sends h l new).tbs = s.tbs ∧ (s.sends h l new).ctr = s.ctr := by
  unfold State.sends
  split <;> exact ⟨rfl, rfl, rfl, rfl, rfl⟩

theorem State.lot?_sends_ne {h k : Nat} (hk : k ≠ h) (l : Lot) (new : Bool) : (s.sends h l new).lot? k = s.lot? k := by
  unfold State.sends
  split <;> exact State.lot?_setLot_ne hk _

/-- Where R51 sends the lot of a run that has left its cell. -/
theorem State.sentBack_of_sends {r : Run} {l : Lot} (hh : r.handle < 512) (hldr : t.ldr = (s.sends r.handle l false).ldr)
    (hdar : t.dar = (s.sends r.handle l false).dar) (hrlu : t.rlu = (s.sends r.handle l false).rlu) : s.sentBack t r l := by
  have hslot : ∀ k, t.slot k = (s.sends r.handle l false).slot k := fun k => by simp only [State.slot, hldr]
  unfold State.sentBack
  simp only [State.sameOtherLots, hslot, hldr, hdar, hrlu]
  unfold State.sends
  by_cases hholds : l.holds = []
  · simp only [hholds, if_true, ne_eq, not_true_eq_false, false_implies, and_true, true_implies]
    exact ⟨State.sameOtherLots_setLot _ _, rfl, State.slot_setLot_self hh _, rfl, rfl⟩
  · simp only [hholds, if_false, ne_eq, not_false_eq_true, false_implies, true_and, true_implies]
    exact ⟨State.sameOtherLots_setLot _ _, rfl, State.slot_setLot_self hh _, rfl, rfl⟩

/-- A lot sent on with a new arrival time when it waits (R53). -/
theorem State.sends_new (h : Nat) (l : Lot) :
    s.sends h l true = s.sends h { l with arrival := if l.holds = [] then s.now else l.arrival } false := by
  unfold State.sends
  by_cases hholds : l.holds = [] <;> simp [hholds]

/-! ### A segment closed -/

theorem closeLast_eq (l : Lot) (cause : CloseCause) : closeLast l cause =
    l.segments.dropLast ++ l.segments.getLast?.toList.map fun g => { g with closed := some (l.acc.tested1, cause) } := by
  unfold closeLast
  rcases l.segments.eq_nil_or_concat with h | ⟨a, g, h⟩ <;> simp [h]

theorem Lot.closedBy_open {l : Lot} {r : Run} (h : r.segOpen = true) (cause : CloseCause) :
    l.closedBy r cause = { l with segments := closeLast l cause } := by
  rw [Lot.closedBy, if_pos h, closeLast_eq]

theorem Lot.closedBy_closed {l : Lot} {r : Run} (h : r.segOpen = false) (cause : CloseCause) : l.closedBy r cause = l := by
  rw [Lot.closedBy, h]
  rfl

@[simp] theorem Lot.closedBy_holds (l : Lot) (r : Run) (cause : CloseCause) : (l.closedBy r cause).holds = l.holds := by
  unfold Lot.closedBy
  split <;> rfl

@[simp] theorem Lot.closedBy_setupFails (l : Lot) (r : Run) (cause : CloseCause) :
    (l.closedBy r cause).setupFails = l.setupFails := by
  unfold Lot.closedBy
  split <;> rfl

@[simp] theorem Lot.closedBy_arrival (l : Lot) (r : Run) (cause : CloseCause) : (l.closedBy r cause).arrival = l.arrival
    := by
  unfold Lot.closedBy
  split <;> rfl

/-- The segment-open mark of a run cleared on its cell, when it has one (R97). -/
def Run.unmark (r : Run) (x : Cell) : Cell := if r.segOpen then clearSegMark r.handle x else x

/-- A segment that is not the fourth closes (R97). -/
theorem State.closeIfOpen_of_lot {r : Run} {l : Lot} (hl : s.lot? r.handle = some l)
    (hfew : r.segOpen = true → l.segments.length ≠ 4) (cause : CloseCause) :
    s.closeIfOpen c r cause = (s.setLot r.handle (l.closedBy r cause)).modCell c r.unmark := by
  unfold State.closeIfOpen
  cases hopen : r.segOpen with
  | false =>
    have hmark : r.unmark = fun x => x := funext fun x => by simp [Run.unmark, hopen]
    rw [Lot.closedBy_closed hopen, State.setLot_self hl, hmark, State.modCell_self rfl]
    rfl
  | true =>
    have hmark : r.unmark = clearSegMark r.handle := funext fun x => by simp [Run.unmark, hopen]
    rw [Lot.closedBy_open hopen, hmark]
    simp [State.closeSegment, hl, hfew hopen, State.modLot_of_lot hl]

/-- A fourth segment closed without step end places an EQUIPMENT entry with its notice (R97). -/
theorem State.closeIfOpen_fourth {r : Run} {l : Lot} (hl : s.lot? r.handle = some l) (hopen : r.segOpen = true)
    (hfour : l.segments.length = 4) (hnew : ∀ e ∈ l.holds, e.reason ≠ .equipment) {cause : CloseCause} (hcause : cause ≠
      .stepEnd)
    (hgo : s.noticesGo) (hroom : s.plantRoom 1) :
    s.closeIfOpen c r cause =
      (s.heldFor r.handle (l.closedBy r cause) .equipment (.cell c) [] .held).modCell c r.unmark := by
  have hmark : r.unmark = clearSegMark r.handle := funext fun x => by simp [Run.unmark, hopen]
  have hquiet := State.placeQuiet_new (s := (s.setLot r.handle (l.closedBy r cause)).modCell c (clearSegMark r.handle))
    (State.lot?_setLot hl _) (reason := .equipment) (.cell c) [] (by simpa using hnew) hgo hroom
  unfold State.closeIfOpen
  rw [if_pos hopen, hmark]
  rw [State.heldFor_modCell, State.heldFor_setLot] at hquiet
  rw [← hquiet, Lot.closedBy_open hopen]
  simp [State.closeSegment, hl, hfour, State.modLot_of_lot hl, hcause]

/-! ### The record of a cell without its runs -/

/-- A cell's record without its runs, its stream context and the current-setup mark. -/
def Cell.bare (x : Cell) : Cell := { x with stack := [], incoming := none, ctx := none, orderCurrent := false }

@[simp] theorem clearSegMark_bare (k : Nat) (x : Cell) : (clearSegMark k x).bare = x.bare := rfl

theorem State.modTop_bare (hc : c < 48) (f : Run → Run) : ((s.modTop c f).cell c).bare = (s.cell c).bare := by
  rw [State.modTop, State.cell_modCell hc]
  rfl

theorem State.clearCtx_bare (hc : c < 48) : ((s.clearCtx c).cell c).bare = (s.cell c).bare := by
  rw [State.clearCtx, State.cell_modCell hc]
  rfl

theorem State.popTop_bare (hc : c < 48) : ((s.popTop c).cell c).bare = (s.cell c).bare := by
  rw [State.popTop_cell hc]
  rfl

theorem State.closeIfOpen_bare (hc : c < 48) (r : Run) (x : CloseCause) :
    ((s.closeIfOpen c r x).cell c).bare = (s.cell c).bare := by
  unfold State.closeIfOpen
  split
  · rw [State.closeSegment_cell hc, clearSegMark_bare]
  · rfl

theorem State.toRetest_bare (hc : c < 48) (k : Nat) : ((s.toRetest c k).cell c).bare = (s.cell c).bare :=
  (State.clearCtx_bare hc).trans (State.modTop_bare hc _)

theorem State.stepEnd_bare (hc : c < 48) (k : Nat) : ((s.stepEnd c k).cell c).bare = (s.cell c).bare := by
  have hclose : ∀ v : State, ((if (v.top? c).any Run.segOpen then v.closeSegment c k .stepEnd else v).cell c).bare =
      (v.cell c).bare := by
    intro v
    split
    · rw [State.closeSegment_cell hc, clearSegMark_bare]
    · rfl
  unfold State.stepEnd
  split
  · rfl
  · dsimp only
    split
    · rw [hclose, State.stepEndHolds_cell]
    · rw [State.ite_heldNotice_cell, State.ite_heldNotice_cell, State.notice_cell, State.modLot_cell, hclose,
        State.stepEndHolds_cell]

theorem State.settleStopped_bare (hc : c < 48) : ((s.settleStopped c).1.cell c).bare = (s.cell c).bare := by
  unfold State.settleStopped
  split
  · rfl
  · split
    · rfl
    · dsimp only
      split
      · exact State.modTop_bare hc _
      · split
        · exact (State.toRetest_bare hc _).trans (State.modTop_bare hc _)
        · exact (State.stepEnd_bare hc _).trans (State.modTop_bare hc _)

theorem State.detachTop_bare (hc : c < 48) : ((s.detachTop c).cell c).bare = (s.cell c).bare := by
  unfold State.detachTop
  split
  · rfl
  · rw [State.sendLot_cell]
    exact (State.popTop_bare hc).trans ((State.settleStopped_bare hc).trans (State.closeIfOpen_bare hc _ _))

theorem State.detachLower_bare (hc : c < 48) : ((s.detachLower c).cell c).bare = (s.cell c).bare := by
  unfold State.detachLower
  split
  · rfl
  · rw [State.sendLot_cell]
    exact (State.popTop_bare hc).trans (State.closeIfOpen_bare hc _ _)

theorem State.abandonTop_bare (hc : c < 48) : ((s.abandonTop c).cell c).bare = (s.cell c).bare := by
  unfold State.abandonTop
  split
  · rfl
  · rw [State.sendLot_cell]
    exact (State.popTop_bare hc).trans (State.closeIfOpen_bare hc _ _)

theorem State.detachIncoming_bare (hc : c < 48) : ((s.detachIncoming c).cell c).bare = (s.cell c).bare := by
  unfold State.detachIncoming
  split
  · rfl
  · rw [State.sendLot_cell, State.dropIncoming_cell hc]
    rfl

/-- The record of a cell from its bare record, once no run is left. -/
theorem Cell.eq_of_bare {x y : Cell} (hbare : y.bare = x.bare) (hbears : y.Bears 0) :
    y = { x with stack := [], incoming := none, ctx := y.ctx, orderCurrent := y.orderCurrent } := by
  obtain ⟨hstack, hincoming⟩ := hbears
  have hstack : y.stack = [] := List.eq_nil_of_length_eq_zero (Nat.le_zero.mp hstack)
  rcases x with ⟨⟩
  rcases y with ⟨⟩
  simp_all [Cell.bare]

/-- A cell whose runs are detached (R51). -/
theorem State.detach_cell (hc : c < 48) (h : (s.cell c).stack.length ≤ 2) : ∃ current, (s.detach c).cell c =
    { s.cell c with
      stack := []
      incoming := none
      ctx := none
      orderCurrent := current
      items := Items.none
      timers := { Timers.idle with silence := (s.cell c).timers.silence } } := by
  have hbears := State.detach_bears hc h
  unfold State.detach at hbears ⊢
  dsimp only at hbears ⊢
  rw [State.cell_modCell hc] at hbears ⊢
  have hbare : ((((s.detachTop c).detachLower c).detachIncoming c).cell c).bare = (s.cell c).bare :=
    (State.detachIncoming_bare hc).trans ((State.detachLower_bare hc).trans (State.detachTop_bare hc))
  refine ⟨((((s.detachTop c).detachLower c).detachIncoming c).cell c).orderCurrent, ?_⟩
  rw [Cell.eq_of_bare hbare hbears]

/-! ### A sole run leaving its cell -/

theorem State.top?_of_stack {r : Run} {below : List Run} (h : (s.cell c).stack = r :: below) : s.top? c = some r := by
  rw [State.top?, h]
  rfl

theorem State.top?_closeIfOpen (hc : c < 48) {r : Run} {below : List Run} (h : (s.cell c).stack = r :: below)
    (cause : CloseCause) :
    (s.closeIfOpen c r cause).top? c = some (if r.segOpen then { r with segOpen := false } else r) := by
  unfold State.closeIfOpen
  split
  · rw [State.top?, State.closeSegment_cell hc]
    simp [clearSegMark, h]
  · exact State.top?_of_stack h

theorem State.settleStopped_unmarked {r : Run} (htop : s.top? c = some r) (h : r.stopped = none) :
    s.settleStopped c = (s, false) := by
  unfold State.settleStopped
  rw [htop]
  dsimp only
  rw [h]

theorem Run.unmark_tail {r : Run} {x : Cell} {below : List Run} (h : x.stack = r :: below)
    (hbelow : ∀ y ∈ below, y.handle ≠ r.handle) : (r.unmark x).stack.tail = below ∧
      { r.unmark x with stack := x.stack, ctx := x.ctx } = x := by
  unfold Run.unmark
  split
  · refine ⟨?_, rfl⟩
    simp only [clearSegMark, h, List.map_cons, List.tail_cons]
    exact (List.map_congr_left fun y hy => by simp [hbelow y hy]).trans (List.map_id _)
  · exact ⟨by simp [h], rfl⟩

/-- A top run leaves the stack with its mark, which the other runs do not share. -/
theorem State.modCell_unmark_popTop {r : Run} {below : List Run} (h : (s.cell c).stack = r :: below)
    (hbelow : ∀ y ∈ below, y.handle ≠ r.handle) : (s.modCell c r.unmark).popTop c = s.popTop c := by
  rw [State.popTop, State.popTop, State.modCell_modCell]
  refine State.modCell_congr ?_
  obtain ⟨hstack, hrest⟩ := Run.unmark_tail h hbelow
  rw [hstack, h]
  have hrest := congrArg (fun x : Cell => { x with stack := below, ctx := none, orderCurrent := false }) hrest
  exact hrest

/-- A top run's segment closed and the run off its stack (R97). -/
theorem State.closeIfOpen_popTop {r : Run} {below : List Run} {l : Lot} (hstack : (s.cell c).stack = r :: below)
    (hbelow : ∀ y ∈ below, y.handle ≠ r.handle) (hl : s.lot? r.handle = some l)
    (hfew : r.segOpen = true → l.segments.length ≠ 4) (cause : CloseCause) :
    (s.closeIfOpen c r cause).popTop c = (s.setLot r.handle (l.closedBy r cause)).popTop c := by
  rw [State.closeIfOpen_of_lot hl hfew]
  exact State.modCell_unmark_popTop (s := s.setLot r.handle _) hstack hbelow

/-- The only run of a cell detached (R51). -/
theorem State.detach_of_closed (hc : c < 48) {r : Run} {l' : Lot} (hstack : (s.cell c).stack = [r])
    (hincoming : (s.cell c).incoming = none) (hstopped : r.stopped = none)
    (hclosed : s.closeIfOpen c r .detached = t.modCell c r.unmark) (hl : t.lot? r.handle = some l') (hcell : t.cell c =
      s.cell c) :
    s.detach c = ((t.sends r.handle l' false).popTop c).modCell c fun x =>
      { x with ctx := none, items := Items.none, timers := { Timers.idle with silence := x.timers.silence } } := by
  have htop : s.detachTop c = (t.sends r.handle l' false).popTop c := by
    unfold State.detachTop
    rw [State.top?_of_stack hstack]
    dsimp only
    rw [State.settleStopped_unmarked (State.top?_closeIfOpen hc hstack _) (by split <;> exact hstopped), hclosed]
    dsimp only
    rw [State.modCell_unmark_popTop (by rw [hcell, hstack]) (by simp), State.sendLot_popTop hl]
  have hcell' : (t.sends r.handle l' false).cell c = s.cell c := by
    rw [State.cell_of_ctr (State.sends_frame _ _ _).2.2.2.2, hcell]
  have hgone : ((t.sends r.handle l' false).popTop c).cell c =
      { s.cell c with stack := [], ctx := none, orderCurrent := false } := by
    rw [State.popTop_cell hc, hcell', hstack]
    rfl
  unfold State.detach
  rw [htop]
  have hlower : ((t.sends r.handle l' false).popTop c).detachLower c = (t.sends r.handle l' false).popTop c := by
    have htop : ((t.sends r.handle l' false).popTop c).top? c = none := by
      rw [State.top?, hgone]
      rfl
    rw [State.detachLower, htop]
  have hnone : ((t.sends r.handle l' false).popTop c).detachIncoming c = (t.sends r.handle l' false).popTop c := by
    have hinc : (((t.sends r.handle l' false).popTop c).cell c).incoming = none := by rw [hgone]; exact hincoming
    rw [State.detachIncoming, hinc]
  rw [hlower, hnone]

theorem State.detach_sole (hc : c < 48) {r : Run} {l : Lot} (h : s.soleRun c r l) :
    s.detach c = ((s.sends r.handle (l.closedBy r .detached) false).popTop c).modCell c fun x =>
      { x with ctx := none, items := Items.none, timers := { Timers.idle with silence := x.timers.silence } } := by
  obtain ⟨hstack, hincoming, hstopped, hl, hfew⟩ := h
  rw [State.detach_of_closed hc hstack hincoming hstopped
    (State.closeIfOpen_of_lot hl (fun ho => (hfew ho).ne) _) (State.lot?_setLot hl _) rfl, State.sends_setLot]

end Sys2Proof.Machine
end

section
/-! The timers of a cell and the lapse of its calibration: a stop requested, a setup abandoned, the cell silent or in FAULT
with its runs gone (R45 to R49, R51, R53, R76, R77). -/

namespace Sys2Proof.Machine

set_option Elab.async false

variable {s t : State} {c : Nat}

/-! ### What a cell's state leaves empty -/

namespace Cell.fieldsFit

variable {x : Cell}

theorem cause_eq_none (h : x.fieldsFit) (hs : x.state ≠ .fault) : x.cause = none := by
  obtain ⟨hcause, -⟩ := h
  exact Option.not_isSome_iff_eq_none.mp fun h => hs (hcause.mp h)

theorem stopReason_eq_none (h : x.fieldsFit) (hs : x.state ≠ .stopping) : x.stopReason = none := by
  obtain ⟨-, hstop, -⟩ := h
  exact Option.not_isSome_iff_eq_none.mp fun h => hs (hstop.mp h)

theorem items_eq_none (h : x.fieldsFit) (hs : x.state ≠ .setup) : x.items = Items.none := by
  obtain ⟨-, -, hitems, -⟩ := h
  exact Decidable.byContradiction fun h => hs (hitems h)

/-- Each timer but silence runs in its own state only (R58). -/
theorem timers_eq_none (h : x.fieldsFit) :
    (x.state ≠ .setup → x.timers.load = none ∧ x.timers.kit = none ∧ x.timers.soak = none) ∧
    (x.state ≠ .starting → x.timers.start = none) ∧ (x.state ≠ .stopping → x.timers.stop = none) ∧
    (x.state ≠ .paused → x.timers.jam = none) := by
  obtain ⟨-, -, -, hload, hkit, hsoak, hstart, hstop, hjam, -⟩ := h
  have hno : ∀ {t : Option Nat} {st : CellState}, (t.isSome → x.state = st) → x.state ≠ st → t = none := fun h hs =>
    Option.not_isSome_iff_eq_none.mp fun ht => hs (h ht)
  exact ⟨fun hs => ⟨hno hload hs, hno hkit hs, hno hsoak hs⟩, hno hstart, hno hstop, hno hjam⟩

end Cell.fieldsFit

namespace Cell.Fits

variable {x : Cell}

theorem cause_eq_none (h : x.Fits) (hs : x.state ≠ .fault) : x.cause = none := h.2.cause_eq_none hs

theorem stopReason_eq_none (h : x.Fits) (hs : x.state ≠ .stopping) : x.stopReason = none := h.2.stopReason_eq_none hs

theorem items_eq_none (h : x.Fits) (hs : x.state ≠ .setup) : x.items = Items.none := h.2.items_eq_none hs

theorem timers_eq_none (h : x.Fits) :
    (x.state ≠ .setup → x.timers.load = none ∧ x.timers.kit = none ∧ x.timers.soak = none) ∧
    (x.state ≠ .starting → x.timers.start = none) ∧ (x.state ≠ .stopping → x.timers.stop = none) ∧
    (x.state ≠ .paused → x.timers.jam = none) := h.2.timers_eq_none

end Cell.Fits

/-- STARTING, RUNNING and PAUSED, in which a stop is requested (R48). -/
def CellState.stops (st : CellState) : Prop := st = .starting ∨ st = .running ∨ st = .paused

/-- The record of a cell whose stop is requested (R48). -/
def Cell.stopping (x : Cell) (reason : StopReason) (n : Nat) : Cell :=
  { x with
    state := .stopping
    stopReason := some reason
    timers := { x.timers with start := none, jam := none, stop := some n } }

theorem Cell.fieldsFit.enter_stopping {x : Cell} (h : x.fieldsFit) (hs : x.state.stops) (reason : StopReason) (n : Nat) :
    ({ x.enter .stopping with
      stopReason := some reason, timers := { (x.enter .stopping).timers with stop := some n } } : Cell) =
    x.stopping reason n := by
  have hne : x.state ≠ .fault ∧ x.state ≠ .setup := by rcases hs with e | e | e <;> simp [e]
  obtain ⟨hload, hkit, hsoak⟩ := h.timers_eq_none.1 hne.2
  simp [Cell.enter, Cell.stopping, h.cause_eq_none hne.1, h.items_eq_none hne.2, hload, hkit, hsoak]

/-- A stop of a top run requested (R48). -/
theorem State.requestStop_of_room {reg : Registration} {r : Run} {below : List Run} (hfits : (s.cell c).fieldsFit)
    (hs : (s.cell c).state.stops) (hreg : s.reg? c = some reg) (hstack : (s.cell c).stack = r :: below) (hroom :
      s.floorRoom 1)
    (reason : StopReason) : s.requestStop c reason = s.stopRequested reg c r reason := by
  have hrequest : s.requestStop c reason = (s.modCell c fun x => { x.enter .stopping with
      stopReason := some reason,
      timers := { (x.enter .stopping).timers with stop := some s.tst.settings.stop } }).order c (some r) (.stopRun
        reason) := by
    unfold State.requestStop
    rw [State.top?_of_stack hstack]
    rcases hs with e | e | e <;> rw [e]
  rw [hrequest]
  refine (congrArg (fun u : State => u.order c (some r) (.stopRun reason))
    (State.modCell_congr (g := fun x => x.stopping reason s.tst.settings.stop) ?_)).trans ?_
  · exact hfits.enter_stopping hs reason s.tst.settings.stop
  · exact State.order_of_room (s := s.modCell c fun x => x.stopping reason s.tst.settings.stop) hreg hroom _ _

/-! ### A setup abandoned for a lapse -/

theorem State.abandonTop_of_lot {r : Run} {below : List Run} {l : Lot} (hstack : (s.cell c).stack = r :: below)
    (hbelow : ∀ y ∈ below, y.handle ≠ r.handle) (hl : s.lot? r.handle = some l)
    (hfew : r.segOpen = true → l.segments.length < 4) :
    s.abandonTop c = (s.sends r.handle (l.closedBy r .calibration) true).popTop c := by
  unfold State.abandonTop
  rw [State.top?_of_stack hstack]
  dsimp only
  rw [State.closeIfOpen_popTop hstack hbelow hl fun ho => (hfew ho).ne, State.sendLot_popTop (State.lot?_setLot hl _),
    State.sends_setLot]

theorem State.abandonTop_of_empty (h : (s.cell c).stack = []) : s.abandonTop c = s := by
  unfold State.abandonTop
  rw [State.top?, h]
  rfl

theorem State.cell_sends_popTop (hc : c < 48) (h : Nat) (l : Lot) (new : Bool) : ((s.sends h l new).popTop c).cell c =
    { s.cell c with stack := (s.cell c).stack.tail, ctx := none, orderCurrent := false } := by
  rw [State.popTop_cell hc, State.cell_of_ctr (State.sends_frame _ _ _).2.2.2.2]

/-- The record of a cell whose setup is abandoned for a lapse: its outstanding load order stands (R53, R71). -/
def Cell.abandoned (x : Cell) : Cell :=
  { x with
    state := .idle
    items := Items.none
    timers := { Timers.idle with silence := x.timers.silence }
    stack := []
    ctx := none
    orderCurrent := false }

theorem Cell.Fits.enter_idle {x : Cell} (h : x.Fits) (hs : x.state = .setup) :
    ({ x with stack := [], ctx := none, orderCurrent := false } : Cell).enter .idle = x.abandoned := by
  have hcause := h.cause_eq_none (by simp [hs])
  have hstop := h.stopReason_eq_none (by simp [hs])
  simp [Cell.enter, Cell.abandoned, hcause, hstop, Timers.idle]

/-- A run removed, or none to remove, leaves neither stream context nor current-setup mark (R71, R84). -/
theorem State.abandonTop_marks (hc : c < 48)
    (h : (s.cell c).stack ≠ [] ∨ ((s.cell c).ctx = none ∧ (s.cell c).orderCurrent = false)) :
    ((s.abandonTop c).cell c).ctx = none ∧ ((s.abandonTop c).cell c).orderCurrent = false := by
  rcases hstack : (s.cell c).stack with _ | ⟨r, below⟩
  · rw [State.abandonTop_of_empty hstack]
    exact h.resolve_left (fun hne => hne hstack)
  · unfold State.abandonTop
    rw [State.top?_of_stack hstack]
    dsimp only
    rw [State.sendLot_cell, State.popTop_cell hc]
    exact ⟨rfl, rfl⟩

theorem State.abandonSetup_cell (hc : c < 48) (hfits : (s.cell c).Fits) (hs : (s.cell c).state = .setup) :
    (s.abandonSetup c).cell c = (s.cell c).abandoned := by
  have hbears : (((s.abandonTop c).abandonTop c).cell c).Bears 0 :=
    State.abandonTop_bears hc (State.abandonTop_bears hc (hfits.bears (by simp [hs])))
  have hbare : (((s.abandonTop c).abandonTop c).cell c).bare = (s.cell c).bare :=
    (State.abandonTop_bare hc).trans (State.abandonTop_bare hc)
  have hpos := hfits.length_pos (by simp [hs])
  obtain ⟨hctx, hcurrent⟩ := State.abandonTop_marks hc (s := s.abandonTop c) (.inr (State.abandonTop_marks hc
    (.inl (List.ne_nil_of_length_pos hpos))))
  have hincoming : (s.cell c).incoming = none := (hfits.bears (by simp [hs])).2
  rw [State.abandonSetup, State.toIdle_cell hc, Cell.eq_of_bare hbare hbears, hctx, hcurrent, ← hfits.enter_idle hs, ←
    hincoming]

/-! ### A setup that fails, a cell that is silent or in FAULT -/

theorem Cell.faulted_of_bare {x y : Cell} (hbare : y.bare = x.bare) (hbears : y.Bears 0) (cause : FaultCause) :
    ({ y.enter .fault with
      cause := some cause, timers := { Timers.idle with silence := y.timers.silence }, ctx := none, order := none,
      orderCurrent := false } : Cell) = x.faulted cause := by
  rw [Cell.eq_of_bare hbare hbears]
  rfl

theorem State.fallSilent_cell (hc : c < 48) (h : (s.cell c).stack.length ≤ 2) : (s.fallSilent c).cell c =
    (s.cell c).silenced := by
  obtain ⟨current, hcell⟩ := State.detach_cell hc h
  rw [State.fallSilent, State.toOffline_cell hc, hcell]
  rfl

theorem State.stopExpired_cell (hc : c < 48) (h : (s.cell c).stack.length ≤ 2) : (s.stopExpired c).cell c =
    (s.cell c).faulted .stopTimeout := by
  obtain ⟨current, hcell⟩ := State.detach_cell hc h
  rw [State.stopExpired, State.toFault_cell hc, hcell]
  rfl

theorem State.setupFailure_cell (hc : c < 48) (hfits : (s.cell c).Fits) (hs : (s.cell c).state = .setup ∨
    (s.cell c).state = .starting) (cause : FaultCause) : (s.setupFailure c cause).cell c = (s.cell c).faulted cause := by
  obtain ⟨r, below, hstack⟩ := List.exists_cons_of_length_pos (hfits.length_pos (by rcases hs with e | e <;> simp [e]))
  unfold State.setupFailure
  rw [State.top?_of_stack hstack]
  dsimp only
  rw [State.toFault_cell hc]
  refine Cell.faulted_of_bare ?_ ?_ cause
  · rw [State.detachLower_bare hc, State.sendLot_cell, State.countFailure_cell, State.popTop_bare hc,
      State.closeIfOpen_bare hc]
  · refine State.detachLower_bears hc ?_
    rw [State.sendLot_cell, State.countFailure_cell]
    exact State.popTop_bears hc ((hfits.bears (by rcases hs with e | e <;> simp [e])).congr (State.closeIfOpen_core hc _ _))

end Sys2Proof.Machine
end

section
/-! The timers of a cell settled: the lot of a sole run sent back, the notices of a failed setup and of a stop that is not
answered, and the judgement of a lapse (R45 to R49, R51, R53, R76, R77). -/

namespace Sys2Proof.Machine

set_option Elab.async false

variable {s t u : State} {c : Nat}

/-- The state in which a timer runs, from the timer (R58). -/
theorem Cell.Fits.timerRunsIn {x : Cell} (h : x.Fits) {timer : CellTimer} {n : Nat} (hn : timerOf timer x.timers = some n) :
    timerRunsIn timer x.state = true := by
  obtain ⟨hsetup, hstart, hstop, hjam⟩ := h.timers_eq_none
  obtain ⟨-, -, -, -, -, -, -, -, -, -, hsilence⟩ := h
  have hne : ∀ {t : Option Nat} {p : Prop}, t = some n → (p → t = none) → ¬p := fun ht hp h => by
    rw [hp h] at ht
    cases ht
  cases timer with
  | silence => simpa [Machine.timerRunsIn] using hne hn hsilence
  | load => simpa [Machine.timerRunsIn] using hne hn fun h => (hsetup h).1
  | kit => simpa [Machine.timerRunsIn] using hne hn fun h => (hsetup h).2.1
  | soak => simpa [Machine.timerRunsIn] using hne hn fun h => (hsetup h).2.2
  | start => simpa [Machine.timerRunsIn] using hne hn hstart
  | stop => simpa [Machine.timerRunsIn] using hne hn hstop
  | jam => simpa [Machine.timerRunsIn] using hne hn hjam

/-- An expiry that is due takes its effect (R58). -/
theorem State.takeTimeout_due (hfit : (s.cell c).Fits) (timer : CellTimer)
    (hdue : timerOf timer (s.cell c).timers = some 0) : s.takeTimeout c timer = (s.expired c timer).settle := by
  rw [State.takeTimeout, hdue, hfit.timerRunsIn hdue]
  rfl

/-! ### Notices after the changes of a step -/

theorem State.notifies_port (hp : t.pcl = s.pcl) (ht : t.tst = s.tst) (hb : t.tbs = s.tbs) (b : NoticeBody) :
    (t.notifies b).pcl = (s.notifies b).pcl := by
  simp only [State.notifies, State.sendsPlant, State.noticeFrame, hp, ht, hb]

/-- A cell in FAULT for a cause that draws no order: CELL_FAULT is sent, and nothing else leaves the part (R45). -/
theorem State.toFault_sent (hp : t.pcl = s.pcl) (ht : t.tst = s.tst) (hb : t.tbs = s.tbs) (hgo : s.noticesGo)
    (hroom : s.plantRoom 1) {cause : FaultCause} (hcause : cause ≠ .unownedRun) (lot : Option (Nat × Nat)) :
    (t.toFault c cause lot).pcl = (s.notifies (.cellFault c cause lot)).pcl ∧ (t.toFault c cause lot).fcn = t.fcn ∧
      (t.toFault c cause lot).ldr = t.ldr ∧ (t.toFault c cause lot).dar = t.dar ∧ (t.toFault c cause lot).rlu = t.rlu := by
  unfold State.toFault
  dsimp only
  rw [if_neg hcause, State.notice_of_go]
  · exact ⟨State.notifies_port hp ht hb _, rfl, rfl, rfl, rfl⟩
  · simpa [State.noticesGo, hp, ht] using hgo
  · simpa [State.plantRoom, hp] using hroom

/-- The lists and lots after a hold and the lot's way back are those of the lot as it then is. -/
theorem State.sends_heldFor (h : Nat) (l l' : Lot) (reason : HoldReason) (by_ : PlacedBy) (trips : List Trip)
    (after : LotState) (new : Bool) : let v := (s.heldFor h l reason by_ trips after).sends h l' new
    v.ldr = (s.sends h l' new).ldr ∧ v.dar = (s.sends h l' new).dar ∧ v.rlu = (s.sends h l' new).rlu := by
  intro v
  rw [← State.sends_setLot h (l.heldBy ⟨reason, s.now, by_, trips, 1, none⟩) l' new]
  unfold v State.sends
  split <;> exact ⟨rfl, rfl, rfl⟩

theorem State.plantRoom_heldFor {n h : Nat} {l : Lot} {reason : HoldReason} {by_ : PlacedBy} {trips : List Trip}
    {after : LotState} (hroom : s.plantRoom (n + 1)) : (s.heldFor h l reason by_ trips after).plantRoom n :=
  State.plantRoom_succ (s := { s with pcl := { s.pcl with noticeSeq := (s.pcl.noticeSeq + 1) % 65536 } }) hroom _

theorem State.lot?_heldFor_of_lt {h : Nat} (hh : h < 512) (l : Lot) (reason : HoldReason) (by_ : PlacedBy)
    (trips : List Trip) (after : LotState) : (s.heldFor h l reason by_ trips after).lot? h =
      some (l.heldBy ⟨reason, s.now, by_, trips, 1, none⟩) := State.lot?_setLot_of_lt hh _

/-! ### A failed setup -/

/-- The lot of a failed setup, counted (R77). -/
def Lot.failed (l : Lot) : Lot := { l with setupFails := min 3 (l.setupFails + 1) }

/-- A first and a second failure are counted (R77). -/
theorem State.countFailure_few {h : Nat} {l : Lot} (hl : s.lot? h = some l) (hfew : l.setupFails < 2) :
    s.countFailure c h = s.setLot h l.failed := by
  have hne : l.failed.setupFails ≠ 3 := by
    show min 3 (l.setupFails + 1) ≠ 3
    omega
  unfold State.countFailure
  rw [State.modLot_of_lot hl]
  dsimp only
  rw [State.lot?_setLot hl]
  exact if_neg hne

/-- A third failure places an EQUIPMENT entry (R77). -/
theorem State.countFailure_third {h : Nat} {l : Lot} (hl : s.lot? h = some l) (hthird : 2 ≤ l.setupFails)
    (hnew : ∀ e ∈ l.holds, e.reason ≠ .equipment) (hgo : s.noticesGo) (hroom : s.plantRoom 1) :
    s.countFailure c h = s.heldFor h l.failed .equipment (.cell c) [] .held := by
  have hthree : l.failed.setupFails = 3 := by
    show min 3 (l.setupFails + 1) = 3
    omega
  unfold State.countFailure
  rw [State.modLot_of_lot hl]
  dsimp only
  rw [State.lot?_setLot hl]
  refine (if_pos hthree).trans ?_
  exact (State.placeQuiet_new (s := s.setLot h l.failed) (State.lot?_setLot hl _) _ _ hnew hgo hroom).trans
    (State.heldFor_setLot _ _ _ _ _ _ _)

/-- The setup of a sole run fails (R76). -/
theorem State.setupFailure_sole (hc : c < 48) {r : Run} {l l' : Lot} (hsole : s.soleRun c r l)
    (hcount : ((s.setLot r.handle (l.closedBy r .fault)).popTop c).countFailure c r.handle = t.popTop c)
    (hl' : t.lot? r.handle = some l') (hcell : t.cell c = s.cell c) (cause : FaultCause) :
    s.setupFailure c cause = ((t.sends r.handle l' false).popTop c).toFault c cause (some (r.handle, r.inst)) := by
  obtain ⟨hstack, -, -, hl, hfew⟩ := hsole
  have hlower : ((t.sends r.handle l' false).popTop c).detachLower c = (t.sends r.handle l' false).popTop c := by
    have htop : ((t.sends r.handle l' false).popTop c).top? c = none := by
      rw [State.top?, State.cell_sends_popTop hc, hcell, hstack]
      rfl
    rw [State.detachLower, htop]
  unfold State.setupFailure
  rw [State.top?_of_stack hstack]
  dsimp only
  rw [State.closeIfOpen_popTop hstack (by simp) hl fun ho => (hfew ho).ne, hcount, State.sendLot_popTop hl', hlower]

/-- What the FAULT of a sole run leaves: its lot sent back and CELL_FAULT sent (R45, R51). -/
theorem State.faulted_sole {r : Run} {l' : Lot} {f : Cell → Cell} {cause : FaultCause} {lot : Option (Nat × Nat)}
    (hh : r.handle < 512) (hgo : t.noticesGo) (hroom : t.plantRoom 1) (hcause : cause ≠ .unownedRun)
    (hu : u = ((t.sends r.handle l' false).modCell c f).toFault c cause lot)
    (hlists : (t.sends r.handle l' false).ldr = (s.sends r.handle l' false).ldr ∧
      (t.sends r.handle l' false).dar = (s.sends r.handle l' false).dar ∧
      (t.sends r.handle l' false).rlu = (s.sends r.handle l' false).rlu) :
    s.sentBack u r l' ∧ u.fcn = t.fcn ∧ u.pcl = (t.notifies (.cellFault c cause lot)).pcl := by
  obtain ⟨hpcl, hfcn, htst, htbs, -⟩ := State.sends_frame (s := t) r.handle l' false
  obtain ⟨hp, hf, hldr, hdar, hrlu⟩ := State.toFault_sent (t := (t.sends r.handle l' false).modCell c f) (c := c)
    hpcl htst htbs hgo hroom hcause lot
  subst hu
  exact ⟨State.sentBack_of_sends hh (hldr.trans hlists.1) (hdar.trans hlists.2.1) (hrlu.trans hlists.2.2), hf.trans hfcn, hp⟩

/-! ### A lapse in SETUP -/

theorem State.sentBack_startPass {r : Run} {l : Lot} (h : s.sentBack t r l) : s.sentBack t.startPass r l := by
  obtain ⟨hlots, hship, hwaits, hheld⟩ := h
  refine ⟨hlots, hship, fun hholds => ?_, hheld⟩
  obtain ⟨hslot, hdar, hpend⟩ := hwaits hholds
  refine ⟨hslot, ?_, hpend⟩
  show ({ t.dar with passDue := true } : Dar) = _
  rw [hdar]

/-- The lot of a run that a lapse removes waits with a new arrival time, or is HELD (R53). -/
theorem State.sentBack_new_popTop {r : Run} (hh : r.handle < 512) (l : Lot) (cause : CloseCause) :
    s.sentBack ((s.sends r.handle (l.closedBy r cause) true).popTop c) r
      { l.closedBy r cause with arrival := if l.holds = [] then s.now else l.arrival } := by
  have hleft : ({ l.closedBy r cause with arrival := if l.holds = [] then s.now else l.arrival } : Lot) =
      { l.closedBy r cause with
        arrival := if (l.closedBy r cause).holds = [] then s.now else (l.closedBy r cause).arrival } := by
    simp only [Lot.closedBy_holds, Lot.closedBy_arrival]
  rw [hleft, State.sends_new]
  exact State.sentBack_of_sends hh rfl rfl rfl

theorem State.sentBack_new {r : Run} (hh : r.handle < 512) (l : Lot) (cause : CloseCause) :
    s.sentBack (((s.sends r.handle (l.closedBy r cause) true).popTop c).toIdle c) r
      { l.closedBy r cause with arrival := if l.holds = [] then s.now else l.arrival } :=
  State.sentBack_startPass (State.sentBack_new_popTop (c := c) hh l cause)

/-! ### The statements -/

/-- Settles O46. -/
theorem silenceSetsCellOffline : Obligations.SilenceSetsCellOffline := by
  intro c s hfits hdue
  have hc := c.isLt
  have hfit : (s.cell c.val).Fits := hfits c.val hc
  have hmoves := (Moves.refl (C := (· = c.val)) (S := False) s).fallSilent c.val
  refine ⟨s.fallSilent c.val, congrArg _ (State.takeTimeout_due hfit .silence hdue),
    State.fallSilent_cell hc hfit.length_le, hmoves.sameOtherCells, hmoves.base, hmoves.floorQ_eq, fun r l hsole => ?_,
    fun r l hstack hincoming hstopped hl hopen hfour hnew hgo hroom => ?_⟩
  · have hh := State.lt_of_lot? hsole.2.2.2.1
    obtain ⟨hpcl, hfcn, -, -, -⟩ := State.sends_frame (s := s) r.handle (l.closedBy r .detached) false
    rw [State.fallSilent, State.detach_sole hc hsole]
    exact ⟨State.sentBack_of_sends hh rfl rfl rfl, hpcl, hfcn⟩
  · intro v
    have hh := State.lt_of_lot? hl
    have hlot : v.lot? r.handle = some _ := State.lot?_heldFor_of_lt hh _ .equipment (.cell c.val) [] .held
    obtain ⟨hldr, hdar, hrlu⟩ := State.sends_heldFor (s := s) r.handle (l.closedBy r .detached) _ .equipment (.cell c.val) []
      .held false
    obtain ⟨hpcl, hfcn, -, -, -⟩ := State.sends_frame (s := v) r.handle _ false
    rw [State.fallSilent, State.detach_of_closed hc hstack hincoming hstopped
      (State.closeIfOpen_fourth hl hopen hfour hnew (by nofun) hgo hroom) hlot rfl]
    exact ⟨hpcl, hfcn, _, hlot, State.sentBack_of_sends hh hldr hdar hrlu⟩

/-- Settles O47: the four timers fail the setup alike; a third failure is held. -/
theorem setupTimeoutFaultsCell : Obligations.SetupTimeoutFaultsCell := by
  intro c s i timer st cause hi hfits hdue
  have hc := c.isLt
  have hfit : (s.cell c.val).Fits := hfits c.val hc
  obtain ⟨hexec, hstate, hst, hcause⟩ : exec i s = .next (s.setupFailure c.val cause).settle ∧ (s.cell c.val).state = st ∧
      (st = .setup ∨ st = .starting) ∧ cause ≠ .unownedRun := by
    simp only [List.mem_cons, Prod.mk.injEq, List.not_mem_nil, or_false] at hi
    have hruns := fun t hd => hfit.timerRunsIn (timer := t) (n := 0) hd
    rcases hi with ⟨rfl, rfl, rfl, rfl⟩ | ⟨rfl, rfl, rfl, rfl⟩ | ⟨rfl, rfl, rfl, rfl⟩ | ⟨rfl, rfl, rfl, rfl⟩
    · exact ⟨congrArg _ (State.takeTimeout_due hfit .load hdue), by simpa [timerRunsIn] using hruns .load hdue, by simp,
      by simp⟩
    · exact ⟨congrArg _ (State.takeTimeout_due hfit .kit hdue), by simpa [timerRunsIn] using hruns .kit hdue, by simp,
      by simp⟩
    · exact ⟨congrArg _ (State.takeTimeout_due hfit .soak hdue), by simpa [timerRunsIn] using hruns .soak hdue, by simp,
      by simp⟩
    · exact ⟨congrArg _ (State.takeTimeout_due hfit .start hdue), by simpa [timerRunsIn] using hruns .start hdue, by simp,
        by simp⟩
  have hmoves := (Moves.refl (C := (· = c.val)) (S := False) s).setupFailure c.val cause rfl (fun h => hcause h)
  refine ⟨_, hexec, State.setupFailure_cell hc hfit (hstate ▸ hst) cause, hstate, hmoves.sameOtherCells, hmoves.base,
    hmoves.floorQ_eq, fun r l hsole hgo => ?_⟩
  obtain ⟨-, -, -, hl, -⟩ := id hsole
  have hh := State.lt_of_lot? hl
  have hclosed : ((s.setLot r.handle (l.closedBy r .fault)).popTop c.val).lot? r.handle = some (l.closedBy r .fault) :=
    State.lot?_setLot hl _
  intro failed fault
  have hfailed : failed = (l.closedBy r .fault).failed := by simp only [failed, Lot.failed, Lot.closedBy_setupFails]
  rw [hfailed]
  refine ⟨fun hfew hroom => ?_, fun hthird hnew hroom => ?_⟩
  · have hcount := State.countFailure_few (c := c.val) hclosed (by simpa using hfew)
    have hset : ((s.setLot r.handle (l.closedBy r .fault)).popTop c.val).setLot r.handle (l.closedBy r .fault).failed =
        (s.setLot r.handle (l.closedBy r .fault).failed).popTop c.val :=
      congrArg (State.popTop · c.val) (State.setLot_setLot _ _ _)
    rw [hset] at hcount
    have hu := State.setupFailure_sole hc hsole hcount (State.lot?_setLot hl _) rfl cause
    rw [State.sends_setLot] at hu
    exact State.faulted_sole hh hgo hroom hcause hu ⟨rfl, rfl, rfl⟩
  · have hcount := State.countFailure_third (c := c.val) hclosed (by simpa using hthird) (by simpa using hnew) hgo
      (State.plantRoom_mono hroom (by omega))
    have hset : ((s.setLot r.handle (l.closedBy r .fault)).popTop c.val).heldFor r.handle (l.closedBy r .fault).failed
      .equipment
        (.cell c.val) [] .held =
        (s.heldFor r.handle (l.closedBy r .fault).failed .equipment (.cell c.val) [] .held).popTop c.val :=
      congrArg (State.popTop · c.val) (State.heldFor_setLot _ _ _ _ _ _ _)
    rw [hset] at hcount
    intro v
    have hlot := State.lot?_heldFor_of_lt (s := s) hh (l.closedBy r .fault).failed .equipment (.cell c.val) [] .held
    have hu := State.setupFailure_sole hc hsole hcount hlot rfl cause
    obtain ⟨hback, hfcn, hpcl⟩ := State.faulted_sole (s := s) hh (t := v) hgo (State.plantRoom_heldFor hroom) hcause hu
      (State.sends_heldFor r.handle _ _ .equipment (.cell c.val) [] .held false)
    exact ⟨hfcn, hpcl, _, hlot, hback⟩

/-- Settles O48. -/
theorem stopAndJamTimeoutsAct : Obligations.StopAndJamTimeoutsAct := by
  refine ⟨fun c s hfits hdue => ?_, fun c s reg r below hfits hpass hreg hstack hdue hroom => ?_,
    fun c s reg r below f e hc hfits hreg hstack hf he hle hstate hroom => ?_, fun c s h => State.judgeLapse_eq_self h,
    fun c s f e hc hfits hf he hle hstate => ?_⟩
  · have hc := c.isLt
    have hfit : (s.cell c.val).Fits := hfits c.val hc
    have hmoves := (Moves.refl (C := (· = c.val)) (S := False) s).stopExpired c.val
    refine ⟨s.stopExpired c.val, congrArg _ (State.takeTimeout_due hfit .stop hdue),
      State.stopExpired_cell hc hfit.length_le, hmoves.sameOtherCells, hmoves.base, hmoves.floorQ_eq,
      fun r l hsole hgo hroom => ?_⟩
    have hh := State.lt_of_lot? hsole.2.2.2.1
    have href : s.topRef c.val = some (r.handle, r.inst) := by
      rw [State.topRef, State.top?_of_stack hsole.1]
      rfl
    have hu : s.stopExpired c.val = _ := congrArg (State.toFault · c.val .stopTimeout (s.topRef c.val))
      (State.detach_sole hc hsole)
    rw [State.popTop, State.modCell_modCell, href] at hu
    exact State.faulted_sole hh hgo hroom (by nofun) hu ⟨rfl, rfl, rfl⟩
  · have hc := c.isLt
    have hfit : (s.cell c.val).Fits := hfits c.val hc
    have hpaused : (s.cell c.val).state = .paused := by
      simpa [timerRunsIn] using hfit.timerRunsIn (timer := .jam) hdue
    have hstop := State.requestStop_of_room hfit.2 (.inr (.inr hpaused)) hreg hstack hroom .jamTimeout
    refine congrArg _ ((State.takeTimeout_due hfit .jam hdue).trans ?_)
    exact (congrArg State.settle hstop).trans (State.settle_of_passTaken hpass)
  · have hlapsed : lapsed s.tbs.floorTime (s.cell c).expiry = true := lapsed_eq_true.mpr ⟨f, e, hf, he, hle⟩
    rw [← State.requestStop_of_room (hfits c hc).2 hstate hreg hstack hroom .calibration, State.judgeLapse, hlapsed,
      if_pos rfl]
    rcases hstate with h | h | h <;> rw [h]
  · have hfit : (s.cell c).Fits := hfits c hc
    have hlapsed : lapsed s.tbs.floorTime (s.cell c).expiry = true := lapsed_eq_true.mpr ⟨f, e, hf, he, hle⟩
    have hjudge : s.judgeLapse c = s.abandonSetup c := by
      rw [State.judgeLapse, hlapsed, if_pos rfl, hstate]
    have hmoves := (Moves.refl (C := (· = c)) (S := False) s).abandonSetup c
    intro u left abandoned
    have hu : u = s.abandonSetup c := hjudge
    have habandoned : u.pcl = s.pcl → u.fcn = s.fcn → abandoned := fun hpcl hfcn => by
      refine ⟨?_, ?_, ?_, hpcl, hfcn, ?_⟩
      · rw [hu]
        exact State.abandonSetup_cell hc hfit hstate
      · rw [hu]
        exact hmoves.sameOtherCells
      · rw [hu]
        exact hmoves.base
      · rw [hu]
        rfl
    refine ⟨fun r l hsole => ?_, fun r low l l' hstack hne hl hl' hfew hfew' => ?_⟩
    · obtain ⟨hstack, -, -, hl, hfew⟩ := hsole
      have hfirst := State.abandonTop_of_lot hstack (by simp) hl hfew
      have hsecond : ((s.sends r.handle (l.closedBy r .calibration) true).popTop c).abandonTop c =
          (s.sends r.handle (l.closedBy r .calibration) true).popTop c :=
        State.abandonTop_of_empty (by rw [State.cell_sends_popTop hc, hstack]; rfl)
      have hgone : u = ((s.sends r.handle (l.closedBy r .calibration) true).popTop c).toIdle c := by
        rw [hu, State.abandonSetup, hfirst, hsecond]
      obtain ⟨hpcl, hfcn, -, -, -⟩ := State.sends_frame (s := s) r.handle (l.closedBy r .calibration) true
      refine ⟨habandoned (by rw [hgone]; exact hpcl) (by rw [hgone]; exact hfcn), ?_⟩
      rw [hgone]
      exact State.sentBack_new (State.lt_of_lot? hl) l .calibration
    · have hfirst := State.abandonTop_of_lot hstack (by simpa using hne.symm) hl hfew
      set v := (s.sends r.handle (l.closedBy r .calibration) true).popTop c with hv
      have hvstack : (v.cell c).stack = [low] := by
        rw [State.cell_sends_popTop hc, hstack]
        rfl
      have hvlot : v.lot? low.handle = some l' := (State.lot?_sends_ne hne.symm _ _).trans hl'
      obtain ⟨hpcl, hfcn, -, htbs, -⟩ := State.sends_frame (s := s) r.handle (l.closedBy r .calibration) true
      have hgone : u = ((v.sends low.handle (l'.closedBy low .calibration) true).popTop c).toIdle c := by
        rw [hu, State.abandonSetup, hfirst, State.abandonTop_of_lot hvstack (by simp) hvlot hfew']
      obtain ⟨hpcl', hfcn', -, -, -⟩ := State.sends_frame (s := v) low.handle (l'.closedBy low .calibration) true
      refine ⟨habandoned (by rw [hgone]; exact hpcl'.trans hpcl) (by rw [hgone]; exact hfcn'.trans hfcn), v, ?_, ?_⟩
      · exact State.sentBack_new_popTop (State.lt_of_lot? hl) l .calibration
      · have hnow : s.now = v.now := congrArg (fun b : Tbs => b.floorTime.getD 0) htbs.symm
        have hback := State.sentBack_new (c := c) (State.lt_of_lot? hl') l' .calibration (s := v)
        rw [← hgone, ← hnow] at hback
        exact hback

end Sys2Proof.Machine
end

section
/-! The run events of a cell: the checks of R85 with their drops, and RUN_STARTED (R75, R86, R96). -/

namespace Sys2Proof.Machine

set_option Elab.async false

variable {s t : State} {c : Nat}

@[simp] theorem State.setLot_cell (h : Nat) (l : Lot) (d : Nat) : (s.setLot h l).cell d = s.cell d := rfl

@[simp] theorem State.setLot_dar (h : Nat) (l : Lot) : (s.setLot h l).dar = s.dar := rfl

/-! ### Cell messages that are taken -/

/-- Outside STARTING a cell message has its effect and is forwarded (R165). -/
theorem fromCell_takes (h : s.takes) (kind : Code16) (m : Msg) (take : State → State) :
    fromCell kind m take s = .next ((take s).forward kind m m.body).settle := by
  have hmode : s.isStarting = false := by simpa [State.isStarting_eq] using h.2
  rw [fromCell, arrival_of_running h.1, hmode]
  rfl

/-- A cell message whose effect starts no pass, forwarded into a queue with room. -/
theorem fromCell_eq (h : s.takes) {kind : Code16} {m : Msg} {take : State → State} (htake : take s = t) (hpass : t.passTaken)
    (hroom : t.plantRoom 1) : fromCell kind m take s = .next (t.sendsPlant [forwardedFrame t kind m m.body]) := by
  rw [fromCell_takes h, htake, State.forward_of_room hroom, State.settle_of_passTaken]
  exact hpass

theorem State.cellCheck_iff {m : Msg} : s.cellCheck m = true ↔ ∃ reg, s.knowsCell m reg := by
  unfold State.cellCheck State.knowsCell
  cases s.reg? m.cell.toNat <;> simp

theorem State.knowsCell.check {m : Msg} {reg : Registration} (h : s.knowsCell m reg) : s.cellCheck m = true :=
  State.cellCheck_iff.mpr ⟨reg, h⟩

theorem State.knowsCell.lt {m : Msg} {reg : Registration} (h : s.knowsCell m reg) : m.cell.toNat < 48 := h.1

theorem State.knowsCell.reg {m : Msg} {reg : Registration} (h : s.knowsCell m reg) : s.reg? m.cell.toNat = some reg := h.2.1

/-! ### The checks of R85 -/

/-- A message that misses its lot fails the lookup with the outcome it has (R8, R85). -/
theorem State.lookup_of_missesLot {m : Msg} {d : Drop} (h : s.missesLot m d) :
    ∃ x, s.lookup m.handle.toNat m.inst.toNat = x ∧ x.drop = d ∧ (∀ l, x ≠ .found l) ∧ d ≠ .counted ∧ d ≠ .unknownCell := by
  rcases h with ⟨hrefuses, rfl⟩ | ⟨hrefuses, rfl⟩ | ⟨hrefuses, rfl⟩
  all_goals
    obtain ⟨x, hx, hcode, hnot⟩ := State.lookup_of_refusesLot hrefuses
    refine ⟨x, hx, ?_, hnot, nofun, nofun⟩
    cases x with
    | found l => exact absurd rfl (hnot l)
    | _ => cases hcode <;> rfl

/-- The event of a lot that is not found (R8, R85). -/
theorem State.eventCheck_missed {m : Msg} {d : Drop} (hcheck : s.cellCheck m = true) (hmiss : s.missesLot m d)
    (pass : Option Pass) : s.eventCheck m pass = d := by
  obtain ⟨x, hx, hdrop, hnot, -, -⟩ := State.lookup_of_missesLot hmiss
  unfold State.eventCheck
  rw [hcheck, hx]
  cases x with
  | found l => exact absurd rfl (hnot l)
  | _ => exact hdrop

/-- The event of a lot that is found, by the cell's top run (R85). -/
theorem State.eventCheck_found {m : Msg} {l : Lot} (hcheck : s.cellCheck m = true) (hlot : s.namesLot m l)
    (pass : Option Pass) : s.eventCheck m pass = match s.top? m.cell.toNat with
      | none => .notRunning
      | some r =>
        if r.handle ≠ m.handle.toNat ∨ r.inst ≠ m.inst.toNat then .notRunning
        else if r.step ≠ m.step.toNat then .wrongStep
        else match pass with
          | some p => if r.pass = p then .counted else .wrongPass
          | none => .counted := by
  unfold State.eventCheck
  rw [hcheck, State.lookup_of_namesLot hlot]
  rfl

/-- An event of the cell's top run passes the checks (R85). -/
theorem State.eventCheck_counted {m : Msg} {l : Lot} {r : Run} (hcheck : s.cellCheck m = true) (hlot : s.namesLot m l)
    (htop : s.top? m.cell.toNat = some r) (hnamed : r.namedBy m) {pass : Option Pass} (hpass : ∀ p, pass = some p →
      r.pass = p) :
    s.eventCheck m pass = .counted := by
  obtain ⟨hhandle, hinst, hstep⟩ := hnamed
  rw [State.eventCheck_found hcheck hlot, htop]
  dsimp only
  rw [if_neg (by simp [hhandle, hinst]), if_neg (by simp [hstep])]
  cases pass with
  | none => rfl
  | some p => exact if_pos (hpass p rfl)

/-- The first of checks 3 to 6 that fails (R85). -/
theorem State.eventCheck_dropped {m : Msg} {pass : Option Pass} {d : Drop} (hcheck : s.cellCheck m = true)
    (hdrops : s.dropsEvent m pass d) : s.eventCheck m pass = d ∧ d ≠ .counted ∧ d ≠ .unknownCell := by
  rcases hdrops with hmiss | ⟨l, hlot, hnot⟩
  · obtain ⟨-, -, -, -, hne⟩ := State.lookup_of_missesLot hmiss
    exact ⟨State.eventCheck_missed hcheck hmiss pass, hne⟩
  · rw [State.eventCheck_found hcheck hlot]
    rcases hnot with ⟨rfl, hother⟩ | ⟨r, below, hstack, ⟨hhandle, hinst⟩, hwrong⟩
    · refine ⟨?_, nofun, nofun⟩
      rcases hstack : (s.cell m.cell.toNat).stack with _ | ⟨r, below⟩
      · rw [State.top?, hstack]
        rfl
      · rw [State.top?_of_stack hstack]
        exact if_pos (not_and_or.mp (hother r below hstack))
    · rw [State.top?_of_stack hstack]
      dsimp only
      rw [if_neg (by simp [hhandle, hinst])]
      rcases hwrong with ⟨rfl, hstep⟩ | ⟨rfl, hstep, p, rfl, hpass⟩
      · exact ⟨if_pos hstep, nofun, nofun⟩
      · exact ⟨(if_neg (not_not.mpr hstep)).trans (if_neg hpass), nofun, nofun⟩

/-! ### A run event, taken or dropped -/

theorem State.runEvent_dropped {m : Msg} {pass : Option Pass} {d : Drop} {taken : Cell → Run → Bool}
    {act : State → Nat → Run → State} (h : s.eventCheck m pass = d ∧ d ≠ .counted ∧ d ≠ .unknownCell) :
    s.runEvent m pass taken act = s.dropCounted m.cell.toNat d := by
  obtain ⟨hcheck, hcounted, hunknown⟩ := h
  unfold State.runEvent
  dsimp only
  rw [hcheck]
  split
  · exact absurd rfl hcounted
  · exact absurd rfl hunknown
  · rfl

theorem State.runEvent_unknown {m : Msg} {pass : Option Pass} {taken : Cell → Run → Bool} {act : State → Nat → Run → State}
    (h : s.cellCheck m = false) : s.runEvent m pass taken act = s := by
  have hcheck : s.eventCheck m pass = .unknownCell := by
    unfold State.eventCheck
    rw [h]
    rfl
  unfold State.runEvent
  dsimp only
  rw [hcheck]

theorem State.runEvent_counted {m : Msg} {pass : Option Pass} {taken : Cell → Run → Bool} {act : State → Nat → Run → State}
    {r : Run} (hcheck : s.eventCheck m pass = .counted) (htop : s.top? m.cell.toNat = some r) :
    s.runEvent m pass taken act = if taken (s.cell m.cell.toNat) r then
      act (s.modLot r.handle fun l => { l with mark := true }) m.cell.toNat r else s.dropCounted m.cell.toNat
        .unexpected := by
  unfold State.runEvent
  dsimp only
  rw [hcheck, htop]
  rfl

/-- A run event that passes every check sets its lot's activity mark and acts (R16, R85). -/
theorem State.runEvent_taken {m : Msg} {reg : Registration} {l : Lot} {r : Run} {below : List Run} {pass : Option Pass}
    {taken : Cell → Run → Bool} {act : State → Nat → Run → State} (hknows : s.knowsCell m reg) (hlot : s.namesLot m l)
    (hstack : (s.cell m.cell.toNat).stack = r :: below) (hnamed : r.namedBy m) (hpass : ∀ p, pass = some p → r.pass = p)
    (htaken : taken (s.cell m.cell.toNat) r = true) :
    s.runEvent m pass taken act = act (s.setLot r.handle { l with mark := true }) m.cell.toNat r := by
  have htop := State.top?_of_stack hstack
  have hl : s.lot? r.handle = some l := hnamed.1 ▸ State.lot?_of_namesLot hlot
  rw [State.runEvent_counted (State.eventCheck_counted hknows.check hlot htop hnamed hpass) htop, htaken, if_pos rfl,
    State.modLot_of_lot hl]

/-- What becomes of a run event that is dropped (R85). -/
theorem State.dropsAs_of_runEvent {i : Instr} {kind : Code16} {m : Msg} {readable : Bool} {pass : Option Pass}
    {takes : CellState → Run → Prop} {take : State → State} {taken : Cell → Run → Bool} {act : State → Nat → Run → State}
    (hrun : s.takes) (hpass : s.passTaken) (hroom : s.plantRoom 1) (hexec : exec i s = fromCell kind m take s)
    (hunreadable : readable = false → take s = s) (hreadable : readable = true → take s = s.runEvent m pass taken act)
    (htaken : ∀ x r, taken x r = true → takes x.state r) : s.dropsAs i kind m readable pass takes := by
  have hforwards : ∀ u : State, take s = u → u.tst = s.tst → u.pcl = s.pcl → u.dar = s.dar →
      exec i s = .next (u.sendsPlant [forwardedFrame s kind m m.body]) := fun u htake htst hpcl hdar => by
    have hframe : forwardedFrame u kind m m.body = forwardedFrame s kind m m.body := by simp only [forwardedFrame, htst]
    rw [hexec, fromCell_eq hrun htake (by simpa [State.passTaken, hdar] using hpass) (by simpa [State.plantRoom, hpcl]
      using hroom),
      hframe]
  refine ⟨fun hno => ?_, fun hread reg hknows => ⟨fun d hdrops => ?_, fun r hnames hnot => ?_⟩⟩
  · refine hforwards s ?_ rfl rfl rfl
    cases hread : readable with
    | false => exact hunreadable hread
    | true =>
      have hcheck : s.cellCheck m = false := Bool.eq_false_iff.mpr fun h =>
        (hno.resolve_left (by simp [hread])) (State.cellCheck_iff.mp h)
      rw [hreadable hread, State.runEvent_unknown hcheck]
  · refine hforwards _ ?_ rfl rfl rfl
    rw [hreadable hread, State.runEvent_dropped (State.eventCheck_dropped hknows.check hdrops)]
  · obtain ⟨⟨l, hlot⟩, htop, hnamed, hmatch⟩ := hnames
    refine hforwards _ ?_ rfl rfl rfl
    have hrefused : taken (s.cell m.cell.toNat) r = false := Bool.eq_false_iff.mpr fun h => hnot (htaken _ _ h)
    rw [hreadable hread, State.runEvent_counted (State.eventCheck_counted hknows.check hlot htop hnamed hmatch) htop,
      hrefused]
    rfl

/-! ### The start of a run -/

/-- The lot of a run that starts (R75, R86, R96). -/
def Lot.started (l : Lot) (c : Nat) (r : Run) (v : ProgVals) : Lot :=
  if r.segOpen then { l with state := .running, setupFails := 0, mark := true }
  else { l with
    state := .running, setupFails := 0, mark := true
    segments := (if l.segments.length < 4 then l.segments else l.segments.dropLast) ++
      [⟨c, v.number, v.rev, l.acc.tested1, none⟩]
    acc := { l.acc with sites := Vector.replicate 16 ⟨0, 0, 0, 0⟩ } }

theorem State.modTop_of_stack {r : Run} {below : List Run} (hstack : (s.cell c).stack = r :: below) (f : Run → Run) :
    s.modTop c f = s.modCell c fun _ => { s.cell c with stack := f r :: below } :=
  State.modCell_congr (by rw [hstack])

/-- A segment opens with the program the cell has loaded (R96, R109). -/
theorem State.openSegment_of_lot (hc : c < 48) {r top : Run} {below : List Run} {l : Lot} {v : ProgVals} {y : Cell}
    (hstack : y.stack = top :: below) (hloaded : y.loaded = some v) (hl : s.lot? r.handle = some l) :
    (s.modCell c fun _ => y).openSegment c r = (s.setLot r.handle { l with
      segments := (if l.segments.length < 4 then l.segments else l.segments.dropLast) ++
        [⟨c, v.number, v.rev, l.acc.tested1, none⟩]
      acc := { l.acc with sites := Vector.replicate 16 SiteStat.zero } }).modCell c fun _ =>
        { y with stack := { top with segOpen := true } :: below } := by
  have hcell : ∀ x : State, (x.modCell c fun _ => y).cell c = y := fun x => State.cell_modCell hc _
  have hv : y.loaded.getD ⟨0, 0, 0⟩ = v := by rw [hloaded, Option.getD_some]
  unfold State.openSegment
  dsimp only
  rw [State.modLot_modCell, State.modLot_of_lot hl, hcell, hv,
    State.modTop_of_stack (r := top) (below := below) (by rw [hcell, hstack]), hcell, State.modCell_modCell]

/-- The lot RUNNING and its segment opened if it is not open (R75, R96). -/
theorem State.opensRun (hc : c < 48) {r : Run} {below : List Run} {l : Lot} {v : ProgVals}
    (hstack : (s.cell c).stack = r :: below) (hl : s.lot? r.handle = some l)
    (hloaded : r.segOpen = false → (s.cell c).loaded = some v) :
    let w := ((s.setLot r.handle { l with mark := true }).modTop c fun r => { r with awaiting := false }).modLot r.handle
      fun l => { l with state := .running, setupFails := 0 }
    (if r.segOpen then w else w.openSegment c r) = (s.setLot r.handle (l.started c r v)).modCell c fun _ =>
      { s.cell c with stack := { r with awaiting := false, segOpen := true } :: below } := by
  intro w
  have hw : w = (s.setLot r.handle { l with state := .running, setupFails := 0, mark := true }).modCell c fun _ =>
      { s.cell c with stack := { r with awaiting := false } :: below } := by
    have htop := State.modTop_of_stack (s := s.setLot r.handle { l with mark := true }) hstack fun r => { r with
      awaiting := false }
    unfold w
    rw [htop]
    rw [State.modLot_modCell, State.modLot_of_lot (State.lot?_setLot hl _), State.setLot_setLot]
    rfl
  rw [hw]
  cases hopen : r.segOpen with
  | true =>
    rw [if_pos rfl, Lot.started, if_pos hopen]
  | false =>
    rw [if_neg Bool.false_ne_true, Lot.started, if_neg (by simp [hopen])]
    refine (State.openSegment_of_lot (y := { s.cell c with stack := { r with segOpen := false, awaiting := false } ::
      below })
      hc rfl (hloaded hopen) (State.lot?_setLot hl _)).trans ?_
    rw [State.setLot_setLot]
    rfl

/-- A cell enters RUNNING, and a pass is started when no run stands below (R67). -/
theorem State.toRunning_eq (hc : c < 48) : s.toRunning c = { s.modCell c fun x => x.enter .running with
    dar := ⟨s.dar.queue, decide ((s.cell c).stack.length = 1) || s.dar.passDue⟩ } := by
  unfold State.toRunning
  dsimp only
  rw [State.cell_modCell hc, Cell.enter_stack]
  by_cases h : (s.cell c).stack.length = 1
  · rw [if_pos h, decide_eq_true h]
    rfl
  · rw [if_neg h, decide_eq_false h]
    rfl

/-- The record of a cell whose top run has started (R75, R86). -/
def Cell.started (x : Cell) (r : Run) (below : List Run) : Cell :=
  { x with
    state := if x.state = .starting then .running else x.state
    stack := { r with awaiting := false, segOpen := true } :: below
    timers := { x.timers with start := none } }

theorem State.runStarts_eq (r : Run) (below : List Run) (l : Lot) (v : ProgVals) : s.runStarts c r below l v =
    { (s.setLot r.handle (l.started c r v)).modCell c fun x => x.started r below with
      dar := ⟨s.dar.queue, decide ((s.cell c).state = .starting ∧ below = [])⟩ } := rfl

/-- From STARTING a cell whose run starts is RUNNING (R39, R75). -/
theorem Cell.Fits.enter_running {x : Cell} (h : x.Fits) (hs : x.state = .starting ∨ x.state = .paused) (stack : List Run) :
    ({ x with stack := stack } : Cell).enter .running =
      { x with state := .running, stack := stack, timers := { x.timers with start := none, jam := none } } := by
  have hne : x.state ≠ .fault ∧ x.state ≠ .setup ∧ x.state ≠ .stopping := by rcases hs with e | e <;> simp [e]
  obtain ⟨hsetup, -, hstop, -⟩ := h.timers_eq_none
  obtain ⟨hload, hkit, hsoak⟩ := hsetup hne.2.1
  simp [Cell.enter, h.cause_eq_none hne.1, h.items_eq_none hne.2.1, h.stopReason_eq_none hne.2.2, hload, hkit, hsoak,
    hstop hne.2.2]

/-- The start of a top run whose lot is marked (R75, R86). -/
theorem State.startRun_eq (hc : c < 48) {r : Run} {below : List Run} {l : Lot} {v : ProgVals} (hfits : (s.cell c).Fits)
    (hpass : s.passTaken) (hstack : (s.cell c).stack = r :: below) (hl : s.lot? r.handle = some l)
    (hloaded : r.segOpen = false → (s.cell c).loaded = some v) (hstate : (s.cell c).state = .starting ∨ (s.cell c).state
      = .stopping) :
    (s.setLot r.handle { l with mark := true }).startRun c r = s.runStarts c r below l v := by
  unfold State.startRun
  dsimp only
  rw [State.opensRun hc hstack hl hloaded, State.cell_modCell hc]
  have hdue : s.dar.passDue = false := hpass
  rw [State.runStarts_eq]
  rcases hstate with hstarting | hstopping
  · have hjam := hfits.timers_eq_none.2.2.2 (by simp [hstarting])
    rw [if_pos hstarting, State.toRunning_eq hc, State.cell_modCell hc, State.modCell_modCell]
    have hcell := State.modCell_congr (s := s.setLot r.handle (l.started c r v)) (c := c)
      (f := fun _ => ({ s.cell c with stack := { r with awaiting := false, segOpen := true } :: below } : Cell).enter
        .running)
      (g := fun x => x.started r below) (by
        rw [hfits.enter_running (.inl hstarting), State.setLot_cell, Cell.started, if_pos hstarting]
        simp only [hjam])
    have hbelow : (decide ((({ r with awaiting := false, segOpen := true } :: below : List Run)).length = 1) ||
      s.dar.passDue) =
        decide ((s.cell c).state = .starting ∧ below = []) := by simp [hstarting, hdue]
    rw [hcell]
    exact congrArg (fun b => ({ (s.setLot r.handle (l.started c r v)).modCell c fun x => x.started r below with
      dar := ⟨s.dar.queue, b⟩ } : State)) hbelow
  · have hstart := hfits.timers_eq_none.2.1 (by simp [hstopping])
    rw [if_neg (by simp [hstopping])]
    have hcell := State.modCell_congr (s := s.setLot r.handle (l.started c r v)) (c := c)
      (f := fun _ => { s.cell c with stack := { r with awaiting := false, segOpen := true } :: below })
      (g := fun x => x.started r below) (by
        rw [State.setLot_cell, Cell.started, if_neg (by simp [hstopping])]
        rw [← hstart])
    have hdar : s.dar = ⟨s.dar.queue, decide ((s.cell c).state = .starting ∧ below = [])⟩ := by
      rw [decide_eq_false (by simp [hstopping]), ← hdue]
    rw [hcell, ← hdar]
    rfl

/-- Settles O52. -/
theorem runStartedOpensSegment : Obligations.RunStartedOpensSegment := by
  refine ⟨fun m reg l r below v s hrun hfits hpass hknows hbody hlot hstack hnamed hstate hawaiting hroom => ?_,
    fun m s hrun hpass hroom => State.dropsAs_of_runEvent hrun hpass hroom (take := (State.takeRunStarted · m))
      (taken := takesStart) (act := fun s c r => s.startRun c r) rfl (fun hread => ?_) (fun hread => ?_)
      fun x r htaken => ?_⟩
  · intro x u
    have hc := hknows.lt
    have hl : s.lot? r.handle = some l := hnamed.1 ▸ State.lot?_of_namesLot hlot
    have hexec : (r.segOpen = false → x.loaded = some v) → exec (.runStarted m) s =
        .next (u.sendsPlant [forwardedFrame s Kind.runStarted m m.body]).settle := fun hloaded => by
      have htake : s.takeRunStarted m = u := by
        have hread : readNothing m.body = some () := by rw [hbody]; rfl
        unfold State.takeRunStarted
        rw [hread]
        dsimp only
        rw [State.runEvent_taken (pass := none) hknows hlot hstack hnamed (fun _ h => nomatch h)
          (by simpa [takesStart] using ⟨hawaiting, hstate⟩)]
        exact State.startRun_eq hc (hfits _ hc) hpass hstack hl hloaded hstate
      refine (fromCell_takes hrun Kind.runStarted m fun s => s.takeRunStarted m).trans ?_
      rw [htake]
      exact congrArg (fun t : State => Host.Outcome.next t.settle) (State.forward_of_room (s := u) hroom _ _ _)
    have hslot : u.slot r.handle = ⟨r.inst, some (l.started m.cell.toNat r v)⟩ := by
      have hinst : (s.slot r.handle).inst = r.inst := by rw [hnamed.1, hlot.2.2, hnamed.2.1]
      rw [← hinst]
      exact State.slot_setLot_self (State.lt_of_lot? hl) _
    refine ⟨fun hopen hloaded => ⟨hexec fun _ => hloaded, ?_, ?_, ?_, ?_, ?_⟩, fun hopen => ⟨hexec (by simp [hopen]), ?_⟩⟩
    · refine (State.cell_modCell hc _).trans ?_
      rcases hstate with e | e <;> simp [e, x]
    · rw [hslot, Lot.started, if_neg (by simp [hopen])]
    · exact fun d hd => State.cell_modCell_ne hd _
    · exact State.sameOtherLots_setLot _ _
    · exact ⟨rfl, rfl, rfl, rfl, rfl, rfl⟩
    · rw [hslot, Lot.started, if_pos hopen]
  · have hnone : readNothing m.body = none := by
      unfold readNothing atEnd
      simp_all
    unfold State.takeRunStarted
    rw [hnone]
  · have hsome : readNothing m.body = some () := by
      unfold readNothing atEnd
      simp_all
    unfold State.takeRunStarted
    rw [hsome]
  · simpa [takesStart] using htaken

end Sys2Proof.Machine
end

section
/-! A cell's setup: its items judged, its run started, and its entry into SETUP (R52, R70, R71, R74). -/

namespace Sys2Proof.Machine

set_option Elab.async false

variable {s t : State} {c : Nat}

/-! ### The items -/

theorem Items.clear_iff {i : Items} : i.clear = true ↔ i = Items.none := by
  rcases i with ⟨load, kit, soak⟩
  cases load <;> cases kit <;> cases soak <;> decide

@[simp] theorem State.sendsFloor_nil : s.sendsFloor [] = s := by
  simp [State.sendsFloor]

theorem State.sendsFloor_sendsFloor (a b : List Frame) : (s.sendsFloor a).sendsFloor b = s.sendsFloor (a ++ b) := by
  simp [State.sendsFloor]

theorem State.sendsFloor_modCell (a : List Frame) (f : Cell → Cell) :
    (s.sendsFloor a).modCell c f = (s.modCell c f).sendsFloor a := rfl

/-- The frames of one order that is sent or not leave room for as many fewer. -/
theorem State.floorRoom_optional {n : Nat} (h : s.floorRoom (n + 1)) (b : Bool) (f : Frame) :
    (s.sendsFloor (if b then [f] else [])).floorRoom n := by
  cases b with
  | true => exact State.floorRoom_succ h f
  | false =>
    rw [if_neg Bool.false_ne_true, State.sendsFloor_nil]
    exact State.floorRoom_mono h (by omega)

/-- The record of a cell with its LOAD item judged (R70, R71). -/
def Cell.loadJudged (y : Cell) (b : Bool) (v : ProgVals) (n : Nat) : Cell :=
  let sends := b && y.order.isNone
  { y with
    items := { y.items with load := y.items.load || b }
    timers := { y.timers with load := if b then some n else y.timers.load }
    order := if sends then some v else y.order
    orderCurrent := sends || y.orderCurrent }

/-- The record of a cell with its KIT item judged (R70). -/
def Cell.kitJudged (y : Cell) (b : Bool) (n : Nat) : Cell :=
  { y with
    items := { y.items with kit := y.items.kit || b }
    timers := { y.timers with kit := if b then some n else y.timers.kit } }

/-- The record of a cell with its SOAK item judged (R70). -/
def Cell.soakJudged (y : Cell) (b : Bool) (n : Nat) : Cell :=
  { y with
    items := { y.items with soak := y.items.soak || b }
    timers := { y.timers with soak := if b then some n else y.timers.soak } }

theorem State.judgeLoad_of_room {reg : Registration} (hreg : s.reg? c = some reg) (h : s.floorRoom 1) (r : Run)
    (v : ProgVals)
    (b : Bool) : (if b then s.startLoad c r v else s) =
      (s.modCell c fun y => y.loadJudged b v s.tst.settings.load).sendsFloor
        (if b && (s.cell c).order.isNone then [s.orderFrame reg c (some r) (.loadProgram v)] else []) := by
  cases b with
  | false =>
    simp only [Bool.false_and, Bool.false_eq_true, if_false, State.sendsFloor_nil]
    exact (State.modCell_self (by simp [Cell.loadJudged])).symm
  | true =>
    rw [if_pos rfl, State.startLoad]
    cases horder : (s.cell c).order with
    | some w =>
      simp only [Option.isNone_some, Bool.and_false, Bool.false_eq_true, if_false, State.sendsFloor_nil]
      exact State.modCell_congr (by simp [Cell.loadJudged, horder])
    | none =>
      simp only [Option.isNone_none, Bool.and_true, if_true]
      refine (State.order_of_room (s := s.modCell c _) hreg h _ _).trans ?_
      refine congrArg (State.sendsFloor · [s.orderFrame reg c (some r) (.loadProgram v)]) (State.modCell_congr ?_)
      simp [Cell.loadJudged, horder]

theorem State.judgeKit_of_room {reg : Registration} (hreg : s.reg? c = some reg) (h : s.floorRoom 1) (r : Run) (kit : Nat)
    (b : Bool) : (if b then s.startKit c r kit else s) =
      (s.modCell c fun y => y.kitJudged b s.tst.settings.kit).sendsFloor
        (if b then [s.orderFrame reg c (some r) (.kitCall kit)] else []) := by
  cases b with
  | false =>
    simp only [Bool.false_eq_true, if_false, State.sendsFloor_nil]
    exact (State.modCell_self (by simp [Cell.kitJudged])).symm
  | true =>
    refine (State.order_of_room (s := s.modCell c _) hreg h _ _).trans ?_
    refine congrArg (State.sendsFloor · [s.orderFrame reg c (some r) (.kitCall kit)]) (State.modCell_congr ?_)
    simp [Cell.kitJudged]

theorem State.judgeSoak_of_room {reg : Registration} (hreg : s.reg? c = some reg) (h : s.floorRoom 1) (r : Run) (x : Temp)
    (b : Bool) : (if b then s.startSoak c r x else s) =
      (s.modCell c fun y => y.soakJudged b s.tst.settings.soak).sendsFloor
        (if b then [s.orderFrame reg c (some r) (.soak x)] else []) := by
  cases b with
  | false =>
    simp only [Bool.false_eq_true, if_false, State.sendsFloor_nil]
    exact (State.modCell_self (by simp [Cell.soakJudged])).symm
  | true =>
    refine (State.order_of_room (s := s.modCell c _) hreg h _ _).trans ?_
    refine congrArg (State.sendsFloor · [s.orderFrame reg c (some r) (.soak x)]) (State.modCell_congr ?_)
    simp [Cell.soakJudged]

/-- The three items of a top run judged against its cell (R70, R71). -/
theorem State.judgeItems_of_room {r : Run} {reg : Registration} {standing load kit soak : Bool} (hreg : s.reg? c = some reg)
    (hroom : s.floorRoom 3) (hload : load = true ↔ (standing = true ∧ (s.cell c).order ≠ none) ∨ ((s.cell c).order = none ∧
      loadMismatch (s.cell c) (s.programOf (s.runStep r)).vals = true))
    (hkit : kit = kitMismatch (s.cell c) (s.runStep r).kit) (hsoak : soak = soakMismatch (s.cell c) (s.runStep r).temp) :
    let v := (s.programOf (s.runStep r)).vals
    let sends := load && (s.cell c).order.isNone
    s.judgeItems c r standing = (s.modCell c fun y =>
      ((y.loadJudged load v s.tst.settings.load).kitJudged kit s.tst.settings.kit).soakJudged soak
        s.tst.settings.soak).sendsFloor
      ((if sends then [s.orderFrame reg c (some r) (.loadProgram v)] else []) ++
        (if kit then [s.orderFrame reg c (some r) (.kitCall (s.runStep r).kit)] else []) ++
        (if soak then [s.orderFrame reg c (some r) (.soak (s.runStep r).temp)] else [])) := by
  intro v sends
  have hpending : ((standing && (s.cell c).order.isSome) ||
      (loadMismatch (s.cell c) v && (standing || (s.cell c).order.isNone))) = load := by
    rw [Bool.eq_iff_iff, hload]
    cases (s.cell c).order <;> cases standing <;> simp [v]
  unfold State.judgeItems
  dsimp only
  rw [hpending, ← hkit, ← hsoak]
  rw [State.judgeLoad_of_room hreg (State.floorRoom_mono hroom (by omega))]
  have hroom₁ : (s.sendsFloor (if sends then [s.orderFrame reg c (some r) (.loadProgram v)] else [])).floorRoom 2 :=
    State.floorRoom_optional hroom _ _
  set s₁ := (s.modCell c fun y => y.loadJudged load v s.tst.settings.load).sendsFloor
    (if sends then [s.orderFrame reg c (some r) (.loadProgram v)] else []) with hs₁
  rw [State.judgeKit_of_room (s := s₁) hreg (State.floorRoom_mono hroom₁ (by omega))]
  have hroom₂ : (s₁.sendsFloor (if kit then [s.orderFrame reg c (some r) (.kitCall (s.runStep r).kit)] else
    [])).floorRoom 1 :=
    State.floorRoom_optional hroom₁ _ _
  set s₂ := (s₁.modCell c fun y => y.kitJudged kit s₁.tst.settings.kit).sendsFloor
    (if kit then [s₁.orderFrame reg c (some r) (.kitCall (s.runStep r).kit)] else []) with hs₂
  rw [State.judgeSoak_of_room (s := s₂) hreg hroom₂, hs₂, hs₁]
  simp only [State.sendsFloor_modCell, State.modCell_modCell, State.sendsFloor_sendsFloor]
  rfl

/-- With no mismatch and no order standing nothing becomes pending (R70, R74). -/
theorem State.judgeItems_of_matched {r : Run} {standing : Bool} (horder : standing = true → (s.cell c).order = none)
    (hload : loadMismatch (s.cell c) (s.programOf (s.runStep r)).vals = false)
    (hkit : kitMismatch (s.cell c) (s.runStep r).kit = false) (hsoak : soakMismatch (s.cell c) (s.runStep r).temp = false) :
    s.judgeItems c r standing = s := by
  have hpending : ((standing && (s.cell c).order.isSome) ||
      (loadMismatch (s.cell c) (s.programOf (s.runStep r)).vals && (standing || (s.cell c).order.isNone))) = false := by
    rw [hload]
    cases standing with
    | false => rfl
    | true => rw [horder rfl]; rfl
  unfold State.judgeItems
  dsimp only
  rw [hpending, hkit, hsoak]
  rfl

theorem State.startLoad_items (hc : c < 48) (r : Run) (v : ProgVals) :
    ((s.startLoad c r v).cell c).items = { (s.cell c).items with load := true } := by
  unfold State.startLoad
  dsimp only
  split
  · rw [State.order_cell, State.cell_modCell hc]
  · rw [State.cell_modCell hc]

theorem State.startKit_items (hc : c < 48) (r : Run) (kit : Nat) :
    ((s.startKit c r kit).cell c).items = { (s.cell c).items with kit := true } := by
  rw [State.startKit, State.order_cell, State.cell_modCell hc]

theorem State.startSoak_items (hc : c < 48) (r : Run) (x : Temp) :
    ((s.startSoak c r x).cell c).items = { (s.cell c).items with soak := true } := by
  rw [State.startSoak, State.order_cell, State.cell_modCell hc]

/-- A judgement that leaves no item pending has found no mismatch (R70, R74). -/
theorem State.judgeItems_eq_self_of_clear (hc : c < 48) {r : Run} {standing : Bool}
    (h : ((s.judgeItems c r standing).cell c).items = Items.none) : s.judgeItems c r standing = s := by
  have hload : ∀ i : Items, ({ i with load := true } : Items) ≠ Items.none := fun _ h => nomatch congrArg Items.load h
  have hkit : ∀ i : Items, ({ i with kit := true } : Items) ≠ Items.none := fun _ h => nomatch congrArg Items.kit h
  have hsoak : ∀ i : Items, ({ i with soak := true } : Items) ≠ Items.none := fun _ h => nomatch congrArg Items.soak h
  unfold State.judgeItems at h ⊢
  dsimp only at h ⊢
  split at h
  · rw [State.startSoak_items hc] at h
    exact absurd h (hsoak _)
  · rw [if_neg ‹_›]
    split at h
    · rw [State.startKit_items hc] at h
      exact absurd h (hkit _)
    · rw [if_neg ‹_›]
      split at h
      · rw [State.startLoad_items hc] at h
        exact absurd h (hload _)
      · exact if_neg ‹_›

/-! ### The start of a run -/

/-- START_RUN sent for a top run (R74, R88). -/
theorem State.sendStart_of_room (hc : c < 48) {reg : Registration} {r : Run} {below : List Run} {l : Lot}
    (hreg : s.reg? c = some reg) (hstack : (s.cell c).stack = r :: below) (hl : s.lot? r.handle = some l) (hroom :
      s.floorRoom 1) :
    s.sendStart c r = s.startsRun reg c r (l.acc.remaining r.pass) := by
  unfold State.sendStart
  rw [hl]
  dsimp only
  rw [State.modTop_of_stack (r := r) (below := below) (by rw [State.cell_modCell hc]; exact hstack), State.modCell_modCell,
    State.cell_modCell hc, State.cell_modCell hc]
  refine (State.order_of_room (s := s.modCell c _) hreg hroom _ _).trans ?_
  refine congrArg (State.sendsFloor · [s.orderFrame reg c (some r) (.startRun r.pass (s.cell c).enabled (l.acc.remaining
    r.pass))])
    (State.modCell_congr ?_)
  simp [Cell.enter, hstack, Timers.idle]

theorem State.checkSetup_pending (h : (s.cell c).items ≠ Items.none) : s.checkSetup c = s := by
  unfold State.checkSetup
  split
  · rfl
  · rw [if_neg (fun hclear => h (Items.clear_iff.mp hclear))]

/-- With no item pending the mismatches are judged again (R74). -/
theorem State.checkSetup_clear {r : Run} {below : List Run} (hstack : (s.cell c).stack = r :: below)
    (h : (s.cell c).items = Items.none) : s.checkSetup c = if ((s.judgeItems c r false).cell c).items = Items.none then
      (s.judgeItems c r false).sendStart c r else s.judgeItems c r false := by
  unfold State.checkSetup
  rw [State.top?_of_stack hstack]
  dsimp only
  rw [if_pos (Items.clear_iff.mpr h)]
  simp only [Items.clear_iff]

/-- With no item pending and no mismatch the run is started (R74). -/
theorem State.checkSetup_starts (hc : c < 48) {reg : Registration} {r : Run} {below : List Run} {l : Lot}
    (hreg : s.reg? c = some reg) (hstack : (s.cell c).stack = r :: below) (hl : s.lot? r.handle = some l) (hroom :
      s.floorRoom 1)
    (h : (s.cell c).items = Items.none) (hjudged : ((s.judgeItems c r false).cell c).items = Items.none) :
    s.checkSetup c = s.startsRun reg c r (l.acc.remaining r.pass) := by
  rw [State.checkSetup_clear hstack h, if_pos hjudged, State.judgeItems_eq_self_of_clear hc hjudged,
    State.sendStart_of_room hc hreg hstack hl hroom]

/-! ### The entry into SETUP -/

theorem State.entersSetup_cell (hc : c < 48) (r : Run) : (s.entersSetup c r).cell c = { s.cell c with
    state := .setup, cause := none, stopReason := none, items := Items.none, orderCurrent := false
    timers := { Timers.idle with silence := (s.cell c).timers.silence } } := State.cell_modCell hc _

/-- A run stands at the step its lot's route gives (R23). -/
theorem State.runStep_congr {r : Run} (htst : t.tst = s.tst)
    (hlot : (t.lot? r.handle).map Lot.route = (s.lot? r.handle).map Lot.route) : t.runStep r = s.runStep r := by
  have hroute : ∀ i j, t.routeStep i j = s.routeStep i j := fun i j => by simp only [State.routeStep, State.route?, htst]
  unfold State.runStep
  cases ht : t.lot? r.handle <;> cases hs : s.lot? r.handle <;> simp_all

theorem State.runStep_modLot (r : Run) (h : Nat) {f : Lot → Lot} (hf : ∀ l, (f l).route = l.route) :
    (s.modLot h f).runStep r = s.runStep r := by
  refine State.runStep_congr rfl ?_
  simp only [State.lot?, State.slot_modLot]
  split
  · cases (s.slot r.handle).lot <;> simp [hf]
  · rfl

theorem State.enterSetupN_succ (hc : c < 48) {r : Run} {below : List Run} (hstack : (s.cell c).stack = r :: below)
    (n : Nat) :
    State.enterSetupN (n + 1) s c =
      let t := s.entersSetup c r
      if maskCount (s.cell c).enabled < (s.profileOf (s.runStep r)).minSites then
        if ((t.detachTop c).cell c).stack = [] then (t.detachTop c).toIdle c else State.enterSetupN n (t.detachTop c) c
      else if lapsed s.tbs.floorTime (s.cell c).expiry then t.abandonSetup c
      else s.setsUp c r := by
  have hentered : ((s.setLotState r.handle .assigned).modCell c fun x => { x.enter .setup with
        items := Items.none
        timers := { (x.enter .setup).timers with load := none, kit := none, soak := none }
        orderCurrent := false }) = s.entersSetup c r := rfl
  have hstep : (s.entersSetup c r).runStep r = s.runStep r := State.runStep_modLot r r.handle fun _ => rfl
  have hcell := State.entersSetup_cell (s := s) hc r
  rw [State.enterSetupN, State.top?_of_stack hstack]
  dsimp only
  rw [hentered, hstep, hcell]
  simp only [List.isEmpty_iff]
  rfl

/-- A cell that can carry its top run goes into SETUP for it (R70). -/
theorem State.enterSetup_of_carries (hc : c < 48) {r : Run} {below : List Run} (hstack : (s.cell c).stack = r :: below)
    (hcarries : s.carries c r) : s.enterSetup c = s.setsUp c r := by
  obtain ⟨hsites, hexpiry⟩ := hcarries
  have hlapsed : ¬lapsed s.tbs.floorTime (s.cell c).expiry = true := fun h => by
    obtain ⟨f, e, hf, he, hle⟩ := lapsed_eq_true.mp h
    exact absurd (hexpiry f e hf he) (by omega)
  rw [State.enterSetup, State.enterSetupN_succ hc hstack]
  dsimp only
  rw [if_neg (by omega), if_neg hlapsed]

/-- A cell whose calibration has lapsed abandons the setup it enters (R52, R53). -/
theorem State.enterSetup_of_lapsed (hc : c < 48) {r : Run} {below : List Run} (hstack : (s.cell c).stack = r :: below)
    (hsites : (s.profileOf (s.runStep r)).minSites ≤ maskCount (s.cell c).enabled)
    (hlapsed : lapsed s.tbs.floorTime (s.cell c).expiry = true) : s.enterSetup c = (s.entersSetup c r).judgeLapse c := by
  rw [State.enterSetup, State.enterSetupN_succ hc hstack, State.judgeLapse, State.entersSetup_cell hc]
  dsimp only
  rw [if_neg (by omega), if_pos hlapsed]
  exact (if_pos hlapsed).symm

/-- A cell without runs is IDLE, which starts a pass (R39, R82). -/
theorem State.toIdle_eq_cellGoesOn (h : (s.cell c).stack = []) : s.toIdle c = s.cellGoesOn c := by
  unfold State.cellGoesOn
  rw [h]
  rfl

theorem State.afterTop_of_empty (h : (s.cell c).stack = []) : s.afterTop c = s.cellGoesOn c := by
  rw [State.afterTop, h, ← State.toIdle_eq_cellGoesOn h]
  rfl

/-- A cell whose lower run it can carry goes into SETUP for it (R70, R82). -/
theorem State.afterTop_of_carries (hc : c < 48) {r : Run} {below : List Run} (hstack : (s.cell c).stack = r :: below)
    (hcarries : s.carries c r) : s.afterTop c = s.cellGoesOn c := by
  unfold State.afterTop State.cellGoesOn
  rw [hstack]
  exact State.enterSetup_of_carries hc hstack hcarries

/-- With one run on the stack the fuel of the entry is more than it needs. -/
theorem State.enterSetupN_of_single (hc : c < 48) {r : Run} (hstack : (s.cell c).stack = [r]) (n : Nat) :
    State.enterSetupN (n + 1) s c = s.enterSetup c := by
  have hgone : (((s.entersSetup c r).detachTop c).cell c).stack = [] := by
    refine List.eq_nil_of_length_eq_zero (Nat.le_zero.mp (State.detachTop_length hc ?_))
    rw [State.entersSetup_cell hc]
    simp [hstack]
  rw [State.enterSetup, State.enterSetupN_succ hc hstack, State.enterSetupN_succ hc hstack]
  dsimp only
  rw [if_pos hgone, if_pos hgone]

/-- A top run without a marked pass end detached (R51). -/
theorem State.detachTop_of_lot (hc : c < 48) {r : Run} {below : List Run} {l : Lot} (hstack : (s.cell c).stack = r :: below)
    (hbelow : ∀ y ∈ below, y.handle ≠ r.handle) (hstopped : r.stopped = none) (hl : s.lot? r.handle = some l)
    (hfew : r.segOpen = true → l.segments.length < 4) :
    s.detachTop c = (s.sends r.handle (l.closedBy r .detached) false).popTop c := by
  unfold State.detachTop
  rw [State.top?_of_stack hstack]
  dsimp only
  rw [State.settleStopped_unmarked (State.top?_closeIfOpen hc hstack _) (by split <;> exact hstopped)]
  dsimp only
  rw [State.closeIfOpen_popTop hstack hbelow hl fun ho => (hfew ho).ne, State.sendLot_popTop (State.lot?_setLot hl _),
    State.sends_setLot]

end Sys2Proof.Machine
end

section
/-! A dispatch pass: the walk of the queue, the best cell of a member, the pair and the preemption, and the entry into
SETUP they
lead to (R62 to R71, R74, R78, R79). -/

namespace Sys2Proof.Machine

set_option Elab.async false

variable {s t : State} {c : Nat}

/-! ### A run that the sites cannot carry -/

@[simp] theorem State.sends_state (h : Nat) (l : Lot) (st : LotState) (new : Bool) :
    s.sends h { l with state := st } new = s.sends h l new := rfl

theorem Lot.closedBy_state (l : Lot) (r : Run) (cause : CloseCause) (st : LotState) :
    ({ l with state := st } : Lot).closedBy r cause = { l.closedBy r cause with state := st } := by
  unfold Lot.closedBy
  split <;> rfl

theorem State.entersSetup_of_lot {r : Run} {l : Lot} (hl : s.lot? r.handle = some l) : s.entersSetup c r =
    (s.setLot r.handle { l with state := .assigned }).modCell c fun x => { x with
      state := .setup
      cause := none
      stopReason := none
      items := Items.none
      orderCurrent := false
      timers := { Timers.idle with silence := x.timers.silence } } := by
  unfold State.entersSetup State.setLotState
  rw [State.modLot_of_lot hl]

/-- The run removed as a detached one before anything of the setup is judged (R70). -/
theorem State.detachTop_entersSetup (hc : c < 48) {r : Run} {below : List Run} {l : Lot}
    (hstack : (s.cell c).stack = r :: below)
    (hbelow : ∀ y ∈ below, y.handle ≠ r.handle) (hstopped : r.stopped = none) (hl : s.lot? r.handle = some l)
    (hfew : r.segOpen = true → l.segments.length < 4) : (s.entersSetup c r).detachTop c =
      (s.sends r.handle (l.closedBy r .detached) false).modCell c fun _ =>
        { (s.entersSetup c r).cell c with stack := below, ctx := none } := by
  have hlot : (s.entersSetup c r).lot? r.handle = some { l with state := .assigned } := by
    rw [State.entersSetup_of_lot hl]
    exact State.lot?_setLot hl _
  have hcell := State.entersSetup_cell (s := s) hc r
  rw [State.detachTop_of_lot hc (by rw [hcell]; exact hstack) hbelow hstopped hlot hfew, hcell, State.entersSetup_of_lot hl,
    Lot.closedBy_state, State.sends_state, State.sends_modCell, State.sends_setLot, State.popTop, State.modCell_modCell]
  refine State.modCell_congr ?_
  rw [State.cell_of_ctr (State.sends_frame _ _ _).2.2.2.2, hstack]
  rfl

theorem setupJudged : Claims.setupJudged := by
  refine ⟨fun s c r below hc hstack hcarries => State.enterSetup_of_carries hc hstack hcarries, fun s c r below hc
    hstack => ?_,
    fun s c r reg standing load kit soak hc hreg hroom => ?_, fun s c r below reg l hc hreg hstack hl => ?_⟩
  · intro entered sites
    have hcell := State.entersSetup_cell (s := s) hc r
    refine ⟨fun hsites hnot => State.enterSetup_of_lapsed hc hstack hsites ?_, fun l hsites hstopped hl hbelow hfew => ?_⟩
    · by_contra hlapsed
      refine hnot ⟨hsites, fun f e hf he => ?_⟩
      by_contra hle
      exact hlapsed (lapsed_eq_true.mpr ⟨f, e, hf, he, by omega⟩)
    · have hdetach := State.detachTop_entersSetup hc hstack hbelow hstopped hl hfew
      have hmoves := ((Moves.refl (C := (· = c)) (S := False) s).setLotState r.handle .assigned).modCell c fun x => { x with
        state := .setup, cause := none, stopReason := none, items := Items.none, orderCurrent := false
        timers := { Timers.idle with silence := x.timers.silence } }
      have hmoves : Moves (· = c) False s (entered.detachTop c) := hmoves.detachTop c
      obtain ⟨hpcl, hfcn, -, -, -⟩ := State.sends_frame (s := s) r.handle (l.closedBy r .detached) false
      have hvcell : (entered.detachTop c).cell c = { entered.cell c with stack := below, ctx := none } := by
        rw [hdetach]
        exact State.cell_modCell hc _
      have henter : s.enterSetup c = if ((entered.detachTop c).cell c).stack = [] then (entered.detachTop c).toIdle c
          else State.enterSetupN 1 (entered.detachTop c) c := by
        rw [State.enterSetup, State.enterSetupN_succ hc hstack]
        exact if_pos hsites
      refine ⟨entered.detachTop c, ?_, hvcell, hmoves.sameOtherCells, hmoves.base, ?_, ?_, fun hnone => ?_, fun low hlow
        => ?_⟩
      · rw [hdetach]
        exact State.sentBack_of_sends (State.lt_of_lot? hl) rfl rfl rfl
      · rw [hdetach]
        exact hpcl
      · rw [hdetach]
        exact hfcn
      · have hempty : ((entered.detachTop c).cell c).stack = [] := by rw [hvcell]; exact hnone
        rw [henter, if_pos hempty, State.toIdle_eq_cellGoesOn hempty]
      · have hsingle : ((entered.detachTop c).cell c).stack = [low] := by rw [hvcell]; exact hlow
        rw [henter, if_neg (by rw [hsingle]; nofun), State.enterSetupN_of_single hc hsingle]
  · intro x v y hload hkit hsoak sends
    have hload' : load = true ↔ (standing = true ∧ y.order ≠ none) ∨ (y.order = none ∧ loadMismatch y v = true) := by
      rw [hload, loadMismatch_iff]
    have hkit' : kit = kitMismatch y x.kit := Bool.eq_iff_iff.mpr (hkit.trans (kitMismatch_iff _ _).symm)
    have hsoak' : soak = soakMismatch y x.temp := Bool.eq_iff_iff.mpr (hsoak.trans (soakMismatch_iff _ _).symm)
    refine (State.judgeItems_of_room hreg hroom hload' hkit' hsoak').trans ?_
    exact congrArg (State.sendsFloor · _) (State.modCell_congr rfl)
  · refine ⟨State.checkSetup_pending, fun hitems => ⟨fun hjudged => ?_, fun hjudged hroom =>
      State.checkSetup_starts hc hreg hstack hl hroom hitems hjudged⟩⟩
    rw [State.checkSetup_clear hstack hitems, if_neg hjudged]

/-! ### What a setup leaves -/

/-- From `s` to `t` the lots and the lists stand, and a cell's state and stack. -/
def State.judges (s : State) (c : Nat) (t : State) : Prop :=
  t.ldr = s.ldr ∧ t.dar = s.dar ∧ t.rlu = s.rlu ∧ (t.cell c).state = (s.cell c).state ∧ (t.cell c).stack = (s.cell c).stack

theorem State.judges.trans {u : State} (h : s.judges c t) (k : t.judges c u) : s.judges c u := by
  obtain ⟨hl, hd, hr, hs, hk⟩ := h
  obtain ⟨kl, kd, kr, ks, kk⟩ := k
  exact ⟨kl.trans hl, kd.trans hd, kr.trans hr, ks.trans hs, kk.trans hk⟩

theorem State.judges_order (r : Option Run) (o : Order) : s.judges c (s.order c r o) := by
  obtain ⟨x, y, h⟩ := State.enqueue_port (s := s) .floor ⟨((s.reg? c).map Registration.addr).getD 0, Config.stationAddress,
    s.tst.settings.frameType, .order (orderHeader o.kind c r) o⟩
  unfold State.order
  rw [h]
  exact ⟨rfl, rfl, rfl, rfl, rfl⟩

theorem State.judges_modCell (hc : c < 48) {f : Cell → Cell} (hstate : (f (s.cell c)).state = (s.cell c).state)
    (hstack : (f (s.cell c)).stack = (s.cell c).stack) : s.judges c (s.modCell c f) := by
  refine ⟨rfl, rfl, rfl, ?_, ?_⟩ <;> rw [State.cell_modCell hc] <;> assumption

theorem State.judges_judgeItems (hc : c < 48) (r : Run) (standing : Bool) : s.judges c (s.judgeItems c r standing) := by
  have hload : ∀ (u : State) (b : Bool) (v : ProgVals), u.judges c (if b then u.startLoad c r v else u) := fun u b v => by
    cases b with
    | false => exact ⟨rfl, rfl, rfl, rfl, rfl⟩
    | true =>
      rw [if_pos rfl, State.startLoad]
      dsimp only
      split
      · exact (State.judges_modCell hc rfl rfl).trans (State.judges_order _ _)
      · exact State.judges_modCell hc rfl rfl
  have hkit : ∀ (u : State) (b : Bool) (k : Nat), u.judges c (if b then u.startKit c r k else u) := fun u b k => by
    cases b with
    | false => exact ⟨rfl, rfl, rfl, rfl, rfl⟩
    | true => exact (State.judges_modCell hc rfl rfl).trans (State.judges_order _ _)
  have hsoak : ∀ (u : State) (b : Bool) (x : Temp), u.judges c (if b then u.startSoak c r x else u) := fun u b x => by
    cases b with
    | false => exact ⟨rfl, rfl, rfl, rfl, rfl⟩
    | true => exact (State.judges_modCell hc rfl rfl).trans (State.judges_order _ _)
  exact ((hload _ _ _).trans (hkit _ _ _)).trans (hsoak _ _ _)

/-- START_RUN leaves the lots and the lists (R74). -/
theorem State.sendStart_leaves (hc : c < 48) {r : Run} {below : List Run} (hstack : (s.cell c).stack = r :: below) :
    (s.sendStart c r).ldr = s.ldr ∧ (s.sendStart c r).dar = s.dar ∧ (s.sendStart c r).rlu = s.rlu ∧
      ((s.sendStart c r).cell c).state = .starting ∧ ((s.sendStart c r).cell c).stack = { r with awaiting := true } ::
        below := by
  unfold State.sendStart
  dsimp only
  rw [State.modTop_of_stack (r := r) (below := below) (by rw [State.cell_modCell hc]; exact hstack), State.modCell_modCell]
  obtain ⟨hl, hd, hr, hs, hk⟩ := State.judges_order (s := s.modCell c _) (c := c) (some r) _
  exact ⟨hl, hd, hr, hs.trans (by rw [State.cell_modCell hc, State.cell_modCell hc]; rfl),
    hk.trans (by rw [State.cell_modCell hc])⟩

/-- A judgement of a setup leaves the lots and the lists, and its cell prepares the run (R70, R74). -/
theorem State.checkSetup_leaves (hc : c < 48) {r : Run} {below : List Run} (hstate : (s.cell c).state = .setup)
    (hstack : (s.cell c).stack = r :: below) : (s.checkSetup c).ldr = s.ldr ∧ (s.checkSetup c).dar = s.dar ∧
      (s.checkSetup c).rlu = s.rlu ∧ ((s.checkSetup c).cell c).prepares r below := by
  by_cases hitems : (s.cell c).items = Items.none
  · have hjudged := State.judges_judgeItems (s := s) hc r false
    obtain ⟨hl, hd, hr, hs, hk⟩ := hjudged
    rw [State.checkSetup_clear hstack hitems]
    split
    · obtain ⟨kl, kd, kr, ks, kk⟩ := State.sendStart_leaves hc (hk.trans hstack)
      exact ⟨kl.trans hl, kd.trans hd, kr.trans hr, .inr ⟨ks, kk⟩⟩
    · exact ⟨hl, hd, hr, .inl ⟨hs.trans hstate, ‹_›, hk.trans hstack⟩⟩
  · rw [State.checkSetup_pending hitems]
    exact ⟨rfl, rfl, rfl, .inl ⟨hstate, hitems, hstack⟩⟩

/-- A setup leaves the other lots and the lists, its lot ASSIGNED and its cell preparing the run (R70). -/
theorem State.setsUp_leaves (hc : c < 48) {r : Run} {below : List Run} (hstack : (s.cell c).stack = r :: below) :
    (s.setsUp c r).ldr = (s.setLotState r.handle .assigned).ldr ∧ (s.setsUp c r).dar = s.dar ∧ (s.setsUp c r).rlu = s.rlu ∧
      ((s.setsUp c r).cell c).prepares r below := by
  have hcell := State.entersSetup_cell (s := s) hc r
  obtain ⟨hl, hd, hr, hs, hk⟩ := State.judges_judgeItems (s := s.entersSetup c r) hc r true
  obtain ⟨kl, kd, kr, hprepares⟩ := State.checkSetup_leaves hc (s := (s.entersSetup c r).judgeItems c r true)
    (hs.trans (by rw [hcell])) (hk.trans (by rw [hcell]; exact hstack))
  exact ⟨kl.trans hl, kd.trans hd, kr.trans hr, hprepares⟩

/-! ### The best candidate -/

/-- A candidate that no other of the first `n` betters: a higher key, or an equal key at a lower number (R68). -/
def bestOf (ok : Nat → Bool) (key : Nat → Nat) (n c : Nat) : Prop :=
  c < n ∧ ok c = true ∧ ∀ d, d < n → ok d = true → key d < key c ∨ (key d = key c ∧ c ≤ d)

theorem foldl_better_range (ok : Nat → Bool) (key : Nat → Nat) (n : Nat) :
    (∀ x, (List.range n).foldl (fun b d => if ok d then better b d (key d) else b) none = some x →
      x.2 = key x.1 ∧ bestOf ok key n x.1) ∧
    ((List.range n).foldl (fun b d => if ok d then better b d (key d) else b) none = none → ∀ d, d < n → ok d = false) := by
  induction n with
  | zero => exact ⟨nofun, fun _ _ hd => absurd hd (Nat.not_lt_zero _)⟩
  | succ n ih =>
    obtain ⟨hsome, hnone⟩ := ih
    rw [List.range_succ, List.foldl_append, List.foldl_cons, List.foldl_nil]
    cases hn : ok n with
    | false =>
      rw [if_neg Bool.false_ne_true]
      refine ⟨fun x hx => ?_, fun h d hd => ?_⟩
      · obtain ⟨hkey, hlt, hok, hbest⟩ := hsome x hx
        refine ⟨hkey, by omega, hok, fun d hd hdok => hbest d ?_ hdok⟩
        rcases Nat.lt_succ_iff_lt_or_eq.mp hd with hlt | rfl
        · exact hlt
        · rw [hn] at hdok
          cases hdok
      · rcases Nat.lt_succ_iff_lt_or_eq.mp hd with hlt | rfl
        · exact hnone h d hlt
        · exact hn
    | true =>
      rw [if_pos rfl]
      rcases hbest : (List.range n).foldl (fun b d => if ok d then better b d (key d) else b) none with _ | ⟨b, k⟩
      · refine ⟨fun x hx => ?_, nofun⟩
        cases hx
        refine ⟨rfl, Nat.lt_succ_self _, hn, fun d hd hdok => ?_⟩
        rcases Nat.lt_succ_iff_lt_or_eq.mp hd with hlt | rfl
        · rw [hnone hbest d hlt] at hdok
          cases hdok
        · exact .inr ⟨rfl, le_rfl⟩
      · obtain ⟨hkey, hlt, hok, hmax⟩ := hsome _ hbest
        dsimp only at hkey hlt hok hmax
        have hend : ∀ d, d < n + 1 → ok d = true → d = n ∨ key d < key b ∨ (key d = key b ∧ b ≤ d) := fun d hd hdok =>
          (Nat.lt_succ_iff_lt_or_eq.mp hd).symm.imp_right fun h => hmax d h hdok
        refine ⟨fun x hx => ?_, fun h => ?_⟩
        · simp only [better] at hx
          split at hx
          · cases hx
            refine ⟨rfl, Nat.lt_succ_self _, hn, fun d hd hdok => ?_⟩
            rcases hend d hd hdok with rfl | h
            · exact .inr ⟨rfl, le_rfl⟩
            · refine .inl ?_
              dsimp only
              omega
          · cases hx
            refine ⟨hkey, by omega, hok, fun d hd hdok => ?_⟩
            dsimp only
            rcases hend d hd hdok with rfl | h
            · omega
            · exact h
        · simp only [better] at h
          split at h <;> cases h

theorem bestOf_unique {ok : Nat → Bool} {key : Nat → Nat} {n c d : Nat} (hc : bestOf ok key n c) (hd : bestOf ok key n d) :
    c = d := by
  obtain ⟨hclt, hcok, hcbest⟩ := hc
  obtain ⟨hdlt, hdok, hdbest⟩ := hd
  have := hcbest d hdlt hdok
  have := hdbest c hclt hcok
  omega

theorem bestCell_eq_none_iff {ok : Nat → Bool} {key : Nat → Nat} : bestCell ok key = none ↔ ∀ d, d < 48 → ok d = false := by
  obtain ⟨hsome, hnone⟩ := foldl_better_range ok key 48
  unfold bestCell
  rw [Option.map_eq_none_iff]
  refine ⟨hnone, fun h => ?_⟩
  by_contra hne
  obtain ⟨x, hx⟩ := Option.ne_none_iff_exists'.mp hne
  obtain ⟨-, hlt, hok, -⟩ := hsome x hx
  rw [h _ hlt] at hok
  cases hok

theorem bestCell_eq_some_iff {ok : Nat → Bool} {key : Nat → Nat} : bestCell ok key = some c ↔ bestOf ok key 48 c := by
  obtain ⟨hsome, -⟩ := foldl_better_range ok key 48
  have hbest : ∀ d, bestCell ok key = some d → bestOf ok key 48 d := fun d h => by
    obtain ⟨x, hx, rfl⟩ := Option.map_eq_some_iff.mp h
    exact (hsome x hx).2
  refine ⟨hbest c, fun h => ?_⟩
  have hne : bestCell ok key ≠ none := fun hnone => by
    have := bestCell_eq_none_iff.mp hnone c h.1
    rw [h.2.1] at this
    cases this
  obtain ⟨d, hd⟩ := Option.ne_none_iff_exists'.mp hne
  rw [hd, bestOf_unique (hbest d hd) h]

/-! ### The walk -/

theorem State.walk_eq_foldl (l : List Member) : ∀ (s : State) (used : List Nat), s.walk used l =
    (l.foldl (fun x m => x.1.walkMember x.2 m) (s, used)).1 := by
  induction l with
  | nil => exact fun _ _ => rfl
  | cons m l ih => exact fun s used => ih _ _

theorem State.passBarred_iff : s.passBarred = true ↔ s.tbs.inhibited = true ∨ s.tbs.mode = .safe ∨ s.tbs.floorTime =
    none := by
  simp [State.passBarred, or_assoc]

theorem State.eligible_iff {h : Nat} {l : Lot} : s.eligible h l c = true ↔
    (s.cell c).state = .idle ∧ (s.cell c).order = none ∧ s.pairOk h l c = true := by
  simp [State.eligible, and_assoc]

theorem State.isVictim_iff {h : Nat} {l : Lot} : s.isVictim h l c = true ↔
    ((s.cell c).state = .running ∨ (s.cell c).state = .paused) ∧ (s.cell c).stack.length = 1 ∧
      (s.topClass c = 2 ∨ s.topClass c = 3) ∧ s.pairOk h l c = true := by
  simp [State.isVictim, and_assoc]

theorem pinAllows_iff {pins : List Pin} {g : Nat} : pinAllows pins g c = true ↔
    ∀ p ∈ pins, (p.group = g → p.cell = c) ∧ (p.cell = c → p.exclusive = true → p.group = g) := by
  unfold pinAllows
  simp only [List.all_eq_true, Bool.and_eq_true, Bool.or_eq_true, Bool.not_eq_true', bne_iff_ne, ne_eq, beq_iff_eq,
    Bool.and_eq_false_imp]
  refine forall₂_congr fun p _ => and_congr imp_iff_not_or.symm ?_
  cases p.exclusive <;> simp [imp_iff_not_or]

theorem State.pairOk_iff {h : Nat} {l : Lot} : s.pairOk h l c = true ↔ ∃ reg now e, s.reg? c = some reg ∧
    s.tbs.floorTime = some now ∧ (s.cell c).expiry = some e ∧ (s.group (groupOf h)).authority.getLsbD c = true ∧
    (∀ p ∈ s.pinList, (p.group = groupOf h → p.cell = c) ∧ (p.cell = c → p.exclusive = true → p.group = groupOf h)) ∧
    (s.programOf (s.lotStep l)).caps &&& reg.caps = (s.programOf (s.lotStep l)).caps ∧
    reg.temps.getLsbD (s.lotStep l).temp.code = true ∧
    (s.profileOf (s.lotStep l)).minSites ≤ maskCount (s.cell c).enabled ∧ now < e ∧
    estimate (l.acc.remaining l.pass) (maskCount (s.cell c).enabled) (s.programOf (s.lotStep l)).indexTime +
      s.tst.settings.calMargin ≤ e - now := by
  unfold State.pairOk
  cases hreg : s.reg? c with
  | none => simp
  | some reg =>
    cases hnow : s.tbs.floorTime with
    | none => simp
    | some now =>
      cases he : (s.cell c).expiry with
      | none => simp
      | some e => simp [pinAllows_iff, maskSubset, tempAble, and_assoc]

/-- A free candidate of a walk: not used before in it (R68). -/
def freeCell (used : List Nat) (ok : Nat → Bool) (c : Nat) : Prop := c < 48 ∧ c ∉ used ∧ ok c = true

theorem freeCell_iff {used : List Nat} {ok : Nat → Bool} : freeCell used ok c ↔
    c < 48 ∧ (!used.contains c && ok c) = true := by
  simp [freeCell]

theorem bestCell_of_free {used : List Nat} {ok : Nat → Bool} {key : Nat → Nat} (hc : freeCell used ok c)
    (hbest : ∀ d, freeCell used ok d → key d < key c ∨ (key d = key c ∧ c ≤ d)) :
    bestCell (fun c => !used.contains c && ok c) key = some c :=
  bestCell_eq_some_iff.mpr ⟨hc.1, (freeCell_iff.mp hc).2, fun d hd hok => hbest d (freeCell_iff.mpr ⟨hd, hok⟩)⟩

theorem bestCell_of_none_free {used : List Nat} {ok : Nat → Bool} {key : Nat → Nat} (h : ∀ c, ¬freeCell used ok c) :
    bestCell (fun c => !used.contains c && ok c) key = none :=
  bestCell_eq_none_iff.mpr fun d hd => Bool.eq_false_iff.mpr fun hok => h d (freeCell_iff.mpr ⟨hd, hok⟩)

theorem State.score_le (l : Lot) (c : Nat) : s.score l c ≤ 1000 := scoreOf_le _ _ _ _ _

/-! ### A pair and a preemption -/

/-- An eligible cell carries the lot (R52, R54, R64). -/
theorem State.carries_of_pairOk {h : Nat} {l : Lot} {r : Run} (hok : s.pairOk h l c = true) (htst : t.tst = s.tst)
    (htbs : t.tbs = s.tbs) (henabled : (t.cell c).enabled = (s.cell c).enabled) (hexpiry : (t.cell c).expiry = (s.cell
      c).expiry)
    (hstep : t.runStep r = s.lotStep l) : t.carries c r := by
  obtain ⟨reg, now, e, -, hnow, he, -, -, -, -, hsites, hlt, -⟩ := State.pairOk_iff.mp hok
  refine ⟨?_, fun f x hf hx => ?_⟩
  · rw [hstep, henabled]
    simpa only [State.profileOf, State.profile?, htst] using hsites
  · rw [htbs, hnow] at hf
    rw [hexpiry, he] at hx
    cases hf
    cases hx
    exact hlt

theorem State.runStep_of_lot {r : Run} {l : Lot} (hl : s.lot? r.handle = some l) :
    s.runStep r = s.routeStep l.route r.step := by
  rw [State.runStep, hl]

/-- A lot paired with an eligible cell (R69, R197). -/
theorem State.pair_eq {h : Nat} {l : Lot} (hc : c < 48) (hl : s.lot? h = some l) (hok : s.eligible h l c = true)
    (hstack : (s.cell c).stack = []) :
    let r : Run := ⟨h, (s.slot h).inst, l.step, l.pass, false, false, none⟩
    s.pair h l c = ((((s.leaveQueue h).setLot h { l with state := .assigned }).modCell c fun x => { x with
      stack := [r], ctx := none }).setsUp c r).event .paired (s.score l c) := by
  intro r
  obtain ⟨-, -, hpair⟩ := State.eligible_iff.mp hok
  have hlot : (s.leaveQueue h).setLotState h .assigned = (s.leaveQueue h).setLot h { l with state := .assigned } :=
    State.modLot_of_lot (s := s.leaveQueue h) hl _
  have hinst : (((s.leaveQueue h).setLot h { l with state := .assigned }).slot h).inst = (s.slot h).inst :=
    State.inst_setLot _ _ _
  have hpush : ((s.leaveQueue h).setLot h { l with state := .assigned }).pushRun c r =
      ((s.leaveQueue h).setLot h { l with state := .assigned }).modCell c fun x => { x with stack := [r], ctx := none } :=
    State.modCell_congr (by
      rw [State.setLot_cell, State.leaveQueue_cell, hstack])
  set t := ((s.leaveQueue h).setLot h { l with state := .assigned }).modCell c fun x => { x with stack := [r], ctx :=
    none } with ht
  have hcell : t.cell c = { s.cell c with stack := [r], ctx := none } := State.cell_modCell hc _
  have hrun : t.lot? r.handle = some { l with state := .assigned } := State.lot?_setLot_of_lt (State.lt_of_lot? hl) _
  have hcarries : t.carries c r := by
    refine State.carries_of_pairOk hpair rfl rfl (by rw [hcell]) (by rw [hcell]) ?_
    rw [State.runStep_of_lot hrun]
    rfl
  unfold State.pair
  dsimp only
  rw [hlot, hinst]
  refine congrArg (State.event · .paired (s.score l c)) ?_
  refine (congrArg (State.enterSetup · c) hpush).trans ?_
  exact State.enterSetup_of_carries hc (by rw [hcell]) hcarries

/-- A lot paired with an eligible cell leaves the queue ASSIGNED, and its cell prepares its run (R69). -/
theorem State.pair_leaves {h : Nat} {l : Lot} (hc : c < 48) (hl : s.lot? h = some l) (hok : s.eligible h l c = true)
    (hstack : (s.cell c).stack = []) :
    ((s.pair h l c).cell c).prepares ⟨h, (s.slot h).inst, l.step, l.pass, false, false, none⟩ [] ∧
      (s.pair h l c).ldr = (s.setLot h { l with state := .assigned }).ldr ∧ (s.pair h l c).rlu = s.rlu ∧
      (s.pair h l c).dar = (s.leaveQueue h).dar := by
  have hpair := State.pair_eq hc hl hok hstack
  dsimp only at hpair
  rw [hpair]
  set r : Run := ⟨h, (s.slot h).inst, l.step, l.pass, false, false, none⟩
  set t := ((s.leaveQueue h).setLot h { l with state := .assigned }).modCell c fun x => { x with stack := [r], ctx :=
    none } with ht
  have hcell : t.cell c = { s.cell c with stack := [r], ctx := none } := State.cell_modCell hc _
  have hrun : t.lot? h = some { l with state := .assigned } := State.lot?_setLot_of_lt (State.lt_of_lot? hl) _
  obtain ⟨hldr, hdar, hrlu, hprepares⟩ := State.setsUp_leaves (s := t) hc (r := r) (below := []) (by rw [hcell])
  refine ⟨hprepares, hldr.trans ?_, hrlu, hdar⟩
  have hassigned : t.setLotState h .assigned = t := by
    rw [State.setLotState, State.modLot_of_lot hrun]
    exact State.setLot_self hrun
  rw [hassigned]
  rfl

/-- A lot given a victim becomes its incoming run, and the victim's stop is requested (R48, R79). -/
theorem State.preempt_eq {h : Nat} {l : Lot} {reg : Registration} {r : Run} (hc : c < 48) (hfits : s.CellsFit)
    (hl : s.lot? h = some l) (hok : s.isVictim h l c = true) (hreg : s.reg? c = some reg) (hstack : (s.cell c).stack = [r])
    (hroom : s.floorRoom 1) :
    s.preempt h l c = ((((((s.leaveQueue h).setLot h { l with state := .assigned }).modCell c fun x => { x with
        incoming := some ⟨h, (s.slot h).inst, l.step, l.pass, false, false, none⟩ }).stopRequested reg c r .preempt).event
      .preempted (s.topClass c)).event .paired (s.score l c)) := by
  obtain ⟨hstate, -, -, -⟩ := State.isVictim_iff.mp hok
  have hlot : (s.leaveQueue h).setLotState h .assigned = (s.leaveQueue h).setLot h { l with state := .assigned } :=
    State.modLot_of_lot (s := s.leaveQueue h) hl _
  have hinst : (((s.leaveQueue h).setLot h { l with state := .assigned }).slot h).inst = (s.slot h).inst :=
    State.inst_setLot _ _ _
  unfold State.preempt
  dsimp only
  rw [hlot, hinst]
  set t := ((s.leaveQueue h).setLot h { l with state := .assigned }).modCell c fun x => { x with
    incoming := some (Run.new h (s.slot h).inst l.step l.pass) } with ht
  have hcell : t.cell c = { s.cell c with incoming := some (Run.new h (s.slot h).inst l.step l.pass) } :=
    State.cell_modCell hc _
  have hstops : (t.cell c).state.stops := by
    rw [hcell]
    exact .inr hstate
  have hstop := State.requestStop_of_room (s := t) (reg := reg) (r := r) (below := [])
    (by rw [hcell]; exact (hfits c hc).2) hstops hreg (by rw [hcell]; exact hstack) hroom .preempt
  rw [hstop]
  rfl

/-- Settles O25. -/
theorem dispatchPassPairs : Obligations.DispatchPassPairs := by
  refine ⟨setupJudged, fun s hdue => ⟨fun hbarred => ?_, fun hline hmode htime => ?_⟩,
    fun ok key => ⟨fun c => bestCell_eq_some_iff, bestCell_eq_none_iff⟩,
    fun s h c l => ⟨State.eligible_iff, State.isVictim_iff, State.pairOk_iff⟩, fun s used m l hl => ?_,
    fun s h c l hc hl hok hstack => ?_, fun s h c l reg r hc hfits hl hok hreg hstack hroom =>
      State.preempt_eq hc hfits hl hok hreg hstack hroom⟩
  · rw [State.settle, hdue, if_pos rfl, State.dispatchPass, if_pos (State.passBarred_iff.mpr hbarred)]
  · have hfree : ¬s.passBarred = true := fun h => by
      rcases State.passBarred_iff.mp h with h | h | h
      · simp [hline] at h
      · exact hmode h
      · exact htime h
    rw [State.settle, hdue, if_pos rfl, State.dispatchPass, if_neg hfree, State.walk_eq_foldl]
  · intro free pairs victims
    refine ⟨fun c hc hbest => ?_, fun hnone hcls c hc hbest => ?_, fun hnone hno => ?_⟩
    · unfold State.walkMember
      rw [hl]
      dsimp only
      rw [bestCell_of_free hc hbest]
    · have hkey : ∀ d, freeCell used (s.isVictim m.handle l) d →
          s.topClass d * 1001 + s.score l d < s.topClass c * 1001 + s.score l c ∨
            (s.topClass d * 1001 + s.score l d = s.topClass c * 1001 + s.score l c ∧ c ≤ d) := fun d hd => by
        have hcle := State.score_le (s := s) l c
        have hdle := State.score_le (s := s) l d
        rcases hbest d hd with hlt | ⟨heq, hlt | ⟨hscore, hle⟩⟩
        · exact .inl (by omega)
        · exact .inl (by omega)
        · exact .inr ⟨by omega, hle⟩
      unfold State.walkMember
      rw [hl]
      dsimp only
      rw [bestCell_of_none_free hnone]
      dsimp only
      rw [if_pos hcls, bestCell_of_free (key := fun c => s.topClass c * 1001 + s.score l c) hc hkey]
    · unfold State.walkMember
      rw [hl]
      dsimp only
      rw [bestCell_of_none_free hnone]
      dsimp only
      split
      · rename_i hcls
        rw [bestCell_of_none_free (hno.resolve_left fun h => h hcls)]
      · rfl
  · intro r taken
    obtain ⟨hprepares, hldr, hrlu, hdar⟩ := State.pair_leaves hc hl hok hstack
    have hmoves := (Moves.refl (C := (· = c)) (S := True) s).pair h l c
    have hslot : ∀ k, (s.pair h l c).slot k = (s.setLot h { l with state := .assigned }).slot k := fun k => by
      simp only [State.slot, hldr]
    refine ⟨State.pair_eq hc hl hok hstack, hprepares, (hslot h).trans (State.slot_setLot_self (State.lt_of_lot? hl) _),
      ⟨fun k hk => (hslot k).trans (State.slot_setLot_ne hk _), ?_⟩, hmoves.sameOtherCells, hmoves.base, hrlu, hdar⟩
    rw [hldr]
    rfl

end Sys2Proof.Machine
end

section
/-! LOAD_DONE: the answer to an outstanding load order and the LOAD item it completes (R71, R72, R74, R76). -/

namespace Sys2Proof.Machine

set_option Elab.async false

variable {s t : State} {c : Nat}

/-- A cell message whose effect starts no pass and leaves the settings, forwarded after it (R165). -/
theorem fromCell_enqueue (h : s.takes) {kind : Code16} {m : Msg} {take : State → State} (htake : take s = t) (hpass : t.passTaken)
    (htst : t.tst = s.tst) : fromCell kind m take s = .next (t.enqueue .plant (forwardedFrame s kind m m.body)) := by
  have hframe : forwardedFrame t kind m m.body = forwardedFrame s kind m m.body := by simp only [forwardedFrame, htst]
  rw [fromCell_takes h, htake, State.forward, hframe, State.settle_of_passTaken]
  unfold State.passTaken
  rw [State.enqueue_dar]
  exact hpass

/-- An outstanding load order cleared, which starts a pass of an IDLE cell (R71). -/
theorem State.clearOrder_eq : s.clearOrder c = { s.modCell c fun x => { x with order := none, orderCurrent := false } with
    dar := ⟨s.dar.queue, decide ((s.cell c).state = .idle ∧ (s.cell c).order.isSome) || s.dar.passDue⟩ } := by
  unfold State.clearOrder
  dsimp only
  by_cases h : (s.cell c).state = .idle ∧ (s.cell c).order.isSome
  · rw [if_pos h, decide_eq_true h]
    rfl
  · rw [if_neg h, decide_eq_false h]
    rfl

/-- The record of a cell whose load order is answered (R72). -/
def Cell.answered (x : Cell) (ok : Bool) (v : ProgVals) : Cell :=
  { x with loaded := if ok then some v else none, order := none, orderCurrent := false }

/-- The record of a cell whose LOAD item is completed (R72). -/
def Cell.loadCompleted (x : Cell) : Cell :=
  { x with items := { x.items with load := false }, timers := { x.timers with load := none } }

/-- An answer to the order of a cell that is not IDLE starts no pass (R71, R72). -/
theorem State.clearOrder_recordLoaded (hidle : (s.cell c).state ≠ .idle) (ok : Bool) (v : ProgVals) :
    (s.clearOrder c).modCell c (recordLoaded ok v) = s.modCell c fun x => x.answered ok v := by
  have hdar : (⟨s.dar.queue, decide ((s.cell c).state = .idle ∧ (s.cell c).order.isSome) || s.dar.passDue⟩ : Dar) = s.dar := by
    rw [decide_eq_false (fun h => hidle h.1), Bool.false_or]
  rw [State.clearOrder_eq, hdar]
  exact State.modCell_modCell (s := s) c (fun x => { x with order := none, orderCurrent := false }) (recordLoaded ok v)

/-- Completing the LOAD item of an answer goes before the start of its run (R72, R74). -/
theorem State.startsRun_loadCompleted (hc : c < 48) (reg : Registration) (r : Run) (n : Nat) :
    (s.modCell c Cell.loadCompleted).startsRun reg c r n = s.startsRun reg c r n := by
  unfold State.startsRun
  rw [State.modCell_modCell, State.cell_modCell hc]
  rfl

theorem loadMismatch_of_loaded {x : Cell} {v w : ProgVals} (hloaded : x.loaded = some v) (hnumber : v.number = w.number)
    (hrev : v.rev = w.rev) : loadMismatch x w = false := by
  simp [loadMismatch, hloaded, hnumber, hrev]

theorem kitMismatch_of_kit {x : Cell} {kit : Nat} (h : x.kit = some kit) : kitMismatch x kit = false := by
  simp [kitMismatch, h]

theorem soakMismatch_of_setpoint {x : Cell} {temp : Temp} (h : x.setpoint = some temp) (hat : x.atSetpoint = true) :
    soakMismatch x temp = false := by
  simp [soakMismatch, h, hat]

/-- Settles O51. -/
theorem loadDoneAnswersTheOrder : Obligations.LoadDoneAnswersTheOrder := by
  intro m ok v reg s hrun hfits hpass hknows hread hroom c x loaded forwarded answered completed judged
  have hc : c < 48 := hknows.lt
  have hfit : x.Fits := hfits c hc
  have htake : s.takeLoadDone m = s.acceptLoadDone c ok v := by
    unfold State.takeLoadDone
    rw [hread]
    dsimp only
    rw [if_pos hknows.check]
  have hexec : ∀ u : State, s.acceptLoadDone c ok v = u → u.passTaken → u.tst = s.tst →
      exec (.loadDone m) s = .next (u.enqueue .plant (forwardedFrame s Kind.loadDone m m.body)) := fun u hu hp ht =>
    fromCell_enqueue hrun (take := (State.takeLoadDone · m)) (htake.trans hu) hp ht
  have hsent : ∀ u : State, s.acceptLoadDone c ok v = u → u.passTaken → u.tst = s.tst → u.pcl.plantQ = s.pcl.plantQ →
      exec (.loadDone m) s = .next (u.sendsPlant forwarded) := fun u hu hp ht hq => by
    rw [hexec u hu hp ht, State.enqueue_plant_of_room]
    simpa [State.plantRoom, hq] using hroom
  have hcompleted : (completed answered).cell c = (x.answered ok v).loadCompleted := by
    refine (State.cell_modCell hc _).trans ?_
    rw [State.cell_modCell hc]
    rfl
  refine ⟨fun horder => ⟨fun hstate => ?_, fun hstate => ?_⟩, fun ordered horder hcurrent hitem => ?_,
    fun ordered horder hcurrent => ?_⟩
  · refine hsent _ ?_ hpass rfl rfl
    have htakes : takesLoaded x.state = true := by rcases hstate with e | e | e <;> rw [e] <;> rfl
    unfold State.acceptLoadDone
    rw [show (s.cell c).order = none from horder]
    exact if_pos htakes
  · refine hsent _ ?_ hpass rfl rfl
    have htakes : takesLoaded x.state = false := by cases hst : x.state <;> simp_all [takesLoaded]
    unfold State.acceptLoadDone
    rw [show (s.cell c).order = none from horder]
    exact if_neg (by rw [show (s.cell c).state = x.state from rfl, htakes]; nofun)
  · have hsetup : x.state = .setup := by
      by_contra hne
      rw [hfit.items_eq_none hne] at hitem
      cases hitem
    obtain ⟨r, below, hstack⟩ := List.exists_cons_of_length_pos (hfit.length_pos (by simp [hsetup]))
    have hanswered : (s.clearOrder c).modCell c (recordLoaded ok v) = answered :=
      State.clearOrder_recordLoaded (by rw [show (s.cell c).state = x.state from rfl, hsetup]; nofun) ok v
    have haccept : s.acceptLoadDone c ok v = s.loadAnswer c ok v ordered := by
      unfold State.acceptLoadDone
      rw [show (s.cell c).order = some ordered from horder]
      exact if_pos (by rw [show (s.cell c).orderCurrent = true from hcurrent]; exact hitem)
    have hcheck : ok = true → v = ordered → s.acceptLoadDone c ok v = (completed answered).checkSetup c := fun hok hv => by
      rw [haccept, State.loadAnswer, hanswered, if_pos ⟨hok, hv⟩, State.completeLoad, State.modTimers, State.modCell_modCell]
    have hleaves := State.checkSetup_leaves hc (s := completed answered) (r := r) (below := below)
      (by rw [hcompleted]; exact hsetup) (by rw [hcompleted]; exact hstack)
    have hjudged : ok = true → v = ordered → judged answered := fun hok hv => by
      refine hexec _ (hcheck hok hv) ?_ ?_
      · exact (congrArg Dar.passDue hleaves.2.1).trans hpass
      · exact ((Moves.refl (C := (· = c)) (S := True) (completed answered)).checkSetup c).base.2.1
    refine ⟨hjudged, fun hok hv hpending => ?_, fun r' below' l hok hv hkit hsoak hstack' hl => ?_, fun hfails => ?_⟩
    · have hitems : ((completed answered).cell c).items ≠ Items.none := by
        rw [hcompleted]
        intro h
        rcases hpending with e | e
        · have hkit : x.items.kit = false := congrArg Items.kit h
          rw [hkit] at e
          cases e
        · have hsoak : x.items.soak = false := congrArg Items.soak h
          rw [hsoak] at e
          cases e
      exact hsent _ ((hcheck hok hv).trans (State.checkSetup_pending hitems)) hpass rfl rfl
    · intro step hnumber hrev hk hset hat hfroom
      have hclear : ((completed answered).cell c).items = Items.none := by
        rw [hcompleted]
        show (⟨false, x.items.kit, x.items.soak⟩ : Items) = _
        rw [hkit, hsoak]
        rfl
      have hmatched : (completed answered).judgeItems c r' false = completed answered := by
        refine State.judgeItems_of_matched nofun ?_ ?_ ?_ <;> rw [hcompleted]
        · exact loadMismatch_of_loaded (if_pos hok) hnumber hrev
        · exact kitMismatch_of_kit hk
        · exact soakMismatch_of_setpoint hset hat
      refine hsent _ ((hcheck hok hv).trans ?_) hpass rfl rfl
      rw [State.checkSetup_starts hc (s := completed answered) hknows.reg (by rw [hcompleted]; exact hstack') hl hfroom hclear
        (by rw [hmatched]; exact hclear)]
      exact State.startsRun_loadCompleted hc reg r' _
    · have hnot : ¬(ok = true ∧ v = ordered) := by
        rintro ⟨hok, hv⟩
        rcases hfails with h | h
        · rw [hok] at h
          cases h
        · exact h hv
      set w := answered.modTimers c fun t => { t with load := none } with hw
      have hwcell : w.cell c = { x.answered ok v with timers := { x.timers with load := none } } := by
        rw [hw, State.modTimers, State.cell_modCell hc, State.cell_modCell hc]
        rfl
      have hwfits : (w.cell c).Fits := by
        rw [hwcell]
        obtain ⟨hruns, hcause, hstop, hitems, -, hfields⟩ := hfit
        exact ⟨hruns, hcause, hstop, hitems, nofun, hfields⟩
      have haccept' : s.acceptLoadDone c ok v = w.setupFailure c .loadFailed := by
        rw [haccept, State.loadAnswer, hanswered, if_neg hnot]
      have hmoves := ((Moves.refl (C := (· = c)) (S := False) w).setupFailure c .loadFailed).forward Kind.loadDone m m.body
      refine ⟨_, (fromCell_takes hrun Kind.loadDone m (State.takeLoadDone · m)).trans
        (congrArg (fun u : State => Host.Outcome.next (u.forward Kind.loadDone m m.body).settle) (htake.trans haccept')), ?_, ?_, ?_⟩
      · rw [State.forward, State.enqueue_cell, State.setupFailure_cell hc hwfits (by rw [hwcell]; exact .inl hsetup), hwcell]
        rfl
      · intro d hd
        rw [hmoves.sameOtherCells d hd, hw, State.modTimers, State.cell_modCell_ne hd, State.cell_modCell_ne hd]
      · exact hmoves.base
  · have haccept : s.acceptLoadDone c ok v = ((s.clearOrder c).modCell c (recordLoaded ok v)).rejudgeLoad c := by
      unfold State.acceptLoadDone
      rw [show (s.cell c).order = some ordered from horder]
      exact if_neg (by rw [show (s.cell c).orderCurrent = false from hcurrent]; nofun)
    have hcell : answered.cell c = x.answered ok v := State.cell_modCell hc _
    refine ⟨fun hstate => ?_, fun r below hstate hstack => ?_⟩
    · have hrejudge : ∀ u : State, (u.cell c).state ≠ .setup → u.rejudgeLoad c = u := fun u hu => by
        unfold State.rejudgeLoad
        split
        · exact absurd ‹_› hu
        · rfl
      have hrecorded : (s.clearOrder c).modCell c (recordLoaded ok v) =
          { answered with dar := ⟨s.dar.queue, decide (x.state = .idle)⟩ } := by
        have hdue : s.dar.passDue = false := hpass
        have hdar : (decide ((s.cell c).state = .idle ∧ (s.cell c).order.isSome) || s.dar.passDue) = decide (x.state = .idle) := by
          rw [hdue, show (s.cell c).order = some ordered from horder]
          simp [x]
        rw [State.clearOrder_eq, hdar]
        exact congrArg (fun u : State => ({ u with dar := ⟨s.dar.queue, decide (x.state = .idle)⟩ } : State))
          (State.modCell_modCell (s := s) c (fun x => { x with order := none, orderCurrent := false }) (recordLoaded ok v))
      have hu : s.acceptLoadDone c ok v = { answered with dar := ⟨s.dar.queue, decide (x.state = .idle)⟩ } := by
        rw [haccept, hrecorded]
        refine hrejudge _ ?_
        rw [show State.cell { answered with dar := ⟨s.dar.queue, decide (x.state = .idle)⟩ } c = answered.cell c from rfl, hcell]
        exact hstate
      refine (fromCell_takes hrun Kind.loadDone m (State.takeLoadDone · m)).trans ?_
      refine congrArg (fun u : State => Host.Outcome.next u.settle)
        ((congrArg (State.forward · Kind.loadDone m m.body) (htake.trans hu)).trans ?_)
      exact State.forward_of_room (s := { answered with dar := ⟨s.dar.queue, decide (x.state = .idle)⟩ }) hroom _ _ _
    · intro w
      have hrejudge : s.acceptLoadDone c ok v =
          if loadMismatch (x.answered ok v) w then answered.startLoad c r w else (completed answered).checkSetup c := by
        rw [haccept, State.clearOrder_recordLoaded (by rw [show (s.cell c).state = x.state from rfl, hstate]; nofun)]
        unfold State.rejudgeLoad
        rw [show s.modCell c (fun x => x.answered ok v) = answered from rfl, State.top?_of_stack (by rw [hcell]; exact hstack), hcell,
          show (x.answered ok v).state = .setup from hstate]
        rfl
      refine ⟨fun hok hnumber hrev => ?_, fun hfails hfroom => ?_⟩
      · have hmatch : loadMismatch (x.answered ok v) w = false := loadMismatch_of_loaded (if_pos hok) hnumber hrev
        rw [hmatch, if_neg Bool.false_ne_true] at hrejudge
        obtain ⟨-, hdar, -, -⟩ := State.checkSetup_leaves hc (s := completed answered) (r := r) (below := below)
          (by rw [hcompleted]; exact hstate) (by rw [hcompleted]; exact hstack)
        exact hexec _ hrejudge ((congrArg Dar.passDue hdar).trans hpass)
          ((Moves.refl (C := (· = c)) (S := True) (completed answered)).checkSetup c).base.2.1
      · have hmismatch : loadMismatch (x.answered ok v) w = true := by
          rw [loadMismatch_iff]
          rintro ⟨p, hp, hnumber, hrev⟩
          have hok : ok = true := by
            cases hok : ok with
            | true => rfl
            | false =>
              rw [Cell.answered, hok] at hp
              cases hp
          obtain rfl : v = p := Option.some.inj ((if_pos hok).symm.trans hp)
          rcases hfails with h | h | h
          · rw [hok] at h
            cases h
          · exact h hnumber
          · exact h hrev
        rw [hmismatch, if_pos rfl] at hrejudge
        have hload := State.judgeLoad_of_room (s := answered) hknows.reg hfroom r w true
        rw [if_pos rfl, hcell] at hload
        refine hsent _ (hrejudge.trans (hload.trans ?_)) hpass rfl rfl
        refine congrArg (State.sendsFloor · [s.orderFrame reg c (some r) (.loadProgram w)]) (State.modCell_congr ?_)
        rw [hcell]
        simp [Cell.loadJudged, Cell.answered]
        rfl

end Sys2Proof.Machine
end

section
/-! STATUS of a cell without a run: the state it leads to, what it records, and the site mask it draws (R42 to R46, R52,
R56 to R58, R71). -/

namespace Sys2Proof.Machine

set_option Elab.async false

variable {s t : State} {c : Nat}

/-! ### A state with one cell, the port and the pass flag changed -/

/-- The state with the record of a cell, the port and the pass flag as given. -/
def State.withCell (s : State) (c : Nat) (y : Cell) (p : Pcl) (due : Bool) : State :=
  { s.modCell c fun _ => y with pcl := p, dar := ⟨s.dar.queue, due⟩ }

/-- The port with frames added to the floor-bound queue. -/
def Pcl.withFloor (p : Pcl) (l : List Frame) : Pcl := { p with floorQ := p.floorQ ++ l }

/-- The port with a notice produced now in the plant-bound queue (R181). -/
def State.toldAt (s : State) (p : Pcl) (b : NoticeBody) : Pcl :=
  { p with
    noticeSeq := (p.noticeSeq + 1) % 65536
    plantQ := p.plantQ ++ [⟨s.tst.settings.mgmtAddr, Config.stationAddress, s.tst.settings.frameType,
      .notice (noticeHeader b) ⟨p.noticeSeq, s.tbs.floorTime, b⟩⟩] }

section WithCell

variable {y : Cell} {p : Pcl} {due : Bool}

theorem State.withCell_self (s : State) (c : Nat) : s = s.withCell c (s.cell c) s.pcl s.dar.passDue := by
  unfold State.withCell
  rw [State.modCell_self rfl]

theorem State.withCell_cell (hc : c < 48) : (s.withCell c y p due).cell c = y := State.cell_modCell hc _

theorem State.withCell_modCell (f : Cell → Cell) : (s.withCell c y p due).modCell c f = s.withCell c (f y) p due := by
  have h := State.modCell_modCell (s := s) c (fun _ => y) f
  exact congrArg (fun t : State => ({ t with pcl := p, dar := ⟨s.dar.queue, due⟩ } : State)) h

theorem State.withCell_order {reg : Registration} (hreg : s.reg? c = some reg) (hroom : p.floorQ.length < queueCapacity)
    (run : Option Run) (o : Order) : (s.withCell c y p due).order c run o =
      s.withCell c y (p.withFloor [s.orderFrame reg c run o]) due :=
  State.order_of_room (s := s.withCell c y p due) hreg hroom run o

theorem State.withCell_notice (haddr : s.tst.settings.mgmtAddr ≠ 0) (hlink : p.plantLink = true)
    (hroom : p.plantQ.length < queueCapacity) (b : NoticeBody) :
    (s.withCell c y p due).notice b = s.withCell c y (s.toldAt p b) due :=
  State.notice_of_go (s := s.withCell c y p due) ⟨haddr, hlink⟩ hroom b

/-! ### The operations of a STATUS -/

theorem State.withCell_clearOrder (hc : c < 48) : (s.withCell c y p due).clearOrder c =
    s.withCell c { y with order := none, orderCurrent := false } p
      (decide (y.state = .idle ∧ y.order.isSome) || due) := by
  rw [State.clearOrder_eq, State.withCell_cell hc, State.withCell_modCell]
  rfl

theorem State.withCell_toIdle : (s.withCell c y p due).toIdle c = s.withCell c (y.enter .idle) p true := by
  rw [State.toIdle, State.withCell_modCell]
  rfl

/-- The record of a cell that goes OFFLINE (R49, R71, R103). -/
def Cell.offline (y : Cell) : Cell :=
  { y.enter .offline with timers := Timers.idle, ctx := none, order := none, orderCurrent := false }

theorem State.withCell_toOffline : (s.withCell c y p due).toOffline c = s.withCell c y.offline p due :=
    State.withCell_modCell _

/-- The record of a cell that goes to FAULT (R45, R71). -/
def Cell.faultedAs (y : Cell) (cause : FaultCause) : Cell :=
  { y.enter .fault with
    cause := some cause, timers := { Timers.idle with silence := y.timers.silence }, ctx := none, order := none,
    orderCurrent := false }

/-- An unowned run found: CELL_FAULT and STOP_RUN with reason UNOWNED are sent (R45). -/
theorem State.withCell_toFault {reg : Registration} (hreg : s.reg? c = some reg) (haddr : s.tst.settings.mgmtAddr ≠ 0)
    (hlink : p.plantLink = true) (hplant : p.plantQ.length < queueCapacity) (hfloor : p.floorQ.length < queueCapacity)
    (lot : Option (Nat × Nat)) : (s.withCell c y p due).toFault c .unownedRun lot =
      s.withCell c (y.faultedAs .unownedRun)
        ((s.toldAt p (.cellFault c .unownedRun lot)).withFloor [s.orderFrame reg c none (.stopRun .unowned)]) due := by
  unfold State.toFault
  dsimp only
  rw [State.withCell_modCell, State.withCell_notice haddr hlink hplant, if_pos rfl,
    State.withCell_order (p := s.toldAt p (.cellFault c .unownedRun lot)) hreg hfloor]
  rfl

/-- The calibration expiry recorded under a cell on which no lapse acts (R42, R52). -/
theorem State.withCell_takeExpiry (hc : c < 48) (e : Option Nat)
    (hrests : y.state = .stopping ∨ y.state = .offline ∨ y.state = .idle ∨ y.state = .fault) :
    (s.withCell c y p due).takeExpiry c e = s.withCell c { y with expiry := e } p (decide (y.expiry ≠ e) || due) := by
  unfold State.takeExpiry
  rw [State.withCell_cell hc, State.withCell_modCell]
  by_cases h : y.expiry = e
  · rw [if_pos h, decide_eq_false (not_not.mpr h), ← h]
    rfl
  · rw [if_neg h, decide_eq_true h, State.judgeLapse_eq_self]
    · rfl
    · rw [State.withCell_cell hc]
      exact .inr hrests

/-- The sites handled: a restore or a set that differs sends SITE_MASK, the enabled set is confirmed (R55 to R57). -/
def Cell.sited (y : Cell) (masks : Bool) (enabled : Mask16) : Cell :=
  { y with enabled := enabled, confirmed := if masks then y.confirmed else y.enabled, reportPending := masks }

/-- The sites handled by a STATUS (R42 step 5). -/
def State.handleSites (s : State) (c : Nat) (b : StatusBody) : State :=
  if b.siteRestore then s.restoreSites c else s.compareSites c b.sites

theorem State.withCell_handleSites (hc : c < 48) {reg : Registration} (hreg : s.reg? c = some reg) (b : StatusBody)
    (hfloor : p.floorQ.length < queueCapacity) :
    let enabled := if b.siteRestore then allSites reg.siteCount else y.enabled
    let masks := decide (b.siteRestore = true ∨ b.sites ≠ y.enabled)
    (s.withCell c y p due).handleSites c b = s.withCell c (y.sited masks enabled)
      (if masks then p.withFloor [s.orderFrame reg c none (.siteMask enabled)] else p) (decide (y.enabled ≠ enabled) ||
        due) := by
  have hcount : (s.withCell c y p due).siteCount c = reg.siteCount := by
    have hreg' : (s.withCell c y p due).reg? c = some reg := hreg
    rw [State.siteCount, hreg']
  intro enabled masks
  unfold State.handleSites
  cases hrestore : b.siteRestore with
  | true =>
    have henabled : enabled = allSites reg.siteCount := by simp [enabled, hrestore]
    have hmasks : masks = true := by simp [masks, hrestore]
    rw [if_pos rfl, State.restoreSites, hcount, State.withCell_cell hc, State.withCell_modCell, State.sendMask,
      State.withCell_modCell, State.withCell_cell hc,
      State.withCell_order hreg hfloor, ← henabled, hmasks, if_pos rfl]
    by_cases h : y.enabled = enabled
    · rw [if_neg (not_not.mpr h), decide_eq_false (not_not.mpr h)]
      rfl
    · rw [if_pos h, decide_eq_true h]
      rfl
  | false =>
    have henabled : enabled = y.enabled := by simp [enabled, hrestore]
    rw [if_neg Bool.false_ne_true, State.compareSites, State.withCell_cell hc, henabled, decide_eq_false (by simp)]
    by_cases h : b.sites = y.enabled
    · have hmasks : masks = false := by simp [masks, hrestore, h]
      rw [if_pos h, State.withCell_modCell, hmasks]
      rfl
    · have hmasks : masks = true := by simp [masks, hrestore, h]
      rw [if_neg h, State.sendMask, State.withCell_modCell, State.withCell_cell hc, State.withCell_order hreg hfloor, hmasks]
      rfl

theorem State.withCell_restartSilence (hc : c < 48) : (s.withCell c y p due).restartSilence c = s.withCell c { y with
    timers := { y.timers with silence := if y.state = .offline then none else some s.tst.settings.silence } } p due := by
  unfold State.restartSilence State.modTimers
  rw [State.withCell_modCell, State.withCell_cell hc]
  rfl

/-- The expiry of a STATUS recorded, one that stands or one on which no lapse acts (R42 step 4). -/
theorem State.withCell_records (hc : c < 48) {e : Option Nat}
    (hrests : e = y.expiry ∨ y.state = .stopping ∨ y.state = .offline ∨ y.state = .idle ∨ y.state = .fault) :
    (s.withCell c y p due).takeExpiry c e = s.withCell c { y with expiry := e } p (decide (y.expiry ≠ e) || due) := by
  rcases hrests with h | h
  · unfold State.takeExpiry
    rw [State.withCell_cell hc, if_pos h.symm, h]
    simp
  · exact State.withCell_takeExpiry hc _ h

/-- The record of a cell after the expiry, the sites and the silence timer of a STATUS (R42 steps 4 to 6). -/
def Cell.reported (y : Cell) (b : StatusBody) (count silence : Nat) : Cell :=
  let masks := b.siteRestore = true ∨ b.sites ≠ y.enabled
  { y with
    enabled := if b.siteRestore then allSites count else y.enabled
    confirmed := if masks then y.confirmed else y.enabled
    reportPending := decide masks
    expiry := b.expiry
    timers := { y.timers with silence := if y.state = .offline then none else some silence } }

/-- What follows the state handling of a STATUS: its expiry, its sites and the silence timer (R42 steps 4 to 6). -/
theorem State.withCell_finish (hc : c < 48) {reg : Registration} (hreg : s.reg? c = some reg) (b : StatusBody)
    (hfloor : p.floorQ.length < queueCapacity)
    (hrests : b.expiry = y.expiry ∨ y.state = .stopping ∨ y.state = .offline ∨ y.state = .idle ∨ y.state = .fault) :
    let enabled := if b.siteRestore then allSites reg.siteCount else y.enabled
    let masks := decide (b.siteRestore = true ∨ b.sites ≠ y.enabled)
    (((s.withCell c y p due).takeExpiry c b.expiry).handleSites c b).restartSilence c = s.withCell c
      (y.reported b reg.siteCount s.tst.settings.silence)
      (if masks then p.withFloor [s.orderFrame reg c none (.siteMask enabled)] else p)
      (decide (y.enabled ≠ enabled) || (decide (y.expiry ≠ b.expiry) || due)) := by
  intro enabled masks
  rw [State.withCell_records hc hrests]
  have hsites := State.withCell_handleSites (s := s) (y := { y with expiry := b.expiry }) (due := decide (y.expiry ≠
    b.expiry) || due)
    hc hreg b hfloor
  dsimp only at hsites
  rw [hsites, State.withCell_restartSilence hc, Cell.reported]
  unfold Cell.sited
  simp only [masks, decide_eq_true_eq]
  rfl

/-- The record of a cell after a STATUS has reported its enabled set. -/
def Cell.reportedPlain (y : Cell) (b : StatusBody) (silence : Nat) : Cell :=
  { y with
    confirmed := y.enabled
    reportPending := false
    expiry := b.expiry
    timers := { y.timers with silence := if y.state = .offline then none else some silence } }

/-- What follows the state handling of a STATUS that reports the enabled set (R42 steps 4 to 6, R56). -/
theorem State.withCell_finish_plain (hc : c < 48) {b : StatusBody} (hplain : b.siteRestore = false ∧ b.sites = y.enabled)
    (hrests : b.expiry = y.expiry ∨ y.state = .stopping ∨ y.state = .offline ∨ y.state = .idle ∨ y.state = .fault) :
    (((s.withCell c y p due).takeExpiry c b.expiry).handleSites c b).restartSilence c = s.withCell c
      (y.reportedPlain b s.tst.settings.silence) p (decide (y.expiry ≠ b.expiry) || due) := by
  have hsites : (s.withCell c { y with expiry := b.expiry } p (decide (y.expiry ≠ b.expiry) || due)).handleSites c b =
      s.withCell c { y with expiry := b.expiry, confirmed := y.enabled, reportPending := false } p
        (decide (y.expiry ≠ b.expiry) || due) := by
    unfold State.handleSites State.compareSites
    rw [hplain.1, if_neg Bool.false_ne_true, State.withCell_cell hc, if_pos hplain.2, State.withCell_modCell]
  rw [State.withCell_records hc hrests, hsites, State.withCell_restartSilence hc]
  rfl

end WithCell

/-! ### STATUS of a cell without a run -/

/-- A STATUS finds a run that nobody owns, in a cell that is not in FAULT for it already (R44, R45). -/
abbrev Cell.faultsFor (x : Cell) (b : StatusBody) : Prop := b.runActive = true ∧ ¬(x.state = .fault ∧ x.cause = some
  .unownedRun)

/-- The state a STATUS gives a cell without a run (R44 to R46). -/
def Cell.stateFor (x : Cell) (b : StatusBody) : CellState :=
  if b.runActive then .fault else if x.state = .fault ∧ b.maintClear = false then .fault
  else if b.ready then .idle else .offline

theorem Cell.stateFor_rests (x : Cell) (b : StatusBody) :
    x.stateFor b = .offline ∨ x.stateFor b = .idle ∨ x.stateFor b = .fault := by
  unfold Cell.stateFor
  split_ifs <;> simp

/-- The record of a cell without a run after the state handling of a STATUS (R44 to R46). -/
def Cell.settledBy (x : Cell) (b : StatusBody) (times : Timers) : Cell :=
  let clears := x.faultsFor b ∨ (x.stateFor b = .offline ∧ x.state ≠ .offline)
  { x with
    state := x.stateFor b
    cause := if x.stateFor b = .fault then (if b.runActive then some .unownedRun else x.cause) else none
    ctx := if clears then none else x.ctx
    order := if clears then none else x.order
    orderCurrent := if clears then false else x.orderCurrent
    timers := times }

/-- A cell without a run has the record the state handling of a STATUS gives it, no timer running but that of silence. -/
def Cell.settled (x : Cell) (b : StatusBody) (y : Cell) : Prop :=
  ∃ times, y = x.settledBy b times ∧ { times with silence := none } = Timers.idle

/-- The record of a cell whose outstanding order a restarted flag clears (R71). -/
def Cell.clearedBy (x : Cell) (b : StatusBody) : Cell :=
  { x with order := if b.restarted then none else x.order, orderCurrent := if b.restarted then false else x.orderCurrent }

section Rests

variable {x : Cell} {b : StatusBody}

theorem Cell.settled_faultedAs (hfits : x.Fits) (hfaults : x.faultsFor b)
    (hrests : x.state = .offline ∨ x.state = .idle ∨ x.state = .fault) : x.settled b (x.faultedAs .unownedRun) := by
  have hst : x.stateFor b = .fault := if_pos hfaults.1
  have hitems := hfits.items_eq_none (by rcases hrests with e | e | e <;> simp [e])
  have hstop := hfits.stopReason_eq_none (by rcases hrests with e | e | e <;> simp [e])
  exact ⟨(x.faultedAs .unownedRun).timers, by simp [Cell.settledBy, Cell.faultedAs, Cell.enter, hst, hfaults, hitems,
    hstop], rfl⟩

theorem Cell.settled_toIdle (hfits : x.Fits) (hst : x.stateFor b = .idle)
    (hrests : x.state = .offline ∨ x.state = .idle ∨ x.state = .fault) : x.settled b (x.enter .idle) := by
  have hnot : ¬x.faultsFor b := fun h => by
    rw [Cell.stateFor, if_pos h.1] at hst
    cases hst
  have hitems := hfits.items_eq_none (by rcases hrests with e | e | e <;> simp [e])
  have hstop := hfits.stopReason_eq_none (by rcases hrests with e | e | e <;> simp [e])
  exact ⟨(x.enter .idle).timers, by simp [Cell.settledBy, Cell.enter, hst, hnot, hitems, hstop], rfl⟩

theorem Cell.settled_offline (hfits : x.Fits) (hst : x.stateFor b = .offline) (hstate : x.state = .idle ∨ x.state = .fault) :
    x.settled b x.offline := by
  have hnot : ¬x.faultsFor b := fun h => by
    rw [Cell.stateFor, if_pos h.1] at hst
    cases hst
  have hne : x.state ≠ .offline := by rcases hstate with e | e <;> simp [e]
  have hitems := hfits.items_eq_none (by rcases hstate with e | e <;> simp [e])
  have hstop := hfits.stopReason_eq_none (by rcases hstate with e | e <;> simp [e])
  exact ⟨x.offline.timers, by simp [Cell.settledBy, Cell.offline, Cell.enter, hst, hnot, hne, hitems, hstop], rfl⟩

/-- A cell that a STATUS leaves in its state (R44, R46). -/
theorem Cell.settled_self (hfits : x.Fits) (hst : x.stateFor b = x.state) (hnot : ¬x.faultsFor b)
    (hrests : x.state = .offline ∨ x.state = .idle ∨ x.state = .fault) : x.settled b x := by
  obtain ⟨hsetup, hstart, hstop, hjam⟩ := hfits.timers_eq_none
  obtain ⟨hload, hkit, hsoak⟩ := hsetup (by rcases hrests with e | e | e <;> simp [e])
  have hstart := hstart (by rcases hrests with e | e | e <;> simp [e])
  have hstop := hstop (by rcases hrests with e | e | e <;> simp [e])
  have hjam := hjam (by rcases hrests with e | e | e <;> simp [e])
  have hcause : (if x.stateFor b = .fault then (if b.runActive then some .unownedRun else x.cause) else none) = x.cause := by
    by_cases hfault : x.stateFor b = .fault
    · rw [if_pos hfault]
      split
      · by_contra hne
        exact hnot ⟨‹_›, fun h => hne h.2.symm⟩
      · rfl
    · rw [if_neg hfault, hfits.cause_eq_none (by rwa [hst] at hfault)]
  refine ⟨x.timers, ?_, by simp [Timers.idle, hload, hkit, hsoak, hstart, hstop, hjam]⟩
  have hclears : ¬(x.faultsFor b ∨ (x.stateFor b = .offline ∧ x.state ≠ .offline)) := by
    rintro (h | ⟨h, hne⟩)
    · exact hnot h
    · exact hne (hst ▸ h)
  rw [hst] at hcause hclears
  simp only [Cell.settledBy, hst, hcause, if_neg hclears]

/-- The port after the state handling of a STATUS (R45). -/
def State.statusPort (s : State) (c : Nat) (reg : Registration) (x : Cell) (b : StatusBody) : Pcl :=
  let told := if x.faultsFor b then s.toldAt s.pcl (.cellFault c .unownedRun none) else s.pcl
  if b.runActive then told.withFloor [s.orderFrame reg c none (.stopRun .unowned)] else told

theorem State.statusPort_floorQ (s : State) (c : Nat) (reg : Registration) (x : Cell) (b : StatusBody) :
    (s.statusPort c reg x b).floorQ.length = s.pcl.floorQ.length + if b.runActive then 1 else 0 := by
  have htold : (if x.faultsFor b then s.toldAt s.pcl (.cellFault c .unownedRun none) else s.pcl).floorQ = s.pcl.floorQ := by
    split <;> rfl
  unfold State.statusPort
  dsimp only
  split
  · rw [Pcl.withFloor, htold, List.length_append]
    rfl
  · rw [htold]
    rfl

theorem Pcl.withFloor_frame (masks : Prop) [Decidable masks] (p : Pcl) (l : List Frame) :
    (if decide masks then p.withFloor l else p).plantQ = p.plantQ ∧
      (if decide masks then p.withFloor l else p).floorLink = p.floorLink ∧
      (if decide masks then p.withFloor l else p).plantLink = p.plantLink := by
  split <;> exact ⟨rfl, rfl, rfl⟩

theorem State.masked_pcl (masks : Prop) [Decidable masks] (told : State) (l : List Frame) :
    (if decide masks then told.pcl.withFloor l else told.pcl) = (if masks then told.sendsFloor l else told).pcl := by
  by_cases h : masks
  · rw [if_pos h, if_pos (decide_eq_true h)]
    rfl
  · rw [if_neg h, if_neg (by simp [h])]

theorem State.statusPort_eq (s : State) (c : Nat) (reg : Registration) (x : Cell) (b : StatusBody) :
    let stopped := if b.runActive then s.sendsFloor [s.orderFrame reg c none (.stopRun .unowned)] else s
    s.statusPort c reg x b =
      (if x.faultsFor b then stopped.notifies (.cellFault c .unownedRun none) else stopped).pcl := by
  unfold State.statusPort
  dsimp only
  split_ifs <;> rfl

theorem State.statusPort_links (s : State) (c : Nat) (reg : Registration) (x : Cell) (b : StatusBody) :
    (s.statusPort c reg x b).floorLink = s.pcl.floorLink ∧ (s.statusPort c reg x b).plantLink = s.pcl.plantLink := by
  unfold State.statusPort
  dsimp only
  split_ifs <;> exact ⟨rfl, rfl⟩

theorem State.statusPort_plantQ (s : State) (c : Nat) (reg : Registration) (x : Cell) (b : StatusBody) :
    (s.statusPort c reg x b).plantQ.length = s.pcl.plantQ.length + if x.faultsFor b then 1 else 0 := by
  have htold : (if x.faultsFor b then s.toldAt s.pcl (.cellFault c .unownedRun none) else s.pcl).plantQ.length =
      s.pcl.plantQ.length + if x.faultsFor b then 1 else 0 := by
    by_cases h : x.faultsFor b
    · simp only [if_pos h, State.toldAt, List.length_append, List.length_singleton]
    · simp only [if_neg h, Nat.add_zero]
  refine Eq.trans ?_ htold
  unfold State.statusPort
  dsimp only
  split <;> rfl

theorem State.withCell_statusState (hc : c < 48) {reg : Registration} (hreg : s.reg? c = some reg)
    (due : Bool) (hfits : x.Fits) (hrests : x.state = .offline ∨ x.state = .idle ∨ x.state = .fault)
    (hgo : x.faultsFor b → s.noticesGo) (hplant : x.faultsFor b → s.plantRoom 1) (hfloor : b.runActive = true →
      s.floorRoom 1) :
    ∃ y due', (s.withCell c x s.pcl due).statusState c b = s.withCell c y (s.statusPort c reg x b) due' ∧ x.settled b y := by
  have hfault : x.faultsFor b → ∃ y due', (s.withCell c x s.pcl due).toFault c .unownedRun none =
      s.withCell c y (s.statusPort c reg x b) due' ∧ x.settled b y := fun h => by
    refine ⟨x.faultedAs .unownedRun, due, ?_, Cell.settled_faultedAs hfits h hrests⟩
    have hroom : s.plantRoom 1 := hplant h
    have hroom' : s.floorRoom 1 := hfloor h.1
    rw [State.withCell_toFault hreg (hgo h).1 (hgo h).2 hroom hroom', State.statusPort, if_pos h, if_pos h.1]
  have hquiet : b.runActive = false → s.statusPort c reg x b = s.pcl := fun h => by
    have hnot : ¬x.faultsFor b := fun hf => Bool.false_ne_true (h.symm.trans hf.1)
    rw [State.statusPort, if_neg hnot, h]
    rfl
  have hidle : b.runActive = false → x.stateFor b = .idle → ∃ y due', (s.withCell c x s.pcl due).toIdle c =
      s.withCell c y (s.statusPort c reg x b) due' ∧ x.settled b y := fun h hst =>
    ⟨x.enter .idle, true, by rw [State.withCell_toIdle, hquiet h], Cell.settled_toIdle hfits hst hrests⟩
  have hoffline : b.runActive = false → x.stateFor b = .offline → x.state = .idle ∨ x.state = .fault →
      ∃ y due', (s.withCell c x s.pcl due).toOffline c = s.withCell c y (s.statusPort c reg x b) due' ∧ x.settled b y :=
    fun h hst hstate => ⟨x.offline, due, by rw [State.withCell_toOffline, hquiet h], Cell.settled_offline hfits hst hstate⟩
  have hstands : b.runActive = false → x.stateFor b = x.state →
      ∃ y due', s.withCell c x s.pcl due = s.withCell c y (s.statusPort c reg x b) due' ∧ x.settled b y := fun h hst =>
    ⟨x, due, by rw [hquiet h], Cell.settled_self hfits hst (fun hf => Bool.false_ne_true (h.symm.trans hf.1)) hrests⟩
  have hstateFor : ∀ h : b.runActive = false, x.stateFor b =
      if x.state = .fault ∧ b.maintClear = false then .fault else if b.ready then .idle else .offline := fun h =>
    if_neg (by simp [h])
  unfold State.statusState
  rw [State.withCell_cell hc]
  rcases hrests with hst | hst | hst <;> rw [hst]
  · cases hrun : b.runActive with
    | true => exact hfault ⟨hrun, by simp [hst]⟩
    | false =>
      cases hready : b.ready with
      | true => exact hidle hrun (by simp [hstateFor hrun, hst, hready])
      | false => exact hstands hrun (by simp [hstateFor hrun, hst, hready])
  · cases hrun : b.runActive with
    | true => exact hfault ⟨hrun, by simp [hst]⟩
    | false =>
      cases hready : b.ready with
      | true => exact hstands hrun (by simp [hstateFor hrun, hst, hready])
      | false => exact hoffline hrun (by simp [hstateFor hrun, hst, hready]) (.inl hst)
  · dsimp only
    unfold State.statusInFault
    rw [State.withCell_cell hc]
    cases hrun : b.runActive with
    | true =>
      rw [if_pos rfl]
      by_cases hcause : x.cause = some .unownedRun
      · have hnot : ¬x.faultsFor b := fun hf => hf.2 ⟨hst, hcause⟩
        have hroom : s.floorRoom 1 := hfloor hrun
        refine ⟨x, due, ?_, Cell.settled_self hfits ?_ hnot (.inr (.inr hst))⟩
        · rw [if_pos hcause, State.withCell_order hreg hroom, State.statusPort, if_neg hnot, if_pos hrun]
        · rw [Cell.stateFor, if_pos hrun, hst]
      · rw [if_neg hcause]
        exact hfault ⟨hrun, fun h => hcause h.2⟩
    | false =>
      rw [if_neg Bool.false_ne_true]
      cases hclear : b.maintClear with
      | false => exact hstands hrun (by simp [hstateFor hrun, hst, hclear])
      | true =>
        rw [if_pos rfl]
        unfold State.toReady
        cases hready : b.ready with
        | true => exact hidle hrun (by simp [hstateFor hrun, hst, hclear, hready])
        | false => exact hoffline hrun (by simp [hstateFor hrun, hst, hclear, hready]) (.inr hst)

/-- The record of a cell without a run after a STATUS. -/
def Cell.afterStatus (x : Cell) (b : StatusBody) (times : Timers) (count silence : Nat) : Cell :=
  (recordEquipment b x.state false ((x.clearedBy b).settledBy b times)).reported b count silence

theorem State.acceptStatus_rests (hc : c < 48) {reg : Registration} (hreg : s.reg? c = some reg) (hfits : (s.cell c).Fits)
    (hrests : (s.cell c).state = .offline ∨ (s.cell c).state = .idle ∨ (s.cell c).state = .fault)
    (hgo : (s.cell c).faultsFor b → s.noticesGo) (hplant : (s.cell c).faultsFor b → s.plantRoom 1)
    (hfloor : s.floorRoom (if b.runActive then 2 else 1)) :
    let enabled := if b.siteRestore then allSites reg.siteCount else (s.cell c).enabled
    let masks := decide (b.siteRestore = true ∨ b.sites ≠ (s.cell c).enabled)
    let p := s.statusPort c reg (s.cell c) b
    ∃ times due, { times with silence := none } = Timers.idle ∧ s.acceptStatus c b =
      s.withCell c ((s.cell c).afterStatus b times reg.siteCount s.tst.settings.silence)
        (if masks then p.withFloor [s.orderFrame reg c none (.siteMask enabled)] else p) due := by
  intro enabled masks p
  obtain ⟨due, hcleared⟩ : ∃ due, (if b.restarted then s.clearOrder c else s) =
      s.withCell c ((s.cell c).clearedBy b) s.pcl due := by
    unfold Cell.clearedBy
    cases b.restarted with
    | true =>
      refine ⟨decide ((s.cell c).state = .idle ∧ (s.cell c).order.isSome) || s.dar.passDue, ?_⟩
      rw [if_pos rfl]
      conv => lhs; rw [s.withCell_self c]
      exact State.withCell_clearOrder hc
    | false => exact ⟨s.dar.passDue, s.withCell_self c⟩
  have hnorun : (s.cell c).holdsRun = false := by
    obtain ⟨⟨hstack, hincoming⟩, -⟩ := hfits
    have hnone : (s.cell c).incoming = none := by
      by_contra hsome
      obtain ⟨hstopping, -⟩ := hincoming (Option.isSome_iff_ne_none.mpr hsome)
      rcases hrests with e | e | e <;> exact absurd (e.symm.trans hstopping) nofun
    have hempty : (s.cell c).stack = [] := by rcases hrests with e | e | e <;> rw [e] at hstack <;> exact hstack
    rw [Cell.holdsRun, hempty, hnone]
    rfl
  have hnotSetup : (s.cell c).state ≠ .setup := by rcases hrests with e | e | e <;> rw [e] <;> nofun
  have hfloorRoom : s.pcl.floorQ.length + (if b.runActive then 2 else 1) ≤ queueCapacity := hfloor
  obtain ⟨_, due', hstate, times, rfl, htimers⟩ := State.withCell_statusState (s := s) (x := (s.cell c).clearedBy b) (b
    := b) hc hreg due
    hfits hrests hgo hplant (fun h => State.floorRoom_mono hfloor (by rw [if_pos h]; omega))
  have hroom : p.floorQ.length < queueCapacity := by
    rw [State.statusPort_floorQ]
    split at hfloorRoom <;> rename_i hactive
    · rw [if_pos hactive]
      omega
    · rw [if_neg hactive]
      omega
  have hfinish := State.withCell_finish (s := s)
    (y := recordEquipment b (s.cell c).state false (((s.cell c).clearedBy b).settledBy b times)) (p := p) (due := due')
      hc hreg b
    hroom (.inr (.inr (Cell.stateFor_rests (s.cell c) b)))
  refine ⟨times, _, htimers, Eq.trans ?_ hfinish⟩
  unfold State.acceptStatus
  dsimp only
  rw [hnorun, Bool.and_false, if_neg Bool.false_ne_true, hcleared, hstate, State.withCell_modCell, if_neg hnotSetup]
  rfl

end Rests

/-- Settles O49. -/
theorem statusMovesIdleCell : Obligations.StatusMovesIdleCell := by
  intro m b reg s hrun hfits hpass hknows hread hrests c x faults st clears enabled masks hgo hplant hfloor
  have hc : c < 48 := hknows.lt
  have hplantRoom : s.pcl.plantQ.length + (if faults then 2 else 1) ≤ queueCapacity := hplant
  obtain ⟨times, due, htimes, haccept⟩ := State.acceptStatus_rests (b := b) hc hknows.reg (hfits c hc) hrests hgo
    (fun h => State.plantRoom_mono hplant (by rw [if_pos h]; omega)) hfloor
  have htake : s.takeStatus m = s.acceptStatus c b := by
    unfold State.takeStatus
    rw [hread]
    exact if_pos hknows.check
  refine ⟨(s.acceptStatus c b).sendsPlant [forwardedFrame s Kind.status m m.body], ?_, ?_⟩
  · refine (fromCell_takes hrun Kind.status m fun s => s.takeStatus m).trans ?_
    rw [htake, State.forward_of_room]
    · rw [haccept]
      rfl
    · have hport := State.statusPort_plantQ s c reg x b
      have hmasked : (s.acceptStatus c b).pcl.plantQ = (s.statusPort c reg x b).plantQ := by
        rw [haccept]
        exact (Pcl.withFloor_frame _ _ _).1
      refine (congrArg (fun q : List Frame => q.length + 1 ≤ queueCapacity) hmasked).mpr ?_
      rw [hport]
      by_cases h : x.faultsFor b
      · rw [if_pos h]
        rw [if_pos (show faults from h)] at hplantRoom
        omega
      · rw [if_neg h]
        rw [if_neg (show ¬faults from h)] at hplantRoom
        omega
  · rw [haccept]
    have hlinks := Pcl.withFloor_frame (b.siteRestore = true ∨ b.sites ≠ x.enabled) (s.statusPort c reg x b)
      [s.orderFrame reg c none (.siteMask enabled)]
    have hport := State.statusPort_links s c reg x b
    refine ⟨(State.cell_modCell hc _).trans ?_, fun d hd => State.cell_modCell_ne hd _,
      ⟨rfl, rfl, rfl, rfl, ?_, ?_⟩, rfl, rfl, rfl, rfl, ?_⟩
    · have htakes : takesLoaded x.state = true ∧ takesKit x.state = true := by
        rcases hrests with e | e | e <;> rw [show x.state = _ from e] <;> exact ⟨rfl, rfl⟩
      obtain ⟨silence, load, kit, soak, start, stop, jam⟩ := times
      cases htimes
      have horder : ∀ {α : Type} (o d : α), (if clears then d else if b.restarted = true then d else o) =
          if clears ∨ b.restarted = true then d else o := fun o d => by
        by_cases h : clears <;> simp [h]
      unfold Cell.afterStatus Cell.reported Cell.settledBy recordEquipment
      rw [htakes.1, htakes.2]
      dsimp only [Cell.clearedBy]
      rw [← horder, ← horder]
      rfl
    · exact hlinks.2.1.trans hport.1
    · exact hlinks.2.2.trans hport.2
    · intro stopped told masked
      have htold : s.statusPort c reg x b = told.pcl := State.statusPort_eq s c reg x b
      have hmasked := State.masked_pcl (b.siteRestore = true ∨ b.sites ≠ x.enabled) told
        [s.orderFrame reg c none (.siteMask enabled)]
      exact congrArg (fun p : Pcl => { p with plantQ := p.plantQ ++ [forwardedFrame s Kind.status m m.body] })
        ((congrArg (fun p : Pcl => if decide (b.siteRestore = true ∨ b.sites ≠ x.enabled) then
          p.withFloor [s.orderFrame reg c none (.siteMask enabled)] else p) htold).trans hmasked)

end Sys2Proof.Machine
end

section
/-! STATUS under a run: the state handling, the calibration expiry it brings, and the lapse judged for it (R42, R47, R52,
R53). -/

namespace Sys2Proof.Machine

set_option Elab.async false

variable {s t : State} {c : Nat}

/-! ### What a setup and a lapse leave of the enabled sites -/

/-- The enabled sites and the calibration expiry of a cell. -/
def Cell.standing (x : Cell) : Mask16 × Option Nat := (x.enabled, x.expiry)

theorem State.startLoad_standing (hc : c < 48) (r : Run) (v : ProgVals) :
    ((s.startLoad c r v).cell c).standing = (s.cell c).standing := by
  unfold State.startLoad
  dsimp only
  split
  · rw [State.order_cell, State.cell_modCell hc]
    rfl
  · rw [State.cell_modCell hc]
    rfl

theorem State.startKit_standing (hc : c < 48) (r : Run) (kit : Nat) :
    ((s.startKit c r kit).cell c).standing = (s.cell c).standing := by
  rw [State.startKit, State.order_cell, State.cell_modCell hc]
  rfl

theorem State.startSoak_standing (hc : c < 48) (r : Run) (x : Temp) :
    ((s.startSoak c r x).cell c).standing = (s.cell c).standing := by
  rw [State.startSoak, State.order_cell, State.cell_modCell hc]
  rfl

theorem State.judgeItems_standing (hc : c < 48) (r : Run) (standing : Bool) :
    ((s.judgeItems c r standing).cell c).standing = (s.cell c).standing := by
  have hload : ∀ (b : Bool) (v : ProgVals), ((if b then s.startLoad c r v else s).cell c).standing = (s.cell c).standing :=
    fun b v => by
      split
      · exact State.startLoad_standing hc r v
      · rfl
  have hkit : ∀ (u : State) (b : Bool) (k : Nat), ((if b then u.startKit c r k else u).cell c).standing = (u.cell
    c).standing :=
    fun u b k => by
      split
      · exact State.startKit_standing hc r k
      · rfl
  have hsoak : ∀ (u : State) (b : Bool) (x : Temp), ((if b then u.startSoak c r x else u).cell c).standing = (u.cell
    c).standing :=
    fun u b x => by
      split
      · exact State.startSoak_standing hc r x
      · rfl
  exact ((hsoak _ _ _).trans (hkit _ _ _)).trans (hload _ _)

theorem State.checkSetup_standing (hc : c < 48) : ((s.checkSetup c).cell c).standing = (s.cell c).standing := by
  unfold State.checkSetup
  split
  · rfl
  · split
    · dsimp only
      split
      · unfold State.sendStart State.modTop
        rw [State.order_cell, State.cell_modCell hc, State.cell_modCell hc]
        exact State.judgeItems_standing hc _ _
      · exact State.judgeItems_standing hc _ _
    · rfl

/-- A lapse judged leaves the enabled sites, and takes no cell OFFLINE (R52, R53). -/
theorem State.judgeLapse_leaves (hc : c < 48) : ((s.judgeLapse c).cell c).enabled = (s.cell c).enabled ∧
    ((s.cell c).state ≠ .offline → ((s.judgeLapse c).cell c).state ≠ .offline) := by
  have hstop : ∀ reason, ((s.requestStop c reason).cell c).enabled = (s.cell c).enabled ∧
      ((s.cell c).state ≠ .offline → ((s.requestStop c reason).cell c).state ≠ .offline) := fun reason => by
    unfold State.requestStop
    split
    · rw [State.order_cell, State.cell_modCell hc]
      exact ⟨rfl, nofun⟩
    · rw [State.order_cell, State.cell_modCell hc]
      exact ⟨rfl, nofun⟩
    · rw [State.order_cell, State.cell_modCell hc]
      exact ⟨rfl, nofun⟩
    · exact ⟨rfl, id⟩
  unfold State.judgeLapse
  split
  · split
    · exact hstop _
    · exact hstop _
    · exact hstop _
    · unfold State.abandonSetup
      rw [State.toIdle_cell hc]
      have hbare := (State.abandonTop_bare (s := s.abandonTop c) hc).trans (State.abandonTop_bare hc)
      have henabled := congrArg Cell.enabled hbare
      exact ⟨henabled, nofun⟩
    all_goals exact ⟨rfl, id⟩
  · exact ⟨rfl, id⟩

/-! ### A pass started before other changes -/

theorem State.enqueue_startPass (p : Port) (f : Frame) : s.startPass.enqueue p f = (s.enqueue p f).startPass := by
  unfold State.enqueue
  cases p with
  | floor =>
    dsimp only
    rw [show s.startPass.pcl = s.pcl from rfl]
    split <;> rfl
  | plant =>
    dsimp only
    rw [show s.startPass.pcl = s.pcl from rfl]
    split <;> rfl

theorem State.order_startPass (run : Option Run) (o : Order) : s.startPass.order c run o = (s.order c run o).startPass :=
  State.enqueue_startPass _ _

theorem State.requestStop_startPass (reason : StopReason) : s.startPass.requestStop c reason =
    (s.requestStop c reason).startPass := by
  unfold State.requestStop
  rw [State.startPass_cell, show s.startPass.top? c = s.top? c from rfl]
  split
  · exact State.order_startPass (s := s.modCell c _) _ _
  · exact State.order_startPass (s := s.modCell c _) _ _
  · exact State.order_startPass (s := s.modCell c _) _ _
  · rfl

/-- A pass started before the lapse of a cell out of SETUP is judged. -/
theorem State.judgeLapse_startPass (h : (s.cell c).state ≠ .setup) : s.startPass.judgeLapse c =
    (s.judgeLapse c).startPass := by
  unfold State.judgeLapse
  rw [State.startPass_cell, show s.startPass.tbs = s.tbs from rfl]
  split
  · split
    · exact State.requestStop_startPass _
    · exact State.requestStop_startPass _
    · exact State.requestStop_startPass _
    · exact absurd ‹_› h
    all_goals rfl
  · rfl

/-! ### A new calibration expiry -/

/-- A STATUS that brings a new expiry goes on from the state its handling left (R42 steps 4 to 6). -/
def State.lapsesBy (s : State) (c : Nat) (reg : Registration) (b : StatusBody) (handled : State) : State :=
  let judged := (handled.modCell c fun y => { y with expiry := b.expiry }).judgeLapse c
  let enabled := if b.siteRestore then allSites reg.siteCount else (s.cell c).enabled
  let sited := if b.siteRestore = true ∨ b.sites ≠ (s.cell c).enabled then
      (judged.modCell c fun y => { y with enabled := enabled, reportPending := true }).enqueue .floor
        (s.orderFrame reg c none (.siteMask enabled))
    else judged.modCell c fun y => { y with confirmed := (s.cell c).enabled, reportPending := false }
  let timed := sited.modCell c fun y => { y with timers := { y.timers with silence := some s.tst.settings.silence } }
  { timed with dar := { timed.dar with passDue := true } }

theorem State.order_of_reg {reg : Registration} (hreg : s.reg? c = some reg) (run : Option Run) (o : Order) :
    s.order c run o = s.enqueue .floor (s.orderFrame reg c run o) := by
  unfold State.order
  rw [hreg]
  rfl

/-- The sites handled under a run after a new expiry has started a pass (R56, R57). -/
theorem State.handleSites_startPass (hc : c < 48) {reg : Registration} (hreg : s.reg? c = some reg) (b : StatusBody)
    (hstate : (s.cell c).state ≠ .offline) :
    let enabled := if b.siteRestore then allSites reg.siteCount else (s.cell c).enabled
    let sited := if b.siteRestore = true ∨ b.sites ≠ (s.cell c).enabled then
        (s.modCell c fun y => { y with enabled := enabled, reportPending := true }).enqueue .floor
          (s.orderFrame reg c none (.siteMask enabled))
      else s.modCell c fun y => { y with confirmed := (s.cell c).enabled, reportPending := false }
    (s.startPass.handleSites c b).restartSilence c =
      (sited.modCell c fun y => { y with timers := { y.timers with silence := some s.tst.settings.silence } }).startPass
        := by
  intro enabled sited
  have hsent : ∀ (f : Cell → Cell) (e : Mask16), f (s.cell c) = { s.cell c with enabled := e, reportPending := true } →
      (s.startPass.modCell c f).order c none (.siteMask e) = ((s.modCell c fun y => { y with
        enabled := e, reportPending := true }).enqueue .floor (s.orderFrame reg c none (.siteMask e))).startPass :=
    fun f e hf => by
      rw [State.order_of_reg (s := s.startPass.modCell c f) hreg, ← State.enqueue_startPass,
        State.modCell_congr (s := s.startPass) (g := fun y => { y with enabled := e, reportPending := true }) hf]
      rfl
  have hsites : s.startPass.handleSites c b = sited.startPass := by
    unfold State.handleSites
    cases hrestore : b.siteRestore with
    | true =>
      have hsited : sited = _ := if_pos (.inl hrestore)
      have hall : enabled = allSites reg.siteCount := if_pos hrestore
      have hcount : s.startPass.siteCount c = reg.siteCount := by
        rw [State.siteCount, show s.startPass.reg? c = some reg from hreg]
      have hmask : (s.startPass.modCell c fun x => { x with enabled := enabled }).sendMask c = sited.startPass := by
        rw [hsited, State.sendMask, State.modCell_modCell, State.cell_modCell hc]
        exact hsent _ _ rfl
      rw [if_pos rfl, State.restoreSites, hcount, ← hall]
      rw [hmask]
      split <;> rfl
    | false =>
      have hall : enabled = (s.cell c).enabled := if_neg (by simp [hrestore])
      rw [if_neg Bool.false_ne_true, State.compareSites, State.startPass_cell]
      by_cases h : b.sites = (s.cell c).enabled
      · have hsited : sited = _ := if_neg (by simp [hrestore, h])
        rw [if_pos h, hsited]
        exact State.modCell_congr (s := s.startPass) rfl
      · have hsited : sited = _ := if_pos (.inr h)
        rw [if_neg h, hsited, State.sendMask, State.startPass_cell, hall]
        exact hsent _ _ rfl
  have hcell : (sited.cell c).state = (s.cell c).state := by
    unfold sited
    split
    · rw [State.enqueue_cell, State.cell_modCell hc]
    · rw [State.cell_modCell hc]
  have htst : sited.tst = s.tst := by
    unfold sited
    split
    · rw [State.enqueue_tst]
      rfl
    · rfl
  rw [hsites]
  unfold State.restartSilence State.modTimers
  rw [State.startPass_cell, hcell, if_neg hstate, show sited.startPass.tst = s.tst from htst]
  rfl

theorem State.lapsesBy_tst {reg : Registration} {b : StatusBody} {handled : State} (htst : handled.tst = s.tst) :
    (s.lapsesBy c reg b handled).tst = s.tst := by
  have hjudged : ((handled.modCell c fun y => { y with expiry := b.expiry }).judgeLapse c).tst = s.tst :=
    ((Moves.refl (C := fun _ => True) (S := True) _).judgeLapse c).base.2.1.trans htst
  unfold State.lapsesBy
  dsimp only
  split
  · exact (State.enqueue_tst (s := State.modCell _ _ _) _ _).trans hjudged
  · exact hjudged

/-- After the state handling of a STATUS that brings a new expiry, with a pass started or not (R42 steps 4 to 6). -/
theorem State.lapsesBy_eq (hc : c < 48) {reg : Registration} (hreg : s.reg? c = some reg) {b : StatusBody} {u handled :
    State}
    (hu : u = handled ∨ (u = handled.startPass ∧ (handled.cell c).state ≠ .setup)) (htst : handled.tst = s.tst)
    (henabled : (handled.cell c).enabled = (s.cell c).enabled) (hexpiry : (handled.cell c).expiry ≠ b.expiry)
    (hstate : (handled.cell c).state ≠ .offline) :
    ((u.takeExpiry c b.expiry).handleSites c b).restartSilence c = s.lapsesBy c reg b handled := by
  obtain ⟨judged, hjudged⟩ : ∃ judged, (handled.modCell c fun y => { y with expiry := b.expiry }).judgeLapse c = judged
    := ⟨_, rfl⟩
  have htake : u.takeExpiry c b.expiry = judged.startPass := by
    rcases hu with rfl | ⟨rfl, hnot⟩
    · rw [State.takeExpiry, if_neg hexpiry, hjudged]
    · rw [State.takeExpiry, State.startPass_cell, if_neg hexpiry, ← hjudged]
      have hstate' : ((handled.modCell c fun y => { y with expiry := b.expiry }).cell c).state ≠ .setup := by
        rwa [State.cell_modCell hc]
      exact (congrArg State.startPass (State.judgeLapse_startPass hstate')).trans rfl
  have hleaves := State.judgeLapse_leaves (s := handled.modCell c fun y => { y with expiry := b.expiry }) hc
  rw [hjudged, State.cell_modCell hc] at hleaves
  have htst' : judged.tst = s.tst :=
    hjudged ▸ ((Moves.refl (C := fun _ => True) (S := True) _).judgeLapse c).base.2.1.trans htst
  have hreg' : judged.reg? c = some reg := by
    unfold State.reg?
    rw [htst']
    exact hreg
  have hframe : ∀ o, judged.orderFrame reg c none o = s.orderFrame reg c none o := fun o => by
    unfold State.orderFrame
    rw [htst']
  have hsites := State.handleSites_startPass hc hreg' b (hleaves.2 hstate)
  rw [hleaves.1.trans henabled, htst'] at hsites
  simp only [hframe] at hsites
  rw [htake, hsites, State.lapsesBy, hjudged]
  rfl

/-! ### The state handling under a started run -/

/-- The record of a started cell after the state handling of a STATUS (R47). -/
def Cell.handledBy (x : Cell) (b : StatusBody) (jam : Nat) : Cell :=
  let pauses := x.state = .running ∧ b.handler = .jammed
  let resumes := x.state = .paused ∧ b.handler = .running
  { x with
    state := if pauses then .paused else if resumes then .running else x.state
    timers := { x.timers with jam := if pauses then some jam else if resumes then none else x.timers.jam } }

/-- A cell goes from RUNNING to PAUSED, its jam timer started (R39, R47). -/
theorem Cell.Fits.enter_paused {x : Cell} (h : x.Fits) (hs : x.state = .running) (n : Nat) :
    { x.enter .paused with timers := { (x.enter .paused).timers with jam := some n } } =
      { x with state := .paused, timers := { x.timers with jam := some n } } := by
  obtain ⟨hsetup, hstart, hstop, -⟩ := h.timers_eq_none
  obtain ⟨hload, hkit, hsoak⟩ := hsetup (by simp [hs])
  simp [Cell.enter, h.cause_eq_none (by simp [hs]), h.items_eq_none (by simp [hs]), h.stopReason_eq_none (by simp [hs]),
    hload,
    hkit, hsoak, hstart (by simp [hs]), hstop (by simp [hs])]

theorem State.withCell_started (y : Cell) (due : Bool) :
    s.withCell c y s.pcl (due || s.dar.passDue) = s.modCell c (fun _ => y) ∨
      s.withCell c y s.pcl (due || s.dar.passDue) = (s.modCell c fun _ => y).startPass := by
  cases due
  · exact .inl rfl
  · exact .inr rfl

theorem State.statusState_started (hc : c < 48) (hfits : (s.cell c).Fits) (b : StatusBody)
    (hstarted : (s.cell c).state = .starting ∨ (s.cell c).state = .running ∨ (s.cell c).state = .paused ∨
      (s.cell c).state = .stopping) :
    s.statusState c b = s.withCell c ((s.cell c).handledBy b s.tst.settings.jam) s.pcl
      (decide (((s.cell c).state = .paused ∧ b.handler = .running) ∧ (s.cell c).stack.length = 1) || s.dar.passDue) := by
  have hstands : ¬((s.cell c).state = .running ∧ b.handler = .jammed) → ¬((s.cell c).state = .paused ∧ b.handler =
    .running) →
      s = s.withCell c ((s.cell c).handledBy b s.tst.settings.jam) s.pcl
        (decide (((s.cell c).state = .paused ∧ b.handler = .running) ∧ (s.cell c).stack.length = 1) || s.dar.passDue) := by
    intro hpauses hresumes
    rw [Cell.handledBy, if_neg hpauses, if_neg hresumes, if_neg hpauses, if_neg hresumes, decide_eq_false (by tauto)]
    exact s.withCell_self c
  unfold State.statusState
  rcases hstarted with h | h | h | h
  · conv_lhs => rw [h]
    exact hstands (by simp [h]) (by simp [h])
  · conv_lhs => rw [h]
    dsimp only
    by_cases hjam : b.handler = .jammed
    · rw [if_pos hjam, Cell.handledBy, if_pos ⟨h, hjam⟩, if_pos ⟨h, hjam⟩, decide_eq_false (by simp [h]),
        ← hfits.enter_paused h]
      exact State.modCell_congr rfl
    · rw [if_neg hjam]
      exact hstands (by simp [hjam]) (by simp [h])
  · conv_lhs => rw [h]
    dsimp only
    by_cases hrunning : b.handler = .running
    · obtain ⟨-, hstart, -, -⟩ := hfits.timers_eq_none
      have henter : (s.cell c).enter .running = { s.cell c with
          state := .running, timers := { (s.cell c).timers with jam := none } } := by
        refine (hfits.enter_running (.inr h) (s.cell c).stack).trans ?_
        rw [← hstart (by simp [h])]
      have hcell := State.modCell_congr (s := s) (c := c) (f := fun x => x.enter .running) (g := fun _ => { s.cell c with
        state := .running, timers := { (s.cell c).timers with jam := none } }) henter
      have hpauses : ¬((s.cell c).state = .running ∧ b.handler = .jammed) := by simp [h]
      rw [if_pos hrunning, State.toRunning_eq hc, hcell, Cell.handledBy, if_neg hpauses, if_pos ⟨h, hrunning⟩, if_neg
        hpauses,
        if_pos ⟨h, hrunning⟩]
      simp only [h, hrunning, and_self, true_and]
      rfl
    · rw [if_neg hrunning]
      exact hstands (by simp [h]) (by simp [hrunning])
  · conv_lhs => rw [h]
    exact hstands (by simp [h]) (by simp [h])

/-! ### The setup items judged at a STATUS -/

/-- The KIT and SOAK items judged against the values a STATUS has just recorded (R43, R73). -/
theorem completeItems_eq (x : Cell) (b : StatusBody) (step : RouteStep) :
    let kit := x.items.kit && decide (b.kit ≠ some step.kit)
    let soak := x.items.soak && decide (¬(b.setpoint = step.temp ∧ b.atSetpoint = true))
    completeItems step (recordEquipment b .setup false x) = { x with
      testerReady := some b.ready
      handler := some b.handler
      runActive := some b.runActive
      kit := b.kit
      setpoint := some b.setpoint
      atSetpoint := b.atSetpoint
      items := ⟨x.items.load, kit, soak⟩
      timers := { x.timers with
        kit := if kit then x.timers.kit else none
        soak := if soak then x.timers.soak else none } } := by
  intro kit soak
  have hkit : (x.items.kit && (b.kit != some step.kit)) = kit :=
    congrArg (x.items.kit && ·) (Bool.eq_iff_iff.mpr (by simp))
  have hsoak : (x.items.soak && (some b.setpoint != some step.temp || !b.atSetpoint)) = soak :=
    congrArg (x.items.soak && ·) (Bool.eq_iff_iff.mpr (by simp [imp_iff_not_or]))
  rw [← hkit, ← hsoak]
  rfl

/-- The state handling and the items of a STATUS in SETUP without an active run (R42, R73). -/
theorem State.statusItems_eq (hc : c < 48) {r : Run} {below : List Run} {b : StatusBody} (hsetup : (s.cell c).state = .setup)
    (hstack : (s.cell c).stack = r :: below) (hactive : b.runActive = false) :
    ((s.statusState c b).modCell c (recordEquipment b .setup false)).statusItems c =
      (s.modCell c fun _ => completeItems (s.runStep r) (recordEquipment b .setup false (s.cell c))).checkSetup c := by
  have hstate : s.statusState c b = s := by
    unfold State.statusState
    rw [hsetup, hactive]
    rfl
  have hrecorded : (s.modCell c (recordEquipment b .setup false)).cell c = recordEquipment b .setup false (s.cell c) :=
    State.cell_modCell hc _
  have htop : (s.modCell c (recordEquipment b .setup false)).top? c = some r :=
    State.top?_of_stack (below := below) (by rw [hrecorded]; exact hstack)
  have hmod : (s.modCell c (recordEquipment b .setup false)).modCell c (completeItems (s.runStep r)) =
      s.modCell c fun _ => completeItems (s.runStep r) (recordEquipment b .setup false (s.cell c)) :=
    (State.modCell_modCell _ _ _).trans (State.modCell_congr rfl)
  rw [hstate, State.statusItems, hrecorded, htop, show (recordEquipment b .setup false (s.cell c)).state = .setup from
    hsetup]
  exact congrArg (State.checkSetup · c) hmod

/-- A new calibration expiry under a run, of any of its states. -/
theorem statusBringsExpiry : Sys2Proof.Claims.statusBringsExpiry := by
  intro m b reg s hrun hfits hknows hread hrestarted hexpiry c x recorded goesOn
  have hc : c < 48 := hknows.lt
  have hexec : ∀ handled : State, s.acceptStatus c b = s.lapsesBy c reg b handled → handled.tst = s.tst → goesOn handled :=
    fun handled haccept htst => by
      have htake : s.takeStatus m = s.lapsesBy c reg b handled := by
        unfold State.takeStatus
        rw [hread]
        exact (if_pos hknows.check).trans haccept
      refine (fromCell_takes hrun Kind.status m fun s => s.takeStatus m).trans ?_
      rw [htake]
      unfold State.forward forwardedFrame
      rw [State.lapsesBy_tst htst]
      rfl
  refine ⟨?_, ?_⟩
  · intro hstarted pauses resumes
    refine hexec _ ?_ rfl
    have hequipment : recordEquipment b x.state false (x.handledBy b s.tst.settings.jam) = { recorded with
        state := if pauses then .paused else if resumes then .running else x.state
        timers := { x.timers with
          jam := if pauses then some s.tst.settings.jam else if resumes then none else x.timers.jam } } := by
      have htakes : takesLoaded x.state = false ∧ takesKit x.state = false := by
        rcases hstarted with e | e | e | e <;> rw [e] <;> exact ⟨rfl, rfl⟩
      unfold recordEquipment
      rw [htakes.1, htakes.2]
      rfl
    have hnotSetup : x.state ≠ .setup := by rcases hstarted with e | e | e | e <;> rw [e] <;> nofun
    have hhandledState : ∀ y : Cell, y.state = (if pauses then .paused else if resumes then .running else x.state) →
        y.state ≠ .setup ∧ y.state ≠ .offline := fun y hy => by
      rw [hy]
      split_ifs
      · exact ⟨nofun, nofun⟩
      · exact ⟨nofun, nofun⟩
      · exact ⟨hnotSetup, by rcases hstarted with e | e | e | e <;> rw [e] <;> nofun⟩
    unfold State.acceptStatus
    dsimp only
    rw [hrestarted, Bool.false_and, if_neg Bool.false_ne_true, if_neg Bool.false_ne_true,
      State.statusState_started hc (hfits c hc) b hstarted, State.withCell_modCell, if_neg hnotSetup, hequipment]
    refine State.lapsesBy_eq hc hknows.reg ?_ rfl ?_ ?_ ?_
    · rcases State.withCell_started (s := s) (c := c) _ _ with h | h
      · exact .inl h
      · refine .inr ⟨h, ?_⟩
        rw [State.cell_modCell hc]
        exact (hhandledState _ rfl).1
    · rw [State.cell_modCell hc]
    · rw [State.cell_modCell hc]
      exact hexpiry.symm
    · rw [State.cell_modCell hc]
      exact (hhandledState _ rfl).2
  · intro r below hsetup hstack hactive step kit soak
    have hsetup : (s.cell c).state = .setup := hsetup
    obtain ⟨completed, hcompleted⟩ : ∃ y : Cell, { recorded with
        kit := b.kit
        items := ⟨x.items.load, kit, soak⟩
        timers := { x.timers with
          kit := if kit then x.timers.kit else none
          soak := if soak then x.timers.soak else none } } = y := ⟨_, rfl⟩
    rw [hcompleted]
    have hitems : completeItems step (recordEquipment b .setup false x) = completed :=
      (completeItems_eq x b step).trans hcompleted
    have hcell : (s.modCell c fun _ => completed).cell c = completed := State.cell_modCell hc _
    have hleaves := State.checkSetup_leaves (s := s.modCell c fun _ => completed) hc (by rw [hcell, ← hcompleted]; exact
      hsetup)
      (by rw [hcell, ← hcompleted]; exact hstack)
    have hstanding : (((s.modCell c fun _ => completed).checkSetup c).cell c).standing = x.standing :=
      (State.checkSetup_standing hc).trans (by rw [hcell, ← hcompleted]; rfl)
    have htst : ((s.modCell c fun _ => completed).checkSetup c).tst = s.tst :=
      ((Moves.refl (C := fun _ => True) (S := True) (s.modCell c fun _ => completed)).checkSetup c).base.2.1
    refine hexec _ ?_ htst
    unfold State.acceptStatus
    dsimp only
    rw [hrestarted, Bool.false_and, if_neg Bool.false_ne_true, if_neg Bool.false_ne_true, if_pos hsetup]
    have henabled : (((s.modCell c fun _ => completed).checkSetup c).cell c).enabled = x.enabled := congrArg Prod.fst
      hstanding
    have hexpiry' : (((s.modCell c fun _ => completed).checkSetup c).cell c).expiry = x.expiry := congrArg Prod.snd hstanding
    refine State.lapsesBy_eq hc hknows.reg (.inl ?_) htst henabled ?_ ?_
    · rw [hsetup, State.statusItems_eq hc hsetup hstack hactive, hitems]
    · rw [hexpiry']
      exact hexpiry.symm
    · rcases hleaves.2.2.2 with h | h <;> rw [h.1] <;> nofun

end Sys2Proof.Machine
end

section
/-! STATUS under a run: pauses, resumes, setups, unowned runs and equipment restarts (R42 to R50). -/

namespace Sys2Proof.Machine

set_option Elab.async false

variable {s t : State} {c : Nat}

/-! ### A STATUS that is accepted -/

/-- A STATUS of a cell the part knows: accepted, then forwarded (R42, R165). -/
theorem execStatus_eq {m : Msg} {b : StatusBody} {reg : Registration} (hrun : s.takes) (hknows : s.knowsCell m reg)
    (hread : readStatus m.body = some b) (haccept : s.acceptStatus m.cell.toNat b = t) (htst : t.tst = s.tst)
    (hroom : t.plantRoom 1) :
    exec (.status m) s = .next (t.sendsPlant [forwardedFrame s Kind.status m m.body]).settle := by
  have htake : s.takeStatus m = t := by
    unfold State.takeStatus
    rw [hread]
    exact (if_pos hknows.check).trans haccept
  have hframe : forwardedFrame t Kind.status m m.body = forwardedFrame s Kind.status m m.body := by
    simp only [forwardedFrame, htst]
  refine (fromCell_takes hrun Kind.status m fun s => s.takeStatus m).trans ?_
  rw [htake, State.forward_of_room hroom, hframe]

/-- The steps of an accepted STATUS without a restart (R42). -/
theorem State.acceptStatus_plain {b : StatusBody} (h : b.restarted = false) : s.acceptStatus c b =
    (((if (s.cell c).state = .setup then
        ((s.statusState c b).modCell c (recordEquipment b (s.cell c).state false)).statusItems c
      else (s.statusState c b).modCell c (recordEquipment b (s.cell c).state false)).takeExpiry c b.expiry).handleSites c
        b).restartSilence c := by
  unfold State.acceptStatus
  dsimp only
  rw [h, Bool.false_and, if_neg Bool.false_ne_true, if_neg Bool.false_ne_true]
  rfl

/-! ### A sole run that leaves its cell -/

/-- The record of a cell whose sole run is detached (R51). -/
def Cell.leftAlone (x : Cell) : Cell :=
  { x with
    stack := [], ctx := none, orderCurrent := false, items := Items.none
    timers := { Timers.idle with silence := x.timers.silence } }

theorem State.detach_withCell (hc : c < 48) {r : Run} {l : Lot} (h : s.soleRun c r l) :
    s.detach c = (s.sends r.handle (l.closedBy r .detached) false).withCell c (s.cell c).leftAlone s.pcl
      (s.sends r.handle (l.closedBy r .detached) false).dar.passDue := by
  obtain ⟨hpcl, -, -, -, hctr⟩ := State.sends_frame (s := s) r.handle (l.closedBy r .detached) false
  have hcell : (s.sends r.handle (l.closedBy r .detached) false).cell c = s.cell c := State.cell_of_ctr hctr c
  rw [State.detach_sole hc h, State.popTop, State.modCell_modCell, ← hpcl]
  refine State.modCell_congr ?_
  rw [hcell, h.1]
  rfl

/-- What a sole run leaves behind, with a record for its cell and a port (R51). -/
theorem State.sentBack_withCell {r : Run} {l : Lot} (hh : r.handle < 512) (v : State)
    (hlists : (v.sends r.handle l false).ldr = (s.sends r.handle l false).ldr ∧
      (v.sends r.handle l false).dar = (s.sends r.handle l false).dar ∧
      (v.sends r.handle l false).rlu = (s.sends r.handle l false).rlu) (y : Cell) (p : Pcl) (due : Bool) :
    s.sentBack ((v.sends r.handle l false).withCell c y p (due || (v.sends r.handle l false).dar.passDue)) r l := by
  have hback : s.sentBack ((v.sends r.handle l false).withCell c y p (v.sends r.handle l false).dar.passDue) r l :=
    State.sentBack_of_sends hh hlists.1 hlists.2.1 hlists.2.2
  cases due with
  | false => exact hback
  | true => exact State.sentBack_startPass hback

/-- The record of a started cell after a STATUS without a new expiry (R42, R43, R47). -/
theorem recordEquipment_started {x : Cell} (b : StatusBody) (jam : Nat)
    (hstarted : x.state = .starting ∨ x.state = .running ∨ x.state = .paused ∨ x.state = .stopping) :
    recordEquipment b x.state false (x.handledBy b jam) = { x.handledBy b jam with
      testerReady := some b.ready
      handler := some b.handler
      runActive := some b.runActive
      setpoint := some b.setpoint
      atSetpoint := b.atSetpoint } := by
  have htakes : takesLoaded x.state = false ∧ takesKit x.state = false := by
    rcases hstarted with e | e | e | e <;> rw [e] <;> exact ⟨rfl, rfl⟩
  unfold recordEquipment
  rw [htakes.1, htakes.2]
  rfl

/-- The record of a started cell after a STATUS without a restart or a new expiry. -/
def Cell.afterReport (x : Cell) (b : StatusBody) (count jam silence : Nat) : Cell :=
  let masks := b.siteRestore = true ∨ b.sites ≠ x.enabled
  { x.handledBy b jam with
    testerReady := some b.ready
    handler := some b.handler
    runActive := some b.runActive
    setpoint := some b.setpoint
    atSetpoint := b.atSetpoint
    enabled := if b.siteRestore then allSites count else x.enabled
    confirmed := if masks then x.confirmed else x.enabled
    reportPending := decide masks
    timers := { (x.handledBy b jam).timers with silence := some silence } }

theorem State.acceptStatus_started (hc : c < 48) {reg : Registration} (hreg : s.reg? c = some reg) (hfits : (s.cell c).Fits)
    {b : StatusBody} (hrestarted : b.restarted = false) (hexpiry : b.expiry = (s.cell c).expiry)
    (hstarted : (s.cell c).state = .starting ∨ (s.cell c).state = .running ∨ (s.cell c).state = .paused ∨
      (s.cell c).state = .stopping) (hfloor : s.floorRoom 1) :
    let enabled := if b.siteRestore then allSites reg.siteCount else (s.cell c).enabled
    let resumes := (s.cell c).state = .paused ∧ b.handler = .running
    s.acceptStatus c b = s.withCell c ((s.cell c).afterReport b reg.siteCount s.tst.settings.jam s.tst.settings.silence)
      (if decide (b.siteRestore = true ∨ b.sites ≠ (s.cell c).enabled) then
        s.pcl.withFloor [s.orderFrame reg c none (.siteMask enabled)] else s.pcl)
      (decide ((s.cell c).enabled ≠ enabled) || (decide (resumes ∧ (s.cell c).stack.length = 1) || s.dar.passDue)) := by
  intro enabled resumes
  have hnotSetup : (s.cell c).state ≠ .setup := by rcases hstarted with e | e | e | e <;> rw [e] <;> nofun
  have hstate : ((s.cell c).handledBy b s.tst.settings.jam).state ≠ .offline := by
    unfold Cell.handledBy
    dsimp only
    split_ifs
    · nofun
    · nofun
    · rcases hstarted with e | e | e | e <;> rw [e] <;> nofun
  have hsame : decide ((s.cell c).expiry ≠ b.expiry) = false := decide_eq_false (not_not.mpr hexpiry.symm)
  have hhandled : s.acceptStatus c b = (((s.withCell c (recordEquipment b (s.cell c).state false
      ((s.cell c).handledBy b s.tst.settings.jam)) s.pcl (decide (resumes ∧ (s.cell c).stack.length = 1) ||
        s.dar.passDue)).takeExpiry c b.expiry).handleSites c b).restartSilence c := by
    rw [State.acceptStatus_plain hrestarted, if_neg hnotSetup, State.statusState_started hc hfits b hstarted,
      State.withCell_modCell]
  have hcell : (recordEquipment b (s.cell c).state false ((s.cell c).handledBy b s.tst.settings.jam)).reported b
    reg.siteCount
      s.tst.settings.silence = (s.cell c).afterReport b reg.siteCount s.tst.settings.jam s.tst.settings.silence := by
    rw [recordEquipment_started b _ hstarted, Cell.reported]
    dsimp only
    rw [if_neg hstate, hexpiry]
    rfl
  have hfinish := State.withCell_finish (s := s) (p := s.pcl)
    (due := decide (resumes ∧ (s.cell c).stack.length = 1) || s.dar.passDue)
    (y := recordEquipment b (s.cell c).state false ((s.cell c).handledBy b s.tst.settings.jam)) hc hreg b hfloor (.inl
      hexpiry)
  rw [hcell] at hfinish
  exact (hhandled.trans hfinish).trans
    (congrArg (fun d => s.withCell c _ _ (decide ((s.cell c).enabled ≠ enabled) || (d || _))) hsame)

/-- A STATUS in SETUP without an active run, a restart or a new expiry, that reports the enabled set, from the check of
its items
on (R42, R56, R73). -/
theorem State.acceptStatus_setup (hc : c < 48) {r : Run} {below : List Run} {b : StatusBody}
    (hsetup : (s.cell c).state = .setup)
    (hstack : (s.cell c).stack = r :: below) (hrestarted : b.restarted = false) (hactive : b.runActive = false)
    (hplain : b.siteRestore = false ∧ b.sites = (s.cell c).enabled) (hexpiry : b.expiry = (s.cell c).expiry) {z : Cell}
      {p : Pcl}
    (hchecked : (s.modCell c fun _ => completeItems (s.runStep r) (recordEquipment b .setup false (s.cell c))).checkSetup c =
      s.withCell c z p s.dar.passDue) (hstanding : z.standing = (s.cell c).standing) (hstate : z.state ≠ .offline) :
    s.acceptStatus c b = s.withCell c { z with
      confirmed := z.enabled
      reportPending := false
      expiry := b.expiry
      timers := { z.timers with silence := some s.tst.settings.silence } } p s.dar.passDue := by
  have henabled : z.enabled = (s.cell c).enabled := congrArg Prod.fst hstanding
  have hz : z.expiry = b.expiry := (congrArg Prod.snd hstanding).trans hexpiry.symm
  have hfinish := State.withCell_finish_plain (s := s) (p := p) (due := s.dar.passDue) (y := z) hc (b := b)
    ⟨hplain.1, hplain.2.trans henabled.symm⟩ (.inl hz.symm)
  rw [Cell.reportedPlain, if_neg hstate, decide_eq_false (not_not.mpr hz), Bool.false_or] at hfinish
  have hitems : ((s.statusState c b).modCell c (recordEquipment b (s.cell c).state false)).statusItems c =
      s.withCell c z p s.dar.passDue := by
    rw [hsetup, State.statusItems_eq hc hsetup hstack hactive, hchecked]
  rw [State.acceptStatus_plain hrestarted, if_pos hsetup, hitems, hfinish]

/-! ### Runs detached by a STATUS -/

theorem State.withCell_statusItems (hc : c < 48) {y : Cell} {p : Pcl} {due : Bool} (h : y.state ≠ .setup) :
    (s.withCell c y p due).statusItems c = s.withCell c y p due := by
  unfold State.statusItems
  rw [State.withCell_cell hc]
  split
  · exact absurd ‹_› h
  · rfl

theorem State.sends_base (h : Nat) (l : Lot) (new : Bool) : s.sameBase (s.sends h l new) := by
  unfold State.sends
  split <;> exact ⟨rfl, rfl, rfl, rfl, rfl, rfl⟩

theorem State.toldAt_congr (htst : t.tst = s.tst) (htbs : t.tbs = s.tbs) (p : Pcl) (b : NoticeBody) : t.toldAt p b =
    s.toldAt p b := by
  unfold State.toldAt
  rw [htst, htbs]

theorem State.orderFrame_congr (htst : t.tst = s.tst) (reg : Registration) (run : Option Run) (o : Order) :
    t.orderFrame reg c run o = s.orderFrame reg c run o := by
  unfold State.orderFrame
  rw [htst]

/-- An unowned run found in a cell whose sole run has left it (R45, R51). -/
theorem State.sends_toFault {reg : Registration} (hreg : s.reg? c = some reg) (hgo : s.noticesGo) (hplant : s.plantRoom 1)
    (hfloor : s.floorRoom 1) (h : Nat) (l : Lot) (z : Cell) (due : Bool) (lot : Option (Nat × Nat)) :
    ((s.sends h l false).withCell c z s.pcl due).toFault c .unownedRun lot =
      (s.sends h l false).withCell c (z.faultedAs .unownedRun)
        ((s.toldAt s.pcl (.cellFault c .unownedRun lot)).withFloor [s.orderFrame reg c none (.stopRun .unowned)]) due := by
  obtain ⟨-, -, htst, htbs, -⟩ := State.sends_frame (s := s) h l false
  have hreg' : (s.sends h l false).reg? c = some reg := by
    unfold State.reg?
    rw [htst]
    exact hreg
  have haddr : (s.sends h l false).tst.settings.mgmtAddr ≠ 0 := by
    rw [htst]
    exact hgo.1
  rw [State.withCell_toFault hreg' haddr hgo.2 hplant hfloor, State.toldAt_congr htst htbs, State.orderFrame_congr htst]

/-! ### An equipment restart -/

theorem State.modCell_withCell (f : Cell → Cell) (y : Cell) (p : Pcl) (due : Bool) :
    (s.modCell c f).withCell c y p due = s.withCell c y p due :=
  congrArg (fun t : State => ({ t with pcl := p, dar := ⟨s.dar.queue, due⟩ } : State))
    (State.modCell_modCell (s := s) c f fun _ => y)

theorem State.clearOrder_of_busy (h : (s.cell c).state ≠ .idle) : s.clearOrder c = s.modCell c fun _ =>
    { s.cell c with order := none, orderCurrent := false } := by
  rw [State.clearOrder_eq, decide_eq_false (by simp [h]), Bool.false_or]
  exact State.modCell_congr (s := s) (c := c) (f := fun x => { x with order := none, orderCurrent := false })
    (g := fun _ => { s.cell c with order := none, orderCurrent := false }) rfl

/-- The steps of a STATUS with a restart under a run (R42, R50). -/
theorem State.acceptStatus_restart {b : StatusBody} (h : b.restarted = true) (hholds : (s.cell c).holdsRun = true)
    (hnot : (s.cell c).state ≠ .setup) : s.acceptStatus c b =
      (((((s.clearOrder c).equipmentRestart c b).modCell c (recordEquipment b (s.cell c).state true)).takeExpiry c
        b.expiry).handleSites c b).restartSilence c := by
  unfold State.acceptStatus
  dsimp only
  rw [h, hholds, Bool.and_self, if_pos rfl, if_pos rfl, if_neg hnot]
  rfl

/-- The lot of an equipment restart, INTERRUPTED (R50). -/
def Lot.interrupted (l : Lot) (s : State) (c : Nat) : Lot := l.heldBy ⟨.interrupted, s.now, .cell c, [], 1, none⟩

/-- An equipment restart under a sole started run: its lot takes INTERRUPTED and is detached (R50, R51). -/
theorem State.equipmentRestart_sole (hc : c < 48) {r : Run} {l : Lot} (b : StatusBody)
    (hstarted : (s.cell c).state = .starting ∨ (s.cell c).state = .running ∨ (s.cell c).state = .paused ∨
      (s.cell c).state = .stopping) (hsole : s.soleRun c r l) (hnew : ∀ e ∈ l.holds, e.reason ≠ .interrupted)
    (hgo : s.noticesGo) (hplant : s.plantRoom 1) :
    let held := s.heldFor r.handle l .interrupted (.cell c) [] .held
    let left := held.sends r.handle ((l.interrupted s c).closedBy r .detached) false
    let detached := left.withCell c (s.cell c).leftAlone held.pcl left.dar.passDue
    s.equipmentRestart c b =
      if b.runActive then detached.toFault c .unownedRun (some (r.handle, r.inst)) else detached.toReady c b.ready := by
  intro held left detached
  obtain ⟨hstack, hincoming, hstopped, hl, hfew⟩ := hsole
  have hnamed : s.topRef c = some (r.handle, r.inst) := by
    rw [State.topRef, State.top?_of_stack hstack]
    rfl
  have hheld : s.placeQuiet r.handle ⟨.interrupted, .cell c, [], none⟩ = held :=
    State.placeQuiet_new hl (.cell c) [] hnew hgo hplant
  have hsole' : held.soleRun c r (l.interrupted s c) :=
    ⟨hstack, hincoming, hstopped, State.lot?_heldFor hl .interrupted (.cell c) [] .held, hfew⟩
  unfold State.equipmentRestart
  dsimp only
  rw [hnamed, State.top?_of_stack hstack]
  rcases hstarted with h | h | h | h
  all_goals
    rw [h]
    dsimp only
    rw [hheld, State.detach_withCell hc hsole']
    rfl

/-- The record of a cell whose sole run has left it, by what a STATUS says of its equipment (R45, R50). -/
def Cell.readied (x : Cell) (b : StatusBody) (silence : Option Nat) : Cell :=
  { x.leftAlone with
    state := if b.runActive then .fault else if b.ready then .idle else .offline
    cause := if b.runActive then some .unownedRun else none
    stopReason := none
    order := none
    timers := { Timers.idle with silence := silence } }

/-- The cell of an equipment restart goes to FAULT, IDLE or OFFLINE (R50). -/
theorem State.restart_readies {x : Cell} {reg : Registration} (b : StatusBody) (horder : x.order = none)
    (hreg : s.reg? c = some reg) (hgo : s.noticesGo) (hplant : s.plantRoom 1) (hfloor : s.floorRoom 1) (h : Nat) (l : Lot)
    (lot : Option (Nat × Nat)) :
    let left := s.sends h l false
    let detached := left.withCell c x.leftAlone s.pcl left.dar.passDue
    ∃ silence due, (if b.runActive then detached.toFault c .unownedRun lot else detached.toReady c b.ready) =
      left.withCell c (x.readied b silence)
        (if b.runActive then (s.toldAt s.pcl (.cellFault c .unownedRun lot)).withFloor
          [s.orderFrame reg c none (.stopRun .unowned)] else s.pcl) (due || left.dar.passDue) := by
  intro left detached
  cases hactive : b.runActive with
  | true =>
    refine ⟨x.timers.silence, false, ?_⟩
    rw [if_pos rfl, if_pos rfl, State.sends_toFault hreg hgo hplant hfloor]
    refine congrArg (fun y => left.withCell c y _ _) ?_
    simp [Cell.faultedAs, Cell.readied, Cell.enter, Cell.leftAlone, hactive]
  | false =>
    rw [if_neg Bool.false_ne_true, if_neg Bool.false_ne_true]
    unfold State.toReady
    cases hready : b.ready with
    | true =>
      refine ⟨x.timers.silence, true, ?_⟩
      rw [if_pos rfl, State.withCell_toIdle]
      refine congrArg (fun y => left.withCell c y _ _) ?_
      simp [Cell.readied, Cell.enter, Cell.leftAlone, hactive, hready, horder, Timers.idle]
    | false =>
      refine ⟨none, false, ?_⟩
      rw [if_neg Bool.false_ne_true, State.withCell_toOffline]
      refine congrArg (fun y => left.withCell c y _ _) ?_
      simp [Cell.readied, Cell.enter, Cell.leftAlone, Cell.offline, hactive, hready, Timers.idle]

/-- Settles O50. -/
theorem statusPausesAndResumes : Obligations.StatusPausesAndResumes := by
  refine ⟨statusBringsExpiry, ?_⟩
  intro m b reg s hrun hfits hpass hknows hread c x forwarded started plain
  have hc : c < 48 := hknows.lt
  have hfit : x.Fits := hfits c hc
  have hreg : s.reg? c = some reg := hknows.reg
  have hdue : s.dar.passDue = false := hpass
  refine ⟨?_, ?_, ?_⟩
  · intro hstarted hrestarted hexpiry hplant hfloor pauses resumes enabled masks
    have haccept := State.acceptStatus_started hc hreg hfit hrestarted hexpiry hstarted hfloor
    have hframe := Pcl.withFloor_frame masks s.pcl [s.orderFrame reg c none (.siteMask enabled)]
    refine ⟨(s.acceptStatus c b).sendsPlant forwarded, execStatus_eq hrun hknows hread rfl ?_ ?_, ?_⟩
    · rw [haccept]
      rfl
    · rw [haccept]
      have hroom : s.pcl.plantQ.length + 1 ≤ queueCapacity := hplant
      rwa [← hframe.1] at hroom
    · rw [haccept]
      refine ⟨State.cell_modCell hc _, ?_, fun d hd => State.cell_modCell_ne hd _,
        ⟨rfl, rfl, rfl, rfl, hframe.2.1, hframe.2.2⟩, rfl, rfl, rfl, ?_⟩
      · have hpassDue : (decide (x.enabled ≠ enabled) || (decide (resumes ∧ x.stack.length = 1) || s.dar.passDue)) =
            decide ((resumes ∧ x.stack.length = 1) ∨ x.enabled ≠ enabled) := by
          rw [hdue, Bool.or_false, Bool.or_comm, Bool.decide_or]
        exact congrArg (Dar.mk s.dar.queue) hpassDue
      · exact congrArg (fun p : Pcl => { p with plantQ := p.plantQ ++ forwarded }) (State.masked_pcl masks s _)
  · intro r below hsetup hstack hrestarted hplain step kit soak recorded
    refine ⟨fun hactive hexpiry hpending hplant => ?_, fun l v hactive hexpiry hload hl hloaded hnumber hrev hkit hpoint
      hat hplant
      hfloor => ?_, fun l hactive hsole hgo hplant hfloor => ?_⟩
    · have hcell := completeItems_eq x b step
      have hchecked : (s.modCell c fun _ => completeItems step (recordEquipment b .setup false x)).checkSetup c =
          s.withCell c (completeItems step (recordEquipment b .setup false x)) s.pcl s.dar.passDue := by
        refine State.checkSetup_pending ?_
        rw [State.cell_modCell hc, hcell]
        intro hnone
        have hclear : (⟨x.items.load, kit, soak⟩ : Items) = Items.none := hnone
        exact absurd hclear (by rcases hpending with h | h | h <;> simp [Items.none, h])
      have haccept := State.acceptStatus_setup hc hsetup hstack hrestarted hactive hplain hexpiry hchecked
        (by rw [hcell]; rfl)
        (by rw [hcell]; exact fun h => nomatch hsetup.symm.trans h)
      rw [hcell] at haccept
      refine (execStatus_eq hrun hknows hread haccept rfl hplant).trans ?_
      exact congrArg Host.Outcome.next (State.settle_of_passTaken hpass)
    · obtain ⟨judged, hjudged⟩ : ∃ y, completeItems step (recordEquipment b .setup false x) = y := ⟨_, rfl⟩
      have hcell : judged = _ := hjudged.symm.trans (completeItems_eq x b step)
      have hat' : (s.modCell c fun _ => judged).cell c = judged := State.cell_modCell hc _
      have hitems : judged.items = Items.none := by
        rw [hcell]
        simp [Items.none, hload, hkit, hpoint, hat]
      have hmatched : (s.modCell c fun _ => judged).judgeItems c r false = s.modCell c fun _ => judged := by
        refine State.judgeItems_of_matched (fun h => nomatch h) ?_ ?_ ?_ <;> rw [hat', hcell]
        · exact loadMismatch_of_loaded hloaded hnumber hrev
        · exact kitMismatch_of_kit hkit
        · exact soakMismatch_of_setpoint (congrArg some hpoint) hat
      have hstarts := State.checkSetup_starts (s := s.modCell c fun _ => judged) (r := r) (below := below) hc hreg
        (by rw [hat', hcell]; exact hstack) hl hfloor (by rw [hat']; exact hitems) (by rw [hmatched, hat']; exact hitems)
      have hcause := hfit.cause_eq_none (by rw [hsetup]; nofun)
      have hstop := hfit.stopReason_eq_none (by rw [hsetup]; nofun)
      have hchecked : (s.modCell c fun _ => judged).checkSetup c = s.withCell c { recorded with
          state := .starting
          expiry := x.expiry
          confirmed := x.confirmed
          reportPending := x.reportPending
          items := Items.none
          stack := { r with awaiting := true } :: below
          timers := { Timers.idle with silence := x.timers.silence, start := some s.tst.settings.start } }
          (s.pcl.withFloor [s.orderFrame reg c (some r) (.startRun r.pass x.enabled (l.acc.remaining r.pass))])
            s.dar.passDue := by
        have henabled : judged.enabled = x.enabled := by rw [hcell]
        rw [hstarts, State.startsRun, hat', State.modCell_modCell, henabled]
        refine congrArg (State.sendsFloor · _) (State.modCell_congr ?_)
        rw [hcell]
        dsimp only
        rw [hstack, ← hcause, ← hstop]
        rfl
      rw [← hjudged] at hchecked
      have haccept := State.acceptStatus_setup hc hsetup hstack hrestarted hactive hplain hexpiry hchecked rfl fun h =>
        nomatch h
      refine (execStatus_eq hrun hknows hread haccept rfl hplant).trans ?_
      exact congrArg Host.Outcome.next (State.settle_of_passTaken hpass)
    · have hh := State.lt_of_lot? hsole.2.2.2.1
      obtain ⟨-, hfcn, htst, -, hctr⟩ := State.sends_frame (s := s) r.handle (l.closedBy r .detached) false
      obtain ⟨hpending, -, hscn, htbs, -, -⟩ := State.sends_base (s := s) r.handle (l.closedBy r .detached) false
      have hnamed : s.topRef c = some (r.handle, r.inst) := by
        rw [State.topRef, State.top?_of_stack hstack]
        rfl
      have hstate : s.statusState c b = (s.sends r.handle (l.closedBy r .detached) false).withCell c
          (x.leftAlone.faultedAs .unownedRun) ((s.toldAt s.pcl (.cellFault c .unownedRun (some (r.handle,
            r.inst)))).withFloor
            [s.orderFrame reg c none (.stopRun .unowned)]) (s.sends r.handle (l.closedBy r .detached) false).dar.passDue
              := by
        unfold State.statusState
        rw [hsetup]
        dsimp only
        rw [if_pos hactive, State.detach_withCell hc hsole, hnamed,
          State.sends_toFault hreg hgo (State.plantRoom_mono hplant (by omega)) hfloor]
      obtain ⟨y, hy⟩ : ∃ y, recordEquipment b .setup false (x.leftAlone.faultedAs .unownedRun) = y := ⟨_, rfl⟩
      have haccept : s.acceptStatus c b = (s.sends r.handle (l.closedBy r .detached) false).withCell c
          (y.reportedPlain b s.tst.settings.silence)
          ((s.toldAt s.pcl (.cellFault c .unownedRun (some (r.handle, r.inst)))).withFloor
            [s.orderFrame reg c none (.stopRun .unowned)])
          (decide (y.expiry ≠ b.expiry) || (s.sends r.handle (l.closedBy r .detached) false).dar.passDue) := by
        have hfault : y.state = .fault := hy ▸ rfl
        have henabled : y.enabled = x.enabled := hy ▸ rfl
        rw [State.acceptStatus_plain hrestarted, if_pos hsetup, hstate, State.withCell_modCell, hsetup, hy,
          State.withCell_statusItems hc (by rw [hfault]; nofun), State.withCell_finish_plain hc
            ⟨hplain.1, hplain.2.trans henabled.symm⟩ (.inr (.inr (.inr (.inr hfault)))), htst]
      refine ⟨(s.acceptStatus c b).sendsPlant forwarded, execStatus_eq hrun hknows hread rfl ?_ ?_, ?_⟩
      · rw [haccept]
        exact htst
      · rw [haccept]
        exact State.plantRoom_succ (n := 1) hplant _
      · rw [haccept]
        refine ⟨(State.cell_modCell hc _).trans ?_, State.sentBack_withCell hh s ⟨rfl, rfl, rfl⟩ _ _ _, ?_,
          ⟨hpending, htst, hscn, htbs, rfl, rfl⟩, hfcn, rfl⟩
        · rw [← hy]
          have hincoming : x.incoming = none := hsole.2.1
          simp [Cell.reportedPlain, recordEquipment, Cell.faultedAs, Cell.leftAlone, Cell.enter, Cell.faulted, recorded,
            takesLoaded,
            takesKit, hincoming]
        · exact fun d hd => (State.cell_modCell_ne hd _).trans (State.cell_of_ctr hctr d)
  · intro r l hstarted hrestarted hplain hsole hnew hgo hplant hfloor st held
    have hh := State.lt_of_lot? hsole.2.2.2.1
    have hnotSetup : (s.cell c).state ≠ .setup := by
      rcases hstarted with e | e | e | e <;> rw [show (s.cell c).state = _ from e] <;> nofun
    have hnotIdle : (s.cell c).state ≠ .idle := by
      rcases hstarted with e | e | e | e <;> rw [show (s.cell c).state = _ from e] <;> nofun
    have hholds : (s.cell c).holdsRun = true := by
      rw [Cell.holdsRun, hsole.1]
      rfl
    obtain ⟨x', hx'⟩ : ∃ x' : Cell, { s.cell c with order := none, orderCurrent := false } = x' := ⟨_, rfl⟩
    have hcleared : s.clearOrder c = s.modCell c fun _ => x' := hx' ▸ State.clearOrder_of_busy hnotIdle
    have hcell : (s.modCell c fun _ => x').cell c = x' := State.cell_modCell hc _
    obtain ⟨l', hl'⟩ : ∃ l', l.interrupted s c = l' := ⟨_, rfl⟩
    have hrestart : (s.modCell c fun _ => x').equipmentRestart c b =
        if b.runActive then ((held.sends r.handle (l'.closedBy r .detached) false).withCell c x'.leftAlone held.pcl
          (held.sends r.handle (l'.closedBy r .detached) false).dar.passDue).toFault c .unownedRun (some (r.handle, r.inst))
        else ((held.sends r.handle (l'.closedBy r .detached) false).withCell c x'.leftAlone held.pcl
          (held.sends r.handle (l'.closedBy r .detached) false).dar.passDue).toReady c b.ready := by
      refine (State.equipmentRestart_sole (s := s.modCell c fun _ => x') (r := r) (l := l) hc b
        (by rw [hcell, ← hx']; exact hstarted)
        ⟨by rw [hcell, ← hx']; exact hsole.1, by rw [hcell, ← hx']; exact hsole.2.1, hsole.2.2⟩ hnew hgo
        (State.plantRoom_mono hplant (by omega))).trans ?_
      rw [hcell, State.heldFor_modCell, State.sends_modCell, State.modCell_withCell, ← hl']
      rfl
    obtain ⟨silence, due, hready⟩ := State.restart_readies (s := held) (x := x') (h := r.handle) (l := l'.closedBy r
      .detached) b
      (hx' ▸ rfl) (reg := reg) hreg hgo (State.plantRoom_mono (State.plantRoom_heldFor hplant) (by omega)) hfloor
      (some (r.handle, r.inst))
    obtain ⟨v, hv⟩ : ∃ v, held.sends r.handle (l'.closedBy r .detached) false = v := ⟨_, rfl⟩
    obtain ⟨p, hp⟩ : ∃ p, (if b.runActive then (held.toldAt held.pcl (.cellFault c .unownedRun (some (r.handle,
      r.inst)))).withFloor
      [held.orderFrame reg c none (.stopRun .unowned)] else held.pcl) = p := ⟨_, rfl⟩
    obtain ⟨y, hy⟩ : ∃ y, recordEquipment b x.state true (x'.readied b silence) = y := ⟨_, rfl⟩
    have hst : y.state = st := hy ▸ rfl
    have henabled : y.enabled = x.enabled := hy ▸ hx' ▸ rfl
    have hrests : y.state = .offline ∨ y.state = .idle ∨ y.state = .fault := by
      rw [hst]
      unfold st
      split_ifs
      · exact .inr (.inr rfl)
      · exact .inr (.inl rfl)
      · exact .inl rfl
    obtain ⟨-, hfcn, htst, htbs, hctr⟩ := State.sends_frame (s := held) r.handle (l'.closedBy r .detached) false
    obtain ⟨hpending, -, hscn, -, -, -⟩ := State.sends_base (s := held) r.handle (l'.closedBy r .detached) false
    rw [hv] at hfcn htst htbs hctr hpending hscn
    have htst : v.tst = s.tst := htst
    have haccept : s.acceptStatus c b = v.withCell c (y.reportedPlain b s.tst.settings.silence) p
        ((decide (y.expiry ≠ b.expiry) || due) || v.dar.passDue) := by
      rw [State.acceptStatus_restart hrestarted hholds hnotSetup, hcleared, hrestart, hready]
      rw [hv, hp, State.withCell_modCell, show recordEquipment b (s.cell c).state true (x'.readied b silence) = y from hy,
        State.withCell_finish_plain hc ⟨hplain.1, hplain.2.trans henabled.symm⟩ (.inr (.inr hrests)), htst, Bool.or_assoc]
    have hport : p.plantQ.length + 1 ≤ queueCapacity ∧ p.floorLink = s.pcl.floorLink ∧ p.plantLink = s.pcl.plantLink ∧
        p = (if b.runActive then (held.notifies (.cellFault c .unownedRun (some (r.handle, r.inst)))).sendsFloor
          [s.orderFrame reg c none (.stopRun .unowned)] else held).pcl := by
      have hheld : held.plantRoom 2 := State.plantRoom_heldFor hplant
      rw [← hp]
      cases b.runActive with
      | true =>
        exact ⟨State.plantRoom_succ (s := { held with pcl := { held.pcl with noticeSeq := 0 } }) (n := 1) hheld
          (held.noticeFrame (.cellFault c .unownedRun (some (r.handle, r.inst)))), rfl, rfl, rfl⟩
      | false => exact ⟨State.plantRoom_mono hheld (by omega), rfl, rfl, rfl⟩
    obtain ⟨hroom, hfloorLink, hplantLink, hpcl⟩ := hport
    refine ⟨(s.acceptStatus c b).sendsPlant forwarded, l', execStatus_eq hrun hknows hread rfl ?_ ?_, ?_, ?_⟩
    · rw [haccept]
      exact htst
    · rw [haccept]
      exact hroom
    · rw [← hl']
      exact State.lot?_heldFor_of_lt hh l .interrupted (.cell c) [] .held
    · rw [haccept]
      have hback := State.sentBack_withCell hh held (State.sends_heldFor (s := s) r.handle l (l'.closedBy r .detached)
        .interrupted
        (.cell c) [] .held false) (c := c) (y.reportedPlain b s.tst.settings.silence)
        { p with plantQ := p.plantQ ++ forwarded } (decide (y.expiry ≠ b.expiry) || due)
      rw [hv] at hback
      refine ⟨hback, fun d hd => (State.cell_modCell_ne hd _).trans (State.cell_of_ctr hctr d),
        ⟨hpending, htst, hscn, htbs, hfloorLink, hplantLink⟩, hfcn, (State.cell_modCell hc _).trans ?_, ?_⟩
      · have hitems : x.items = Items.none := hfit.items_eq_none hnotSetup
        rw [Cell.reportedPlain, hst, ← hy, ← hx']
        unfold recordEquipment Cell.readied Cell.leftAlone
        simp only [Bool.true_or, if_true, ← hitems]
        rfl
      · intro told
        exact congrArg (fun p : Pcl => { p with plantQ := p.plantQ ++ forwarded }) hpcl

end Sys2Proof.Machine
end

section
/-! The end of a step: its checks, the segment and the summary closed, and what is told of it (R90, R91, R97, R120 to R122,
R131, R132). -/

namespace Sys2Proof.Machine

set_option Elab.async false

variable {s t : State} {c : Nat}

/-! ### Counters and lots change apart -/

theorem State.foldl_event_setLot (h : Nat) (l : Lot) (ts : List Trip) :
    ts.foldl (fun (u : State) t => u.event .guardTrip t.code) (s.setLot h l) =
      (ts.foldl (fun (u : State) t => u.event .guardTrip t.code) s).setLot h l := by
  induction ts generalizing s with
  | nil => rfl
  | cons t ts ih => exact ih (s := s.event .guardTrip t.code)

/-- Events change the counters alone. -/
theorem State.foldl_event_eq (ts : List Trip) :
    ∃ f, ts.foldl (fun (u : State) t => u.event .guardTrip t.code) s = { s with fcn := f } := by
  induction ts generalizing s with
  | nil => exact ⟨s.fcn, rfl⟩
  | cons t ts ih => exact ih (s := s.event .guardTrip t.code)

/-! ### The entries of a hold list -/

theorem hold?_append_ne {l : List HoldEntry} {e : HoldEntry} {r : HoldReason} (he : e.reason ≠ r) :
    (l ++ [e]).find? (fun x => x.reason == r) = l.find? fun x => x.reason == r := by
  simp [List.find?_append, he]

/-- A merge moves no entry of another reason (R131). -/
theorem find?_map_merge_ne {n : NewHold} {r : HoldReason} (hr : n.reason ≠ r) (l : List HoldEntry) :
    (l.map fun e => if e.reason == n.reason then mergeHold e n else e).find? (fun x => x.reason == r) =
      l.find? fun x => x.reason == r := by
  induction l with
  | nil => rfl
  | cons e l ih =>
    rw [List.map_cons, List.find?_cons, List.find?_cons, ih]
    by_cases he : e.reason = n.reason
    · have hne : e.reason ≠ r := fun h => hr (he.symm.trans h)
      have hno : (n.reason == r) = false := by simpa using hr
      simp [he, mergeHold, hno]
    · simp [he]

/-- A hold placed moves no entry of another reason (R131). -/
theorem find?_placeEntry_ne {n : NewHold} {r : HoldReason} (hr : n.reason ≠ r) (l : List HoldEntry) (now : Nat) :
    (placeEntry l n now).find? (fun x => x.reason == r) = l.find? fun x => x.reason == r := by
  unfold placeEntry
  split
  · exact find?_map_merge_ne hr l
  · exact hold?_append_ne hr

/-- A hold of a new reason is found as it was placed (R131). -/
theorem find?_placeEntry_new {l : List HoldEntry} {n : NewHold} (hnew : ∀ e ∈ l, e.reason ≠ n.reason) (now : Nat) :
    (placeEntry l n now).find? (fun x => x.reason == n.reason) = some ⟨n.reason, now, n.placedBy, n.trips, 1, n.note⟩ := by
  have hnone : l.find? (fun x => x.reason == n.reason) = none := by simpa using hnew
  simp [placeEntry_new now hnew, List.find?_append, hnone]

/-- A hold placed brings no entry of another reason (R131). -/
theorem reason_ne_placeEntry {l : List HoldEntry} {n : NewHold} {now : Nat} {r : HoldReason} (hr : n.reason ≠ r)
    (h : ∀ e ∈ l, e.reason ≠ r) : ∀ e ∈ placeEntry l n now, e.reason ≠ r := by
  have hnone : (placeEntry l n now).find? (fun x => x.reason == r) = none := by
    rw [find?_placeEntry_ne hr]
    simpa using h
  simpa using hnone

theorem placeEntry_ne_nil (l : List HoldEntry) (n : NewHold) (now : Nat) : placeEntry l n now ≠ [] := by
  unfold placeEntry
  split
  · intro h
    have hl : l = [] := List.map_eq_nil_iff.mp h
    simp [hl] at *
  · simp

theorem Lot.not_hasHold_iff {l : Lot} {r : HoldReason} : (!l.hasHold r) = true ↔ ∀ e ∈ l.holds, e.reason ≠ r := by
  simp [Lot.hasHold]

/-- The notice of a live lot's entry (R131). -/
theorem State.heldNotice_of_hold {h : Nat} {l : Lot} {e : HoldEntry} {r : HoldReason} (hl : s.lot? h = some l)
    (hfind : l.holds.find? (fun x => x.reason == r) = some e) (after : LotState) (hgo : s.noticesGo) (hroom : s.plantRoom 1) :
    s.heldNotice h r after = s.notifies (.lotHeld (s.named h l) (s.group (groupOf h)).family e after l.target) := by
  have hhold : l.hold? r = some e := hfind
  simp only [State.heldNotice, hl, hhold]
  exact State.notice_of_go hgo hroom _

/-! ### The checks of a step end -/

/-- The kinds of a step end and its holds counted (R90, R117, R131). -/
def State.stepCounted (s : State) (low : Bool) (lost : List Trip) : State :=
  let kinds := (if low then [Trip.finalLow] else []) ++ lost
  let tripped := kinds.foldl (fun (u : State) t => u.event .guardTrip t.code) s
  let placed := if low then tripped.event .holdPlaced 0 else tripped
  if lost = [] then placed else placed.event .holdPlaced 3

/-- The lot as the checks of a step end leave it (R90, R120, R122, R132). -/
def Lot.checked (l : Lot) (low : Bool) (lost : List Trip) (now : Nat) : Lot :=
  let kinds := (if low then [Trip.finalLow] else []) ++ lost
  let guarded := if low then placeEntry l.holds ⟨.guard, .ygd, [.finalLow], none⟩ now else l.holds
  let holds := if lost = [] then guarded else placeEntry guarded ⟨.quantity, .ygd, [], none⟩ now
  { l with
    holds := holds
    target := if holds = [] then l.target else some .advance
    mark := l.mark || !kinds.isEmpty
    acc := { l.acc with trips := addTrips l.acc.trips kinds, qtyMark := l.acc.qtyMark || !lost.isEmpty } }

theorem State.stepEndHolds_of_lot {h : Nat} {l : Lot} (hl : s.lot? h = some l) (low : Bool) (lost : List Trip) :
    s.stepEndHolds h low lost = (s.stepCounted low lost).setLot h (l.checked low lost s.now) := by
  have hh := State.lt_of_lot? hl
  have hlot : ∀ (u : State) (l' : Lot), (u.setLot h l').lot? h = some l' := fun u l' => State.lot?_setLot_of_lt hh l'
  obtain ⟨kinds, hkinds⟩ : ∃ kinds, (if low then [Trip.finalLow] else []) ++ lost = kinds := ⟨_, rfl⟩
  obtain ⟨u, hu⟩ : ∃ u, kinds.foldl (fun (u : State) t => u.event .guardTrip t.code) s = u := ⟨_, rfl⟩
  have hnow : u.now = s.now := by
    obtain ⟨f, hf⟩ := State.foldl_event_eq (s := s) kinds
    rw [← hu, hf]
    rfl
  have htrips : s.recordTrips h kinds = u.setLot h { l with acc := { l.acc with trips := addTrips l.acc.trips kinds } } := by
    rw [State.recordTrips, State.modAcc, State.modLot_of_lot hl, State.foldl_event_setLot, hu]
  unfold State.stepEndHolds State.stepCounted Lot.checked
  dsimp only
  rw [hkinds, htrips, hu]
  have hadd : ∀ (v : State) (l' : Lot) (n : NewHold), v.now = s.now → (v.setLot h l').addHold h n =
      (v.event .holdPlaced n.reason.code).setLot h { l' with
        holds := placeEntry l'.holds n s.now
        target := if l'.holds = [] then some (if l'.state = .complete then .complete else .resume) else l'.target
        mark := true } := fun v l' n hv => by
    rw [State.addHold_of_lot (hlot _ _), State.setLot_setLot, ← hv]
    rfl
  have hset : ∀ (v : State) (l' : Lot) (f : Lot → Lot), (v.setLot h l').modLot h f = v.setLot h (f l') := fun v l' f => by
    rw [State.modLot_of_lot (hlot _ _), State.setLot_setLot]
  have hmodAcc : ∀ (v : State) (l' : Lot) (f : Acc → Acc), (v.setLot h l').modAcc h f = v.setLot h
    { l' with acc := f l'.acc } :=
    fun v l' f => hset v l' _
  have hnonempty := placeEntry_ne_nil
  cases low with
  | false =>
    cases lost with
    | nil =>
      simp only [Bool.false_eq_true, if_false, List.isEmpty_nil, if_true, hset, ← hkinds]
      simp
    | cons t ts =>
      simp only [Bool.false_eq_true, if_false, List.isEmpty_cons, hadd _ _ _ hnow, hset, hmodAcc, ← hkinds]
      simp [hnonempty]
      rfl
  | true =>
    cases lost with
    | nil =>
      simp only [if_true, List.isEmpty_nil, hadd _ _ _ hnow, hset, ← hkinds]
      simp [hnonempty]
      rfl
    | cons t ts =>
      have hnow' : (u.event .holdPlaced HoldReason.guard.code).now = s.now := hnow
      simp only [if_true, if_false, Bool.false_eq_true, List.isEmpty_cons, hadd _ _ _ hnow, hadd _ _ _ hnow', hset, hmodAcc,
        ← hkinds]
      simp [hnonempty]
      rfl

/-! ### The close of a step -/

theorem State.stepCounted_eq (low : Bool) (lost : List Trip) : ∃ f, s.stepCounted low lost = { s with fcn := f } := by
  obtain ⟨f, hf⟩ := State.foldl_event_eq (s := s) ((if low then [Trip.finalLow] else []) ++ lost)
  unfold State.stepCounted
  dsimp only
  rw [hf]
  cases low <;> cases lost <;> exact ⟨_, rfl⟩

/-- A segment closed at the end of its step draws no hold (R97). -/
theorem State.closeSegment_stepEnd {h : Nat} {l : Lot} (hl : s.lot? h = some l) : s.closeSegment c h .stepEnd =
    (s.setLot h { l with segments := closeLast l .stepEnd }).modCell c (clearSegMark h) := by
  unfold State.closeSegment
  dsimp only
  rw [show (CloseCause.stepEnd != CloseCause.stepEnd) = false from rfl, Bool.and_false, if_neg Bool.false_ne_true,
    State.modLot_of_lot hl]

theorem clearSegMark_top {r : Run} {below : List Run} {x : Cell} (hstack : x.stack = r :: below)
    (hbelow : ∀ q ∈ below, q.handle ≠ r.handle) : clearSegMark r.handle x =
      { x with stack := { r with segOpen := false } :: below, ctx := none } := by
  have hmap : below.map (fun q => if q.handle == r.handle then { q with segOpen := false } else q) = below := by
    refine (List.map_congr_left fun q hq => ?_).trans (List.map_id _)
    simp [hbelow q hq]
  unfold clearSegMark
  rw [hstack, List.map_cons, hmap]
  simp

theorem quantityTrips_eq (p : Profile) (a : Acc) : quantityTrips p a =
    (if p.lostAllow + a.tested1 < a.unitsIn then [Trip.lostHigh] else []) ++
      (if a.retestable1 < a.tested2 then [Trip.retestExcess] else []) := by
  have h : p.lostAllow < a.unitsIn - a.tested1 ↔ p.lostAllow + a.tested1 < a.unitsIn := by omega
  simp only [quantityTrips, h]

/-- The summary of a step closes it (R121, R122). -/
theorem summaryOf_closes (x : RouteStep) (l : Lot) : (summaryOf x l).closes x l l.segments :=
  ⟨rfl, rfl, rfl, rfl, rfl, rfl, rfl, rfl, rfl, rfl, rfl, rfl, rfl, rfl, rfl, rfl⟩

/-- A step end, from its checks on (R90). -/
theorem stepCloses : Sys2Proof.Claims.stepCloses := by
  intro s c l r below before g low hc hl hstack hbelow hopen hsegments hgo hplant h step p lost hlow kinds guarded holds
    segments
    tripped placed counted newEntry
  have hfinal : finalLow p l.acc = low := Bool.eq_iff_iff.mpr (decide_eq_true_iff.trans hlow.symm)
  have hlost : quantityTrips p l.acc = lost := quantityTrips_eq p l.acc
  refine ⟨addTrips l.acc.trips kinds, summaryOf step { l.checked low lost s.now with segments := segments }, ?_⟩
  intro judged told guardTold
  refine ⟨fun t => mem_addTrips, summaryOf_closes step judged, ?_⟩
  have hh := State.lt_of_lot? hl
  obtain ⟨f, hf⟩ := State.stepCounted_eq (s := s) low lost
  have hcounted : s.stepCounted low lost = counted := rfl
  obtain ⟨closing, hclosing⟩ : ∃ x : Cell, { s.cell c with stack := { r with segOpen := false } :: below, ctx := none } = x :=
    ⟨_, rfl⟩
  have hclosed : closeLast (l.checked low lost s.now) .stepEnd = segments := by
    unfold closeLast Lot.checked
    rw [hsegments]
    simp [segments]
  have hsegment : ((counted.setLot h (l.checked low lost s.now)).closeSegment c h .stepEnd) =
      (counted.setLot h judged).modCell c fun _ => closing := by
    rw [State.closeSegment_stepEnd (State.lot?_setLot_of_lt hh _), State.setLot_setLot, hclosed]
    refine State.modCell_congr ?_
    rw [← hcounted, hf, ← hclosing]
    exact clearSegMark_top hstack hbelow
  have hcell : counted.cell c = s.cell c := by rw [← hcounted, hf]; rfl
  have hclose : (counted.setLot h { judged with summaries := l.summaries ++ [summaryOf step judged] }).modCell c
      (fun _ => closing) = (counted.setLot h { judged with summaries := l.summaries ++ [summaryOf step judged] }).modCell c
        fun x => { x with stack := { r with segOpen := false } :: below, ctx := none } := by
    refine State.modCell_congr ?_
    rw [State.setLot_cell, hcell, hclosing]
  have htop : (counted.setLot h (l.checked low lost s.now)).top? c = some r :=
    State.top?_of_stack (below := below) (by rw [State.setLot_cell, hcell]; exact hstack)
  have hinst : ∀ l' : Lot, ((counted.setLot h l').slot h).inst = (s.slot h).inst := fun l' => by
    rw [State.inst_setLot, ← hcounted, hf]
    rfl
  have hcountedGo : counted.noticesGo := by rw [← hcounted, hf]; exact hgo
  have hcountedRoom : counted.plantRoom 1 := by rw [← hcounted, hf]; exact State.plantRoom_mono hplant (by omega)
  have hstep : s.stepEnd c h =
      let u := if low && s.isNewHold h .guard then told.heldNotice h .guard .held else told
      if !lost.isEmpty && s.isNewHold h .quantity then u.heldNotice h .quantity .held else u := by
    unfold State.stepEnd
    rw [hl]
    dsimp only
    rw [show finalLow (s.profileOf (s.lotStep l)) l.acc = low from hfinal, show quantityTrips (s.profileOf (s.lotStep l))
      l.acc =
      lost from hlost, State.stepEndHolds_of_lot hl, hcounted, htop, Option.any_some, hopen, if_pos rfl, hsegment]
    rw [State.lot?_modCell, State.lot?_setLot_of_lt hh]
    dsimp only
    rw [State.modLot_modCell, State.modLot_of_lot (State.lot?_setLot_of_lt hh _), State.setLot_setLot, hclose,
      State.notice_of_go]
    · have hnamed : ∀ v : State, v =
      (counted.setLot h { judged with summaries := l.summaries ++ [summaryOf step judged] }).modCell c
          (fun x => { x with stack := { r with segOpen := false } :: below, ctx := none }) → v.lotRef h judged = s.named h l :=
        fun v hv => by
          rw [State.lotRef, hv]
          exact congrArg (LotRef.mk h · _ _) (hinst _)
      rw [hnamed _ rfl]
      rfl
    · exact hcountedGo
    · exact hcountedRoom
  have htoldTst : told.tst = s.tst := by
    have htst : counted.tst = s.tst := by rw [← hcounted, hf]
    exact htst
  have htoldGo : told.noticesGo := by
    have hgo' : counted.noticesGo := hcountedGo
    exact hgo'
  have htoldRoom : told.plantRoom 2 := by
    have hroom' : counted.plantRoom 3 := by rw [← hcounted, hf]; exact hplant
    exact State.plantRoom_succ (s := { counted with pcl := { counted.pcl with noticeSeq := 0 } }) hroom'
      (counted.noticeFrame (.lotStepDone (s.named h l) l.step c (summaryOf step judged) l.acc.fed1 l.acc.fed2))
  have hholdsOf : judged.holds ≠ [] → judged.target = some .advance := fun hne => if_neg hne
  have htells : ∀ (u : State) (reason : HoldReason) (trips : List Trip), u.ldr = told.ldr → u.tst = told.tst →
      u.noticesGo → u.plantRoom 1 →
      judged.holds.find? (fun x => x.reason == reason) = some ⟨reason, s.now, .ygd, trips, 1, none⟩ →
      u.heldNotice h reason .held = newEntry reason trips u := fun u reason trips hldr htst hgo' hroom hfind => by
    have hne : judged.holds ≠ [] := by
      rintro hnil
      rw [hnil] at hfind
      cases hfind
    have hulot : u.lot? h = some { judged with summaries := l.summaries ++ [summaryOf step judged] } := by
      have hslot : u.lot? h = told.lot? h := by simp only [State.lot?, State.slot, hldr]
      exact hslot.trans (State.lot?_setLot_of_lt hh _)
    have huinst : (u.slot h).inst = (s.slot h).inst := by
      have hslot : u.slot h = told.slot h := by simp only [State.slot, hldr]
      rw [hslot]
      exact hinst _
    have hgroup : u.group (groupOf h) = s.group (groupOf h) := by
      unfold State.group
      rw [htst, htoldTst]
    rw [State.heldNotice_of_hold hulot hfind .held hgo' hroom, State.named, huinst, hgroup]
    exact congrArg (fun x => u.notifies
      (.lotHeld (s.named h l) (s.group (groupOf h)).family ⟨reason, s.now, .ygd, trips, 1, none⟩
      .held x)) (hholdsOf hne)
  have hguard : (if low && s.isNewHold h .guard then told.heldNotice h .guard .held else told) = guardTold := by
    rw [State.isNewHold_of_lot hl]
    by_cases hnew : low = true ∧ ∀ e ∈ l.holds, e.reason ≠ .guard
    · have hfind : judged.holds.find? (fun x => x.reason == .guard) = some ⟨.guard, s.now, .ygd, [.finalLow], 1, none⟩ := by
        have hguarded : guarded = placeEntry l.holds ⟨.guard, .ygd, [.finalLow], none⟩ s.now := if_pos hnew.1
        have hfirst := find?_placeEntry_new (n := ⟨.guard, .ygd, [.finalLow], none⟩) hnew.2 s.now
        show holds.find? _ = _
        unfold holds
        rw [hguarded]
        split
        · exact hfirst
        · exact (find?_placeEntry_ne (by decide) _ _).trans hfirst
      unfold guardTold
      rw [if_pos hnew, hnew.1, Lot.hasHold_eq_false hnew.2]
      exact htells told .guard [.finalLow] rfl rfl htoldGo (State.plantRoom_mono htoldRoom (by omega)) hfind
    · unfold guardTold
      rw [if_neg hnew, if_neg]
      rw [Bool.and_eq_true, Lot.not_hasHold_iff]
      exact hnew
  have hquantityGo : guardTold.noticesGo ∧ guardTold.plantRoom 1 ∧ guardTold.ldr = told.ldr ∧ guardTold.tst = told.tst := by
    unfold guardTold
    split
    · exact ⟨htoldGo, State.plantRoom_succ (s := { told with pcl := { told.pcl with noticeSeq := 0 } }) htoldRoom
        (told.noticeFrame (.lotHeld (s.named h l) (s.group (groupOf h)).family ⟨.guard, s.now, .ygd, [.finalLow], 1, none⟩ .held
          (some .advance))), rfl, rfl⟩
    · exact ⟨htoldGo, State.plantRoom_mono htoldRoom (by omega), rfl, rfl⟩
  obtain ⟨hqGo, hqRoom, hqLdr, hqTst⟩ := hquantityGo
  dsimp only at hstep
  rw [hstep, hguard, State.isNewHold_of_lot hl]
  have hlostEmpty : (!lost.isEmpty) = true ↔ lost ≠ [] := by simp
  by_cases hnew : lost ≠ [] ∧ ∀ e ∈ l.holds, e.reason ≠ .quantity
  · have hfind : judged.holds.find? (fun x => x.reason == .quantity) = some ⟨.quantity, s.now, .ygd, [], 1, none⟩ := by
      have hguarded : ∀ e ∈ guarded, e.reason ≠ .quantity := by
        unfold guarded
        split
        · exact reason_ne_placeEntry (by decide) hnew.2
        · exact hnew.2
      have hholds : holds = placeEntry guarded ⟨.quantity, .ygd, [], none⟩ s.now := if_neg hnew.1
      show holds.find? _ = _
      rw [hholds]
      exact find?_placeEntry_new (n := ⟨.quantity, .ygd, [], none⟩) hguarded s.now
    rw [if_pos hnew, if_pos (by rw [Bool.and_eq_true, Lot.not_hasHold_iff, hlostEmpty]; exact hnew)]
    exact htells guardTold .quantity [] hqLdr hqTst hqGo hqRoom hfind
  · rw [if_neg hnew, if_neg (by rw [Bool.and_eq_true, Lot.not_hasHold_iff, hlostEmpty]; exact hnew)]

end Sys2Proof.Machine
end

section
/-! The end of a pass: a retest started, a step ended, a start implied, a stopped pass end marked
  (R82, R86 to R90, R93, R123). -/

namespace Sys2Proof.Machine

set_option Elab.async false

variable {s t : State} {c : Nat}

/-! ### What a step end leaves -/

/-- The record of a cell whose step has ended under its top run (R90, R97). -/
def Cell.stepEnded (x : Cell) (r : Run) (below : List Run) : Cell :=
  if r.segOpen then { x with stack := { r with segOpen := false } :: below, ctx := none } else x

/-- A step end changes its lot, which stays at its step, its cell, the port and the counters (R90). -/
theorem State.stepEnd_eq {r : Run} {below : List Run} {l : Lot} (hl : s.lot? r.handle = some l)
    (hstack : (s.cell c).stack = r :: below) (hbelow : ∀ q ∈ below, q.handle ≠ r.handle) :
    ∃ l' p f, s.stepEnd c r.handle = { (s.setLot r.handle l').modCell c fun _ => (s.cell c).stepEnded r below with
      pcl := p, fcn := f } ∧ l'.step = l.step ∧ l'.route = l.route := by
  have hh := State.lt_of_lot? hl
  obtain ⟨low, hlow⟩ : ∃ low, finalLow (s.profileOf (s.lotStep l)) l.acc = low := ⟨_, rfl⟩
  obtain ⟨lost, hlost⟩ : ∃ lost, quantityTrips (s.profileOf (s.lotStep l)) l.acc = lost := ⟨_, rfl⟩
  obtain ⟨f, hf⟩ := State.stepCounted_eq (s := s) low lost
  obtain ⟨judged, hjudged⟩ : ∃ l', l.checked low lost s.now = l' := ⟨_, rfl⟩
  have hstep : judged.step = l.step ∧ judged.route = l.route := hjudged ▸ ⟨rfl, rfl⟩
  have hclosed : ∃ l', (if ((({ s with fcn := f } : State).setLot r.handle judged).top? c).any Run.segOpen then
      (({ s with fcn := f } : State).setLot r.handle judged).closeSegment c r.handle .stepEnd
      else ({ s with fcn := f } : State).setLot r.handle judged) =
        (({ s with fcn := f } : State).setLot r.handle l').modCell c (fun _ => (s.cell c).stepEnded r below) ∧
      l'.step = l.step ∧ l'.route = l.route := by
    rw [State.top?_of_stack (s := ({ s with fcn := f } : State).setLot r.handle judged) hstack, Option.any_some, Cell.stepEnded]
    cases hopen : r.segOpen with
    | true =>
      refine ⟨{ judged with segments := closeLast judged .stepEnd }, ?_, hstep⟩
      rw [if_pos rfl, if_pos rfl, State.closeSegment_stepEnd (State.lot?_setLot_of_lt hh _), State.setLot_setLot]
      exact State.modCell_congr (clearSegMark_top hstack hbelow)
    | false =>
      refine ⟨judged, ?_, hstep⟩
      rw [if_neg Bool.false_ne_true, if_neg Bool.false_ne_true]
      exact (State.modCell_self rfl).symm
  obtain ⟨closed, hclosed, hsame⟩ := hclosed
  have hnotice : ∀ (b : Bool) (u : State) (reason : HoldReason), ∃ p f,
      (if b then u.heldNotice r.handle reason .held else u) = { u with pcl := p, fcn := f } := fun b u reason => by
    cases b with
    | true => exact State.heldNotice_port u _ _ _
    | false => exact ⟨u.pcl, u.fcn, rfl⟩
  have htells : ∀ (u : State) (b : NoticeBody) (g q : Bool), ∃ p f,
      (if q then (if g then (u.notice b).heldNotice r.handle .guard .held else u.notice b).heldNotice r.handle .quantity .held
        else if g then (u.notice b).heldNotice r.handle .guard .held else u.notice b) = { u with pcl := p, fcn := f } :=
    fun u b g q => by
      obtain ⟨p, f, hu⟩ := State.notice_port u b
      obtain ⟨p', f', hg⟩ := hnotice g (u.notice b) .guard
      obtain ⟨p'', f'', hq⟩ := hnotice q (if g then (u.notice b).heldNotice r.handle .guard .held else u.notice b) .quantity
      rw [hq, hg, hu]
      exact ⟨p'', f'', rfl⟩
  unfold State.stepEnd
  rw [hl]
  dsimp only
  rw [hlow, hlost, State.stepEndHolds_of_lot hl, hjudged, hf, hclosed, State.lot?_modCell, State.lot?_setLot_of_lt hh]
  dsimp only
  rw [State.modLot_modCell, State.modLot_of_lot (State.lot?_setLot_of_lt hh _), State.setLot_setLot]
  obtain ⟨p, f', htold⟩ := htells _ _ _ _
  exact ⟨_, p, f', htold, hsame⟩

/-! ### Where a closed step sends its lot -/

theorem State.stepCount_congr (htst : t.tst = s.tst) (route : Nat) : t.stepCount route = s.stepCount route := by
  simp only [State.stepCount, State.route?, htst]

/-- A lot of a closed step that moves on to the next step of its route (R90, R108, R123). -/
theorem State.advance_of_lot {h : Nat} {l : Lot} (hl : t.lot? h = some l) (htst : t.tst = s.tst) (htbs : t.tbs = s.tbs) :
    t.advance h = t.joins h (s.atNextStep l) := by
  have hroute : t.routeStep l.route (l.step + 1) = s.routeStep l.route (l.step + 1) := by
    simp only [State.routeStep, State.route?, htst]
  have hnow : t.now = s.now := by simp only [State.now, htbs]
  unfold State.advance
  rw [State.modLot_of_lot hl, State.joinQueue_of_lot (State.lot?_setLot hl _), hroute, State.joins_setLot,
    show (t.setLot h _).now = s.now from hnow]
  rfl

/-- A lot whose run has left it with its step closed (R90, R144). -/
theorem State.sendLot_closed {h : Nat} {l : Lot} (hl : t.lot? h = some l) (htst : t.tst = s.tst) (htbs : t.tbs = s.tbs)
    (new : Bool) :
    (l.holds ≠ [] → t.sendLot h true new = t.becomesHeld h l) ∧
      (l.holds = [] → l.step + 1 < s.stepCount l.route → t.sendLot h true new = t.joins h (s.atNextStep l)) ∧
      (l.holds = [] → s.stepCount l.route ≤ l.step + 1 → t.sendLot h true new = t.complete h) := by
  have hcount := State.stepCount_congr htst l.route
  unfold State.sendLot State.passOn
  rw [State.hasHolds_of_lot hl, hl]
  refine ⟨fun hholds => ?_, fun hholds hlast => ?_, fun hholds hlast => ?_⟩
  · rw [if_pos (by simp [hholds]), State.toHeld_of_lot hl]
  · rw [if_neg (by simp [hholds]), if_pos rfl]
    dsimp only
    rw [hcount, if_pos hlast, State.advance_of_lot hl htst htbs]
  · rw [if_neg (by simp [hholds]), if_pos rfl]
    dsimp only
    rw [hcount, if_neg (by omega)]

/-! ### A cell that goes on -/

/-- What a cell can carry depends on its sites, its expiry, the tables, floor time and the run's lot (R52, R70). -/
theorem State.carries_congr {r : Run} (htst : t.tst = s.tst) (htbs : t.tbs = s.tbs) (hlot : t.lot? r.handle = s.lot? r.handle)
    (hstanding : (t.cell c).standing = (s.cell c).standing) (h : s.carries c r) : t.carries c r := by
  have hstep : t.runStep r = s.runStep r := State.runStep_congr htst (by rw [hlot])
  have hprofile : ∀ x, t.profileOf x = s.profileOf x := fun x => by simp only [State.profileOf, State.profile?, htst]
  have henabled : (t.cell c).enabled = (s.cell c).enabled := congrArg Prod.fst hstanding
  have hexpiry : (t.cell c).expiry = (s.cell c).expiry := congrArg Prod.snd hstanding
  unfold State.carries at h ⊢
  rwa [hstep, hprofile, henabled, hexpiry, htbs]

/-- After a top run has left a cell that can carry every run below (R82). -/
theorem State.afterTop_eq (hc : c < 48) (hcarries : ∀ low ∈ (s.cell c).stack, s.carries c low) :
    s.afterTop c = s.cellGoesOn c := by
  cases hstack : (s.cell c).stack with
  | nil => exact State.afterTop_of_empty hstack
  | cons low rest => exact State.afterTop_of_carries hc hstack (hcarries low (by rw [hstack]; exact List.mem_cons_self))

/-- A cell that goes on leaves the lots of other runs (R70, R82). -/
theorem State.lot?_cellGoesOn (hc : c < 48) {h : Nat} (hother : ∀ low ∈ (s.cell c).stack, low.handle ≠ h) :
    (s.cellGoesOn c).lot? h = s.lot? h := by
  unfold State.cellGoesOn
  split
  · rename_i low rest hstack
    obtain ⟨hldr, -⟩ := State.setsUp_leaves (s := s) hc hstack
    have hne : h ≠ low.handle := fun he => hother low (by rw [hstack]; exact List.mem_cons_self) he.symm
    have hlot : (s.setsUp c low).lot? h = (s.setLotState low.handle .assigned).lot? h := by
      simp only [State.lot?, State.slot, hldr]
    rw [hlot, State.setLotState]
    exact congrArg Slot.lot (State.slot_modLot_ne hne _)
  · rfl

/-! ### PASS_END -/

theorem State.clearCtx_setFed {h : Nat} {l : Lot} (hl : s.lot? h = some l) (pass : Pass) (fed : Nat) :
    ((s.setLot h { l with mark := true }).clearCtx c).modAcc h (fun a => setFed a pass fed) =
      (s.setLot h (l.fed pass fed)).modCell c fun x => { x with ctx := none } := by
  have hfed : { l with mark := true, acc := setFed l.acc pass fed } = l.fed pass fed := by cases pass <;> rfl
  unfold State.clearCtx State.modAcc
  rw [State.modLot_modCell, State.modLot_of_lot (State.lot?_setLot hl _), State.setLot_setLot]
  exact congrArg (fun l' => (s.setLot h l').modCell c fun x => { x with ctx := none }) hfed

theorem State.dueRetest_iff {l : Lot} {pass : Pass} :
    (pass = .first ∧ retestDue (s.lotStep l) l.acc = true) ↔ s.dueRetest l pass := by
  simp [State.dueRetest, retestDue, and_assoc]

/-- A PASS_END of the cell's top run that its state takes (R87, R89). -/
theorem State.takePassEnd_taken {m : Msg} {pass : Pass} {fed : Nat} {reg : Registration} {l : Lot} {r : Run} {below : List Run}
    (hknows : s.knowsCell m reg) (hread : readPassEnd m.body = some (pass, fed)) (hlot : s.namesLot m l)
    (hstack : (s.cell m.cell.toNat).stack = r :: below) (hnamed : r.namedBy m) (hpass : r.pass = pass)
    (htaken : takesPassEnd (s.cell m.cell.toNat) r = true) :
    s.takePassEnd m = if (s.cell m.cell.toNat).state = .stopping then
      (s.setLot r.handle { l with mark := true }).markPassEnd m.cell.toNat r pass fed
    else (s.setLot r.handle { l with mark := true }).endPass m.cell.toNat r pass fed := by
  unfold State.takePassEnd
  rw [hread]
  dsimp only
  rw [State.runEvent_taken hknows hlot hstack hnamed (fun p h => by cases h; exact hpass) htaken]
  rfl

/-- A frame of a cell whose effect is known: it goes on whether or not the plant-bound queue has room (R165, R170). -/
theorem fromCell_goes (h : s.takes) {kind : Code16} {m : Msg} {take : State → State} (htake : take s = t)
    (htst : t.tst = s.tst) : fromCell kind m take s = .next (t.enqueue .plant (forwardedFrame s kind m m.body)).settle := by
  have hframe : forwardedFrame t kind m m.body = forwardedFrame s kind m m.body := by simp only [forwardedFrame, htst]
  rw [fromCell_takes h, htake, State.forward, hframe]

/-- A PASS_END of a run under way: a retest is started, or the step ends (R87). -/
theorem State.takePassEnd_running {m : Msg} {pass : Pass} {fed : Nat} {reg : Registration} {l : Lot} {r : Run}
    {below : List Run} (hknows : s.knowsCell m reg) (hread : readPassEnd m.body = some (pass, fed)) (hlot : s.namesLot m l)
    (hstack : (s.cell m.cell.toNat).stack = r :: below) (hnamed : r.namedBy m) (hsame : r.pass = pass)
    (hstate : (s.cell m.cell.toNat).state = .running ∨ (s.cell m.cell.toNat).state = .paused) :
    let u := (s.setLot r.handle (l.fed pass fed)).modCell m.cell.toNat fun x => { x with ctx := none }
    (s.dueRetest l pass → s.takePassEnd m = u.startRetest m.cell.toNat r.handle) ∧
      (¬s.dueRetest l pass → s.takePassEnd m = u.endStep m.cell.toNat r) := by
  intro u
  have hl : s.lot? r.handle = some l := hnamed.1 ▸ State.lot?_of_namesLot hlot
  have hulot : u.lot? r.handle = some (l.fed pass fed) := State.lot?_setLot hl _
  have hrunning : (s.cell m.cell.toNat).state ≠ .stopping ∧ (s.cell m.cell.toNat).state ≠ .starting ∧
      takesPassEnd (s.cell m.cell.toNat) r = true := by
    unfold takesPassEnd
    rcases hstate with e | e <;> rw [e] <;> exact ⟨nofun, nofun, rfl⟩
  obtain ⟨hnotStopping, hnotStarting, htaken⟩ := hrunning
  have htake : s.takePassEnd m = if pass = .first ∧ retestDue (u.lotStep (l.fed pass fed)) (l.fed pass fed).acc = true then
      u.startRetest m.cell.toNat r.handle else u.endStep m.cell.toNat r := by
    rw [State.takePassEnd_taken hknows hread hlot hstack hnamed hsame htaken, if_neg hnotStopping]
    unfold State.endPass
    dsimp only
    rw [State.setLot_cell, if_neg hnotStarting, State.clearCtx_setFed hl]
    change (match u.lot? r.handle with | none => _ | some l => _) = _
    rw [hulot]
  exact ⟨fun h => htake.trans (if_pos (State.dueRetest_iff.mpr h)), fun h => htake.trans
    (if_neg fun hd => h (State.dueRetest_iff.mp hd))⟩

/-- The step of a run that ends: the cell goes on and then the lot (R82, R90; log entry 32). -/
theorem passEndCloses : Sys2Proof.Claims.passEndCloses := by
  intro m pass fed reg l r below s hrun hfits hpass hknows hread hlot hstack hnamed hsame hstate hdue hbelow c ended left goes
  have hc : c < 48 := hknows.lt
  have hl : s.lot? r.handle = some l := hnamed.1 ▸ State.lot?_of_namesLot hlot
  have hh := State.lt_of_lot? hl
  obtain ⟨u, hu⟩ : ∃ u, (s.setLot r.handle (l.fed pass fed)).modCell c (fun x => { x with ctx := none }) = u := ⟨_, rfl⟩
  have hulot : u.lot? r.handle = some (l.fed pass fed) := hu ▸ State.lot?_setLot hl _
  have hucell : u.cell c = { s.cell c with ctx := none } := hu ▸ State.cell_modCell hc _
  obtain ⟨l', p, f, hended, hstep, hroute⟩ := State.stepEnd_eq (s := u) (c := c) (below := below) hulot
    (by rw [hucell]; exact hstack)
    fun q hq => (hbelow q hq).1
  have htake : s.takePassEnd m = ((ended.popTop c).afterTop c).sendLot r.handle true true := by
    exact (State.takePassEnd_running hknows hread hlot hstack hnamed hsame hstate).2 hdue
  have hendedCell : ended.cell c = ({ s.cell c with ctx := none } : Cell).stepEnded r below := by
    have hcell : (u.stepEnd c r.handle).cell c = ({ s.cell c with ctx := none } : Cell).stepEnded r below := by
      rw [hended, ← hucell]
      exact State.cell_modCell hc _
    rw [← hcell, ← hu]
  have hpop : ended.popTop c = ended.modCell c fun x => { x with stack := below, ctx := none, orderCurrent := false } := by
    refine State.modCell_congr ?_
    rw [hendedCell]
    unfold Cell.stepEnded
    split
    · rfl
    · dsimp only
      rw [hstack, List.tail_cons]
  have hended' : ended =
    { (u.setLot r.handle l').modCell c fun _ => (u.cell c).stepEnded r below with pcl := p, fcn := f } := by
    rw [← hended, ← hu]
  have htst : ended.tst = s.tst := by
    rw [hended', ← hu]
    rfl
  have htbs : ended.tbs = s.tbs := by
    rw [hended', ← hu]
    rfl
  have hself : ended.lot? r.handle = some l' := by
    rw [hended']
    exact State.lot?_setLot hulot l'
  have hothers : ∀ k, k ≠ r.handle → ended.lot? k = s.lot? k := fun k hk => by
    rw [hended']
    refine (State.lot?_setLot_ne hk l').trans ?_
    rw [← hu]
    exact State.lot?_setLot_ne hk _
  obtain ⟨off, hoff⟩ : ∃ v, (ended.modCell c fun x => { x with stack := below, ctx := none, orderCurrent := false }) = v
    := ⟨_, rfl⟩
  have hoffCell : off.cell c = { ended.cell c with stack := below, ctx := none, orderCurrent := false } :=
    hoff ▸ State.cell_modCell hc _
  have hstanding : (off.cell c).standing = (s.cell c).standing := by
    rw [hoffCell, hendedCell]
    unfold Cell.stepEnded
    split <;> rfl
  have hleft : left = off.afterTop c := by
    refine (congrArg (State.cellGoesOn · c) hoff).trans (State.afterTop_eq hc fun low hlow => ?_).symm
    rw [hoffCell] at hlow
    obtain ⟨hne, hcarries⟩ := hbelow low hlow
    refine State.carries_congr (hoff ▸ htst) (hoff ▸ htbs) ?_ hstanding hcarries
    rw [← hoff]
    exact hothers _ hne
  have hleftLot : left.lot? r.handle = some l' := by
    have hgoes : left.lot? r.handle = off.lot? r.handle := by
      refine (congrArg (fun v : State => (v.cellGoesOn c).lot? r.handle) hoff).trans
        (State.lot?_cellGoesOn hc fun low hlow => ?_)
      rw [hoffCell] at hlow
      exact (hbelow low hlow).1
    rw [hgoes, ← hoff]
    exact hself
  have hmoves := (Moves.refl (C := fun _ => True) (S := True) off).afterTop c
  have hleftTst : left.tst = s.tst := by
    rw [hleft, hmoves.base.2.1, ← hoff]
    exact htst
  have hleftTbs : left.tbs = s.tbs := by
    rw [hleft, hmoves.base.2.2.2.1, ← hoff]
    exact htbs
  have hgoes : ∀ v, left.sendLot r.handle true true = v → goes v := fun v hv => by
    have hvtst : v.tst = s.tst := by
      rw [← hv, ((Moves.refl (C := fun _ => True) (S := True) left).sendLot r.handle true true).base.2.1]
      exact hleftTst
    refine fromCell_goes hrun (take := (State.takePassEnd · m)) ?_ hvtst
    rw [htake, hpop, hoff, ← hleft, hv]
  obtain ⟨hheld, hnext, hlast⟩ := State.sendLot_closed (s := s) hleftLot hleftTst hleftTbs true
  rw [hstep, hroute] at hnext hlast
  exact ⟨l', hself, fun h => hgoes _ (hheld h), fun h hn => hgoes _ (hnext h hn), fun h hn => hgoes _ (hlast h hn)⟩

/-! ### A start implied by a PASS_END -/

/-- A run's lot and cell after its start, as the events that follow find them (R75, R86). -/
theorem State.runStarts_names {m : Msg} {l : Lot} {r : Run} {below : List Run} {v : ProgVals} (hc : m.cell.toNat < 48)
    (hlot : s.namesLot m l) (hnamed : r.namedBy m) : let started := s.runStarts m.cell.toNat r below l v
    started.namesLot m (l.started m.cell.toNat r v) ∧
      started.cell m.cell.toNat = (s.cell m.cell.toNat).started r below ∧
      started.setLot r.handle { l.started m.cell.toNat r v with mark := true } = started := by
  intro started
  have hh := State.lt_of_lot? (State.lot?_of_namesLot hlot)
  have hslot : started.slot m.handle.toNat = ⟨m.inst.toNat, some (l.started m.cell.toNat r v)⟩ := by
    obtain ⟨hgroup, hbound, hslot⟩ := hlot
    have hset := State.slot_setLot_self (s := s) hh (l.started m.cell.toNat r v)
    rw [hslot, ← hnamed.1] at hset
    rw [← hnamed.1]
    exact hset
  have hmark : { l.started m.cell.toNat r v with mark := true } = l.started m.cell.toNat r v := by
    unfold Lot.started
    split <;> rfl
  refine ⟨⟨hlot.1, hlot.2.1, hslot⟩, State.cell_modCell hc _, ?_⟩
  rw [hmark]
  exact State.setLot_self (by rw [hnamed.1, State.lot?, hslot])

/-- The end of a pass names its run by its handle alone, once the run has started (R87, R90). -/
theorem State.endPass_congr {r r' : Run} (hstate : (s.cell c).state ≠ .starting) (hhandle : r'.handle = r.handle) (pass : Pass)
    (fed : Nat) : s.endPass c r' pass fed = s.endPass c r pass fed := by
  unfold State.endPass State.endStep
  rw [if_neg hstate, if_neg hstate, hhandle]

theorem State.startRun_leaves (hc : c < 48) {r : Run} {below : List Run} {l : Lot} {v : ProgVals} (hfits : (s.cell c).Fits)
    (hpass : s.passTaken) (hstack : (s.cell c).stack = r :: below) (hl : s.lot? r.handle = some l)
    (hloaded : r.segOpen = false → (s.cell c).loaded = some v) (hstate : (s.cell c).state = .starting) (pass : Pass)
    (fed : Nat) : (s.setLot r.handle { l with mark := true }).endPass c r pass fed = (s.runStarts c r below l v).endPass c
      r pass
      fed := by
  have hstarted : (s.runStarts c r below l v).cell c = (s.cell c).started r below := State.cell_modCell hc _
  have hrunning : ((s.runStarts c r below l v).cell c).state ≠ .starting := by
    rw [hstarted, Cell.started, if_pos hstate]
    nofun
  unfold State.endPass
  rw [State.setLot_cell, if_pos hstate, if_neg hrunning, State.startRun_eq hc hfits hpass hstack hl hloaded (.inl hstate)]

/-- A PASS_END of a run that awaits its start is taken after the start it implies (R86, R87, R89). -/
theorem passEndStarts : Sys2Proof.Claims.passEndStarts := by
  intro m pass fed reg l r below v s hrun hfits hpass hknows hread hlot hstack hnamed hsame hloaded c started
  have hc : c < 48 := hknows.lt
  have hl : s.lot? r.handle = some l := hnamed.1 ▸ State.lot?_of_namesLot hlot
  obtain ⟨hlot', hcell, hmark⟩ := State.runStarts_names (below := below) (v := v) hc hlot hnamed
  refine ⟨fun hstate => ?_, fun hstate hstopped hawaiting hroom => ?_⟩
  · have hstate' : (started.cell c).state = .running := by
      rw [hcell, Cell.started, if_pos hstate]
    have htaken : takesPassEnd (s.cell c) r = true := by
      unfold takesPassEnd
      rw [hstate]
    have hleft := State.takePassEnd_taken hknows hread hlot hstack hnamed hsame htaken
    have hright := State.takePassEnd_taken (s := started) (r := { r with awaiting := false, segOpen := true }) (below := below)
      hknows hread hlot' (by rw [hcell]; rfl) hnamed hsame (by unfold takesPassEnd; rw [hstate'])
    have hnot : (s.cell c).state ≠ .stopping := by rw [hstate]; nofun
    have hnot' : (started.cell c).state ≠ .stopping := by rw [hstate']; nofun
    rw [if_neg hnot, State.startRun_leaves hc (hfits c hc) hpass hstack hl hloaded hstate] at hleft
    rw [if_neg hnot', hmark] at hright
    have htake : s.takePassEnd m = started.takePassEnd m := by
      rw [hleft, hright]
      exact (State.endPass_congr (r := r) (r' := { r with awaiting := false, segOpen := true })
        (by rw [hstate']; nofun) rfl pass
        fed).symm
    refine (fromCell_takes hrun Kind.passEnd m fun s => s.takePassEnd m).trans ?_
    refine Eq.trans ?_ (fromCell_takes (s := started) hrun Kind.passEnd m fun s => s.takePassEnd m).symm
    rw [htake]
  · have htaken : takesPassEnd (s.cell c) r = true := by
      unfold takesPassEnd
      rw [hstate, hstopped]
      rfl
    have htake : s.takePassEnd m = started.modCell c fun x => { x with
        stack := { r with awaiting := false, segOpen := true, stopped := some (pass, fed) } :: below } := by
      rw [State.takePassEnd_taken hknows hread hlot hstack hnamed hsame htaken, if_pos hstate]
      unfold State.markPassEnd
      dsimp only
      rw [if_pos hawaiting, State.startRun_eq hc (hfits c hc) hpass hstack hl hloaded (.inr hstate),
        State.modTop_of_stack (s := started) (r := { r with awaiting := false, segOpen := true }) (below := below)
          (by rw [hcell]; rfl)]
      exact State.modCell_congr rfl
    have hdue : started.passTaken := decide_eq_false fun h => nomatch hstate.symm.trans h.1
    exact fromCell_eq hrun (take := (State.takePassEnd · m)) htake hdue hroom

/-! ### The retest and the stopped pass end -/

/-- The retest of a first pass started on the same cell (R88). -/
theorem State.startRetest_eq (hc : c < 48) {reg : Registration} {r : Run} {below : List Run} {l : Lot} (hfits : (s.cell c).Fits)
    (hreg : s.reg? c = some reg) (hstack : (s.cell c).stack = r :: below) (hl : s.lot? r.handle = some l)
      (hroom : s.floorRoom 1)
    (hstate : (s.cell c).state = .running ∨ (s.cell c).state = .paused) : s.startRetest c r.handle =
      ((s.modCell c fun x => { x with
        state := .starting
        stack := { r with pass := .retest, awaiting := true } :: below
        ctx := none
        timers := { x.timers with start := some s.tst.settings.start, jam := none } }).setLot r.handle l.inRetest).sendsFloor
        [s.orderFrame reg c (some r) (.startRun .retest (s.cell c).enabled (l.acc.retestable1 - l.acc.tested2))] := by
  obtain ⟨y, hy⟩ : ∃ y : Cell, { s.cell c with stack := { r with pass := .retest } :: below, ctx := none } = y := ⟨_, rfl⟩
  have hretest : s.toRetest c r.handle = (s.setLot r.handle l.inRetest).modCell c fun _ => y := by
    unfold State.toRetest State.clearCtx
    dsimp only
    rw [State.modLot_of_lot hl, State.modTop_of_stack (s := s.setLot r.handle _) (r := r) (below := below) hstack,
      State.modCell_modCell, ← hy]
    rfl
  have hcell : ((s.setLot r.handle l.inRetest).modCell c fun _ => y).cell c = y := State.cell_modCell hc _
  have hlot : ((s.setLot r.handle l.inRetest).modCell c fun _ => y).lot? r.handle = some l.inRetest := State.lot?_setLot hl _
  have hstack' : (((s.setLot r.handle l.inRetest).modCell c fun _ => y).cell c).stack = { r with pass := .retest } ::
    below := by
    rw [hcell, ← hy]
  unfold State.startRetest
  dsimp only
  rw [hretest, State.top?_of_stack hstack']
  dsimp only
  have hsend := State.sendStart_of_room (s := (s.setLot r.handle l.inRetest).modCell c fun _ => y) hc hreg hstack' hlot hroom
  rw [hsend, State.startsRun, State.modCell_modCell, hcell]
  have hcause := hfits.cause_eq_none (by rcases hstate with e | e <;> rw [e] <;> nofun)
  have hstop := hfits.stopReason_eq_none (by rcases hstate with e | e <;> rw [e] <;> nofun)
  have hitems := hfits.items_eq_none (by rcases hstate with e | e <;> rw [e] <;> nofun)
  obtain ⟨hsetup, -, hstopTimer, -⟩ := hfits.timers_eq_none
  obtain ⟨hload, hkit, hsoak⟩ := hsetup (by rcases hstate with e | e <;> rw [e] <;> nofun)
  have hstopTimer := hstopTimer (by rcases hstate with e | e <;> rw [e] <;> nofun)
  have henabled : y.enabled = (s.cell c).enabled := by rw [← hy]
  rw [henabled]
  refine congrArg (State.sendsFloor · [s.orderFrame reg c (some r) (.startRun .retest (s.cell c).enabled
    (l.acc.retestable1 - l.acc.tested2))]) (State.modCell_congr ?_)
  rw [← hy]
  simp [Timers.idle, hcause, hstop, hitems, hload, hkit, hsoak, hstopTimer]
  rfl

/-- Settles O53. -/
theorem passEndEndsPassOrStep : Obligations.PassEndEndsPassOrStep := by
  refine ⟨stepCloses, passEndCloses, passEndStarts, ?_, fun m s hrun hpass hroom => ?_⟩
  · intro m pass fed reg l r below s hrun hfits hpass hknows hread hlot hstack hnamed hsame hroom c x
    refine ⟨fun hstate hdue hfloor => ?_, fun hstate hstopped hawaiting => ?_⟩
    · have hc : c < 48 := hknows.lt
      have hl : s.lot? r.handle = some l := hnamed.1 ▸ State.lot?_of_namesLot hlot
      obtain ⟨u, hu⟩ : ∃ u, (s.setLot r.handle (l.fed pass fed)).modCell c (fun x => { x with ctx := none }) = u := ⟨_, rfl⟩
      have hulot : u.lot? r.handle = some (l.fed pass fed) := hu ▸ State.lot?_setLot hl _
      have hucell : u.cell c = { s.cell c with ctx := none } := hu ▸ State.cell_modCell hc _
      have hretest := State.startRetest_eq (s := u) (r := r) (below := below) (l := l.fed pass fed) (reg := reg) hc
        (by rw [hucell]; exact hfits c hc) (hu ▸ hknows.reg) (by rw [hucell]; exact hstack) hulot (hu ▸ hfloor)
        (by rw [hucell]; exact hstate)
      have htake : s.takePassEnd m = u.startRetest c r.handle :=
        hu ▸ (State.takePassEnd_running hknows hread hlot hstack hnamed hsame hstate).1 hdue
      have hu' : u.startRetest c r.handle = ((s.modCell c fun x => { x with
          state := .starting
          stack := { r with pass := .retest, awaiting := true } :: below
          ctx := none
          timers := { x.timers with start := some s.tst.settings.start, jam := none } }).setLot r.handle
          (l.fed pass fed).inRetest).sendsFloor
          [s.orderFrame reg c (some r) (.startRun .retest x.enabled (l.acc.retestable1 - l.acc.tested2))] := by
        rw [hretest, hucell, ← hu, State.modCell_modCell, State.setLot_modCell, State.setLot_setLot]
        rfl
      exact fromCell_eq hrun (take := (State.takePassEnd · m)) (htake.trans hu') hpass hroom
    · have hc : c < 48 := hknows.lt
      have htaken : takesPassEnd x r = true := by
        unfold takesPassEnd
        rw [hstate, hstopped]
        rfl
      have htake : s.takePassEnd m = (s.modCell c fun x => { x with
          stack := { r with stopped := some (pass, fed) } :: below }).setLot r.handle { l with mark := true } := by
        rw [State.takePassEnd_taken hknows hread hlot hstack hnamed hsame htaken, if_pos hstate]
        unfold State.markPassEnd
        dsimp only
        rw [if_neg (by simp [hawaiting])]
        exact State.modCell_congr (s := s.setLot r.handle { l with mark := true }) (by rw [State.setLot_cell, hstack])
      exact fromCell_eq hrun (take := (State.takePassEnd · m)) htake hpass hroom
  · refine State.dropsAs_of_runEvent hrun hpass hroom (take := (State.takePassEnd · m)) (taken := takesPassEnd)
      (act := fun s c r => match readPassEnd m.body with
        | some (pass, fed) => if (s.cell c).state = .stopping then s.markPassEnd c r pass fed else s.endPass c r pass fed
        | none => s) rfl (fun hread => ?_) (fun hread => ?_) fun x r htaken => ?_
    · rw [Option.isSome_eq_false_iff, Option.isNone_iff_eq_none] at hread
      unfold State.takePassEnd
      rw [hread]
    · obtain ⟨⟨pass, fed⟩, hsome⟩ := Option.isSome_iff_exists.mp hread
      unfold State.takePassEnd
      rw [hsome]
      rfl
    · unfold takesPassEnd at htaken
      cases hstate : x.state <;> simp_all

end Sys2Proof.Machine
end

section
/-! What lots, lists, counters and frames go through does not depend on the cells: each such operation commutes with a
  change of a
cell's record (R55, R131, R148 to R160). -/

namespace Sys2Proof.Machine

set_option Elab.async false

variable {s t : State} {c : Nat}

theorem State.enqueue_modCell (p : Port) (x : Frame) (f : Cell → Cell) :
    (s.modCell c f).enqueue p x = (s.enqueue p x).modCell c f := by
  have hpcl : (s.modCell c f).pcl = s.pcl := rfl
  unfold State.enqueue
  rw [hpcl]
  cases p <;> dsimp only <;> split <;> rfl

theorem State.notice_modCell (b : NoticeBody) (f : Cell → Cell) : (s.modCell c f).notice b = (s.notice b).modCell c f := by
  have hqueued := fun (u : State) x => State.enqueue_modCell (s := u) (c := c) .plant x f
  have htst : (s.modCell c f).tst = s.tst := rfl
  have hpcl : (s.modCell c f).pcl = s.pcl := rfl
  unfold State.notice
  dsimp only
  rw [htst, hpcl]
  split
  · rfl
  · exact hqueued { s with pcl := { s.pcl with noticeSeq := (s.pcl.noticeSeq + 1) % 65536 } } _

theorem State.heldNotice_modCell (h : Nat) (r : HoldReason) (a : LotState) (f : Cell → Cell) :
    (s.modCell c f).heldNotice h r a = (s.heldNotice h r a).modCell c f := by
  unfold State.heldNotice
  rw [State.lot?_modCell]
  cases s.lot? h with
  | none => rfl
  | some l =>
    dsimp only
    cases l.hold? r with
    | none => rfl
    | some e => exact State.notice_modCell _ f

theorem State.placeQuiet_modCell (h : Nat) (n : NewHold) (f : Cell → Cell) :
    (s.modCell c f).placeQuiet h n = (s.placeQuiet h n).modCell c f := by
  have hfresh : (s.modCell c f).isNewHold h n.reason = s.isNewHold h n.reason := rfl
  unfold State.placeQuiet
  dsimp only
  rw [hfresh]
  cases s.isNewHold h n.reason with
  | false => rfl
  | true => exact State.heldNotice_modCell (s := s.addHold h n) _ _ _ f

theorem State.joinQueue_modCell (h : Nat) (new : Bool) (f : Cell → Cell) :
    (s.modCell c f).joinQueue h new = (s.joinQueue h new).modCell c f := by
  obtain ⟨g, hg⟩ : ∃ g : Lot → Lot, g = fun l => { l with state := .waiting, arrival := if new then s.now else l.arrival } :=
    ⟨_, rfl⟩
  have hsame : (s.modCell c f).modLot h g = (s.modLot h g).modCell c f := rfl
  unfold State.joinQueue
  dsimp only
  rw [← hg, show (fun l : Lot => { l with state := .waiting, arrival := if new then (s.modCell c f).now else l.arrival })
    = g from
    hg.symm, hsame, State.lot?_modCell]
  cases (s.modLot h g).lot? h <;> rfl

theorem State.releaseLot_modCell (h : Nat) (f : Cell → Cell) : (s.modCell c f).releaseLot h = (s.releaseLot h).modCell c f := by
  unfold State.releaseLot
  rw [State.lot?_modCell]
  cases s.lot? h with
  | none => rfl
  | some l =>
    obtain ⟨u, hu⟩ : ∃ u : State, u = (({ s with rlu := { s.rlu with ship := joinRecord (s.recordOf h l) s.rlu.ship } } :
      State).leavePending h).setLotState h .released := ⟨_, rfl⟩
    have htold := State.notice_modCell (s := u) (c := c) (.shipReady (s.recordOf h l)) f
    dsimp only
    rw [← hu]
    exact (congrArg (fun v : State => v.event .lotReleased l.cumYield)
      ((congrArg (fun v : State => v.notice (.shipReady (s.recordOf h l))) (congrArg (fun v : State => v.modCell c f)
        hu.symm)).trans htold))

theorem State.evaluate_modCell (h : Nat) (f : Cell → Cell) : (s.modCell c f).evaluate h = (s.evaluate h).modCell c f := by
  have hguard : ∀ b : Bool, (if b then ((s.modCell c f).event .guardTrip (Trip.code .releaseLow)).placeQuiet h
      ⟨.guard, .ygd, [.releaseLow], none⟩ else s.modCell c f) =
        (if b then (s.event .guardTrip (Trip.code .releaseLow)).placeQuiet h
        ⟨.guard, .ygd, [.releaseLow], none⟩ else s).modCell c f := fun b => by
    cases b with
    | false => rfl
    | true => exact State.placeQuiet_modCell (s := s.event .guardTrip (Trip.code .releaseLow)) _ _ f
  have hquantity : ∀ (b : Bool) (u : State), (if b then (u.modCell c f).placeQuiet h ⟨.quantity, .ygd, [], none⟩
      else u.modCell c f) = (if b then u.placeQuiet h ⟨.quantity, .ygd, [], none⟩ else u).modCell c f := fun b u => by
    cases b with
    | false => rfl
    | true => exact State.placeQuiet_modCell _ _ f
  have hrlu : (s.modCell c f).rlu = s.rlu := rfl
  have hroute : ∀ i, (s.modCell c f).route? i = s.route? i := fun _ => rfl
  unfold State.evaluate
  rw [State.lot?_modCell]
  cases s.lot? h with
  | none => rfl
  | some l =>
    dsimp only
    rw [hroute, hguard, hquantity, hrlu, State.releaseLot_modCell]
    cases s.route? l.route
    all_goals
      dsimp only
      split
      · rfl
      · split <;> rfl

theorem State.complete_modCell (h : Nat) (f : Cell → Cell) : (s.modCell c f).complete h = (s.complete h).modCell c f := by
  obtain ⟨u, hu⟩ : ∃ u : State, u = s.modLot h fun l => { l with
    state := .complete, completion := some (l.completion.getD s.now) } := ⟨_, rfl⟩
  have hsame : (s.modCell c f).modLot h (fun l => { l with
      state := .complete, completion := some (l.completion.getD (s.modCell c f).now) }) = u.modCell c f := by
    rw [hu]
    rfl
  unfold State.complete
  dsimp only
  rw [hsame, ← hu, State.lot?_modCell]
  cases u.lot? h with
  | none => rfl
  | some l =>
    dsimp only
    rw [State.notice_modCell, State.evaluate_modCell]
    rfl

theorem State.advance_modCell (h : Nat) (f : Cell → Cell) : (s.modCell c f).advance h = (s.advance h).modCell c f := by
  unfold State.advance
  exact State.joinQueue_modCell (s := s.modLot h _) h true f

theorem State.passOn_modCell (h : Nat) (f : Cell → Cell) : (s.modCell c f).passOn h = (s.passOn h).modCell c f := by
  have hcount : ∀ i, (s.modCell c f).stepCount i = s.stepCount i := fun _ => rfl
  unfold State.passOn
  rw [State.lot?_modCell]
  cases s.lot? h with
  | none => rfl
  | some l =>
    dsimp only
    rw [hcount, State.advance_modCell, State.complete_modCell]
    split <;> rfl

theorem State.sendLot_modCell (h : Nat) (closed new : Bool) (f : Cell → Cell) :
    (s.modCell c f).sendLot h closed new = (s.sendLot h closed new).modCell c f := by
  have hholds : (s.modCell c f).hasHolds h = s.hasHolds h := rfl
  unfold State.sendLot
  rw [hholds, State.passOn_modCell, State.joinQueue_modCell]
  split
  · rfl
  · split <;> rfl

/-! ### What is done to one lot leaves the slots of the others -/

theorem State.slot_notice (b : NoticeBody) (k : Nat) : (s.notice b).slot k = s.slot k := by
  obtain ⟨p, f, h⟩ := State.notice_port s b
  rw [h]
  rfl

theorem State.slot_heldNotice (h : Nat) (r : HoldReason) (a : LotState) (k : Nat) : (s.heldNotice h r a).slot k = s.slot k := by
  obtain ⟨p, f, hs⟩ := State.heldNotice_port s h r a
  rw [hs]
  rfl

theorem State.slot_placeQuiet_ne {h k : Nat} (hk : k ≠ h) (n : NewHold) : (s.placeQuiet h n).slot k = s.slot k := by
  have hadd : (s.addHold h n).slot k = s.slot k := State.slot_modLot_ne hk _
  unfold State.placeQuiet
  dsimp only
  split
  · rw [State.slot_heldNotice, hadd]
  · exact hadd

theorem State.slot_joinQueue_ne {h k : Nat} (hk : k ≠ h) (new : Bool) : (s.joinQueue h new).slot k = s.slot k := by
  have hmod : ∀ g, (s.modLot h g).slot k = s.slot k := State.slot_modLot_ne hk
  unfold State.joinQueue
  dsimp only
  split
  · exact hmod _
  · exact hmod _

theorem State.slot_leavePending_ne {h k : Nat} (hk : k ≠ h) : (s.leavePending h).slot k = s.slot k :=
  State.slot_modLot_ne hk _

theorem State.slot_toHeld_ne {h k : Nat} (hk : k ≠ h) : (s.toHeld h).slot k = s.slot k :=
  (State.slot_modLot_ne hk _).trans (State.slot_leavePending_ne hk)

theorem State.slot_releaseLot_ne {h k : Nat} (hk : k ≠ h) : (s.releaseLot h).slot k = s.slot k := by
  unfold State.releaseLot
  split
  · rfl
  · refine (State.slot_notice _ k).trans ((State.slot_modLot_ne hk _).trans (State.slot_leavePending_ne hk))

theorem State.slot_joinPending_ne {h k : Nat} (hk : k ≠ h) (l : Lot) : (s.joinPending h l).slot k = s.slot k :=
  (State.slot_modLot_ne hk _).trans (State.slot_leavePending_ne hk)

theorem State.slot_evaluate_ne {h k : Nat} (hk : k ≠ h) : (s.evaluate h).slot k = s.slot k := by
  have hplaced : ∀ (b : Bool) (u : State) (n : NewHold), (if b then u.placeQuiet h n else u).slot k = u.slot k := fun b u
    n => by
    split
    · exact State.slot_placeQuiet_ne hk n
    · rfl
  have hguard : ∀ b : Bool, (if b then (s.event .guardTrip (Trip.code .releaseLow)).placeQuiet h
      ⟨.guard, .ygd, [.releaseLow], none⟩ else s).slot k = s.slot k := fun b => by
    split
    · exact State.slot_placeQuiet_ne (s := s.event .guardTrip (Trip.code .releaseLow)) hk _
    · rfl
  unfold State.evaluate
  cases s.lot? h with
  | none => rfl
  | some l =>
    dsimp only
    split
    all_goals
      split
      · rw [State.slot_toHeld_ne hk, hplaced, hguard]
      · split
        · exact State.slot_releaseLot_ne hk
        · exact State.slot_joinPending_ne hk l

theorem State.slot_complete_ne {h k : Nat} (hk : k ≠ h) : (s.complete h).slot k = s.slot k := by
  have hmod : ∀ g, (s.modLot h g).slot k = s.slot k := State.slot_modLot_ne hk
  unfold State.complete
  dsimp only
  split
  · exact hmod _
  · rw [State.slot_evaluate_ne hk, State.slot_notice, hmod]

theorem State.slot_passOn_ne {h k : Nat} (hk : k ≠ h) : (s.passOn h).slot k = s.slot k := by
  unfold State.passOn
  split
  · rfl
  · split
    · exact (State.slot_joinQueue_ne hk true).trans (State.slot_modLot_ne hk _)
    · exact State.slot_complete_ne hk

theorem State.slot_sendLot_ne {h k : Nat} (hk : k ≠ h) (closed new : Bool) : (s.sendLot h closed new).slot k = s.slot k := by
  unfold State.sendLot
  split
  · exact State.slot_toHeld_ne hk
  · split
    · exact State.slot_passOn_ne hk
    · exact State.slot_joinQueue_ne hk new

/-! ### A step end does not look at the timers -/

theorem State.stepCounted_modCell (low : Bool) (lost : List Trip) (f : Cell → Cell) :
    (s.modCell c f).stepCounted low lost = (s.stepCounted low lost).modCell c f := by
  have hfold : ∀ (ts : List Trip) (u : State), ts.foldl (fun (u : State) t => u.event .guardTrip t.code) (u.modCell c f) =
      (ts.foldl (fun (u : State) t => u.event .guardTrip t.code) u).modCell c f := fun ts => by
    induction ts with
    | nil => exact fun _ => rfl
    | cons t ts ih => exact fun u => ih (u.event .guardTrip t.code)
  unfold State.stepCounted
  dsimp only
  rw [hfold]
  generalize ((if low then [Trip.finalLow] else []) ++ lost).foldl (fun (u : State) t => u.event .guardTrip t.code) s = u
  cases low <;> cases lost <;> rfl

theorem State.stepEnd_modTimers (hc : c < 48) (h : Nat) (g : Timers → Timers) :
    (s.modTimers c g).stepEnd c h = (s.stepEnd c h).modTimers c g := by
  have htimers : ∀ u : State, u.modTimers c g = u.modCell c fun x => { x with timers := g x.timers } := fun _ => rfl
  have hlot : (s.modTimers c g).lot? h = s.lot? h := rfl
  have hheld : ∀ (b : Bool) (u : State) (reason : HoldReason), (if b then (u.modTimers c g).heldNotice h reason .held else
      u.modTimers c g) = (if b then u.heldNotice h reason .held else u).modTimers c g := fun b u reason => by
    cases b with
    | false => rfl
    | true => exact State.heldNotice_modCell _ _ _ _
  have hclose : ∀ (u : State) (l : Lot), u.lot? h = some l →
      (if ((u.modTimers c g).top? c).any Run.segOpen then (u.modTimers c g).closeSegment c h .stepEnd else u.modTimers c g) =
        (if (u.top? c).any Run.segOpen then u.closeSegment c h .stepEnd else u).modTimers c g := fun u l hl => by
    have htop : (u.modTimers c g).top? c = u.top? c := by
      rw [State.top?, htimers, State.cell_modCell hc]
      rfl
    rw [htop]
    split
    · rw [State.closeSegment_stepEnd (s := u.modTimers c g) hl, State.closeSegment_stepEnd hl, htimers, htimers,
        State.setLot_modCell, State.modCell_modCell, State.modCell_modCell]
      rfl
    · rfl
  unfold State.stepEnd
  rw [hlot]
  cases hl : s.lot? h with
  | none => rfl
  | some l =>
    have hh := State.lt_of_lot? hl
    have hlotStep : (s.modTimers c g).lotStep l = s.lotStep l := rfl
    have hprofile : (s.modTimers c g).profileOf (s.lotStep l) = s.profileOf (s.lotStep l) := rfl
    have hnew : ∀ r, (s.modTimers c g).isNewHold h r = s.isNewHold h r := fun _ => rfl
    have hholds : ∀ low lost, (s.modTimers c g).stepEndHolds h low lost = (s.stepEndHolds h low lost).modTimers c g :=
      fun low lost => by
        rw [State.stepEndHolds_of_lot (s := s.modTimers c g) hl, State.stepEndHolds_of_lot hl, htimers, htimers,
          State.stepCounted_modCell]
        rfl
    dsimp only
    rw [hlotStep, hprofile, hnew, hnew, hholds, hclose _ _ (by
      rw [State.stepEndHolds_of_lot hl]
      exact State.lot?_setLot_of_lt hh _)]
    obtain ⟨u, hu⟩ : ∃ u, (if ((s.stepEndHolds h (finalLow (s.profileOf (s.lotStep l)) l.acc)
      (quantityTrips (s.profileOf (s.lotStep l)) l.acc)).top? c).any Run.segOpen then
        (s.stepEndHolds h (finalLow (s.profileOf (s.lotStep l)) l.acc)
          (quantityTrips (s.profileOf (s.lotStep l)) l.acc)).closeSegment c h .stepEnd
      else s.stepEndHolds h (finalLow (s.profileOf (s.lotStep l)) l.acc)
        (quantityTrips (s.profileOf (s.lotStep l)) l.acc)) = u := ⟨_, rfl⟩
    rw [hu]
    have hulot : (u.modTimers c g).lot? h = u.lot? h := rfl
    rw [hulot]
    cases u.lot? h with
    | none => rfl
    | some l' =>
      dsimp only
      have htold : ∀ (v : State) (b : NoticeBody), (v.modTimers c g).notice b = (v.notice b).modTimers c g :=
        fun v b => State.notice_modCell b _
      have hmod : ∀ k : Lot → Lot, (u.modTimers c g).modLot h k = (u.modLot h k).modTimers c g := fun _ => rfl
      have hname : ∀ (v : State) (l : Lot), (v.modTimers c g).lotRef h l = v.lotRef h l := fun _ _ => rfl
      rw [hmod, hname, htold, hheld, hheld]

end Sys2Proof.Machine
end

section
/-! The end of a stop (R80, R81, R92 to R94). -/

namespace Sys2Proof.Machine

set_option Elab.async false

variable {s t : State} {c : Nat}

/-! ### A cell that goes on -/

/-- The part of a cell's record that the cell keeps when it goes on after its top run (R70, R82). -/
def Cell.goingOn (x : Cell) : Cell := { x with
  state := .idle, cause := none, stopReason := none, items := Items.none
  timers := { Timers.idle with silence := x.timers.silence }
  orderCurrent := if x.stack = [] then x.orderCurrent else false }

theorem State.cellGoesOn_goingOn (hc : c < 48) (y : Cell) :
    (s.modCell c fun _ => y).cellGoesOn c = (s.modCell c fun _ => y.goingOn).cellGoesOn c := by
  have hcell : ∀ z : Cell, (s.modCell c fun _ => z).cell c = z := fun z => State.cell_modCell hc _
  have hgoing : y.goingOn.stack = y.stack := rfl
  unfold State.cellGoesOn
  rw [hcell, hcell, hgoing]
  cases hstack : y.stack with
  | nil =>
    dsimp only
    rw [State.modCell_modCell, State.modCell_modCell]
    simp only [Cell.goingOn, hstack, if_true]
    rfl
  | cons r below =>
    have hentered : (s.modCell c fun _ => y).entersSetup c r = (s.modCell c fun _ => y.goingOn).entersSetup c r := by
      have hlot : ∀ z : Cell, (s.modCell c fun _ => z).setLotState r.handle .assigned =
          (s.setLotState r.handle .assigned).modCell c fun _ => z := fun _ => rfl
      unfold State.entersSetup
      rw [hlot, hlot, State.modCell_modCell, State.modCell_modCell]
      rfl
    dsimp only
    rw [State.setsUp, State.setsUp, hentered]

/-- What a cell goes on with does not depend on what it leaves behind (R70, R82). -/
theorem State.cellGoesOn_congr (hc : c < 48) {y z : Cell} (h : y.goingOn = z.goingOn) :
    (s.modCell c fun _ => y).cellGoesOn c = (s.modCell c fun _ => z).cellGoesOn c := by
  rw [State.cellGoesOn_goingOn hc y, h, ← State.cellGoesOn_goingOn hc z]

/-- What a cell can carry depends on its sites, its expiry, the tables, floor time and the run's step (R52, R70). -/
theorem State.carries_of_runStep {r q : Run} (htst : t.tst = s.tst) (htbs : t.tbs = s.tbs) (hstep : t.runStep q = s.runStep r)
    (hstanding : (t.cell c).standing = (s.cell c).standing) (h : s.carries c r) : t.carries c q := by
  have hprofile : ∀ x, t.profileOf x = s.profileOf x := fun x => by simp only [State.profileOf, State.profile?, htst]
  have henabled : (t.cell c).enabled = (s.cell c).enabled := congrArg Prod.fst hstanding
  have hexpiry : (t.cell c).expiry = (s.cell c).expiry := congrArg Prod.snd hstanding
  unfold State.carries at h ⊢
  rwa [hstep, hprofile, henabled, hexpiry, htbs]

/-- A message of a cell after which the cell goes on with the runs it is left with (R82, R165). -/
theorem fromCell_goesOn {W : State} {y : Cell} {f : Cell → Cell} {kind : Code16} {m : Msg} {take : State → State}
    (hrun : s.takes) (hc : c < 48) (htake : take s = (W.modCell c fun _ => y).afterTop c)
    (hy : y.goingOn = (f (W.cell c)).goingOn) (htst : W.tst = s.tst)
    (hcarries : ∀ low ∈ y.stack, (W.modCell c fun _ => y).carries c low) :
    fromCell kind m take s = .next (((W.modCell c f).cellGoesOn c).enqueue .plant (forwardedFrame s kind m m.body)).settle := by
  have hf : W.modCell c f = W.modCell c fun _ => f (W.cell c) := State.modCell_congr rfl
  have hafter : take s = (W.modCell c f).cellGoesOn c := by
    rw [htake, State.afterTop_eq hc (by rw [State.cell_modCell hc]; exact hcarries), State.cellGoesOn_congr hc hy, hf]
  refine fromCell_goes hrun hafter ?_
  rw [← hafter, htake, ((Moves.refl (C := fun _ => True) (S := True) (W.modCell c fun _ => y)).afterTop c).base.2.1]
  exact htst

/-! ### The settlement of a stop -/

/-- The run of a stop without a marked pass end, or with one that left a retest due: the segment closes if it is open, and
  the lot
goes on (R92). -/
theorem State.settleStop_few {r : Run} {below : List Run} {l : Lot} (hstack : (s.cell c).stack = r :: below)
    (hbelow : ∀ q ∈ below, q.handle ≠ r.handle) (hl : s.lot? r.handle = some l)
    (hfew : r.segOpen = true → l.segments.length < 4) (cause : CloseCause) :
    s.settleStop c r.handle false cause = ((s.sends r.handle (l.closedBy r cause) true).popTop c).afterTop c := by
  have hlot := State.lot?_setLot hl (l.closedBy r cause)
  unfold State.settleStop State.closeTop
  rw [State.top?_of_stack hstack]
  dsimp only
  rw [State.closeIfOpen_popTop hstack hbelow hl fun ho => (hfew ho).ne, State.sendLot_popTop hlot, State.sends_setLot]

/-- The run of a stop that closes a fourth segment (R92, R97). -/
theorem State.settleStop_fourth {r : Run} {below : List Run} {l : Lot} (hstack : (s.cell c).stack = r :: below)
    (hbelow : ∀ q ∈ below, q.handle ≠ r.handle) (hl : s.lot? r.handle = some l) (hopen : r.segOpen = true)
    (hfour : l.segments.length = 4) (hnew : ∀ e ∈ l.holds, e.reason ≠ .equipment) {cause : CloseCause}
      (hcause : cause ≠ .stepEnd)
    (hgo : s.noticesGo) (hplant : s.plantRoom 1) :
    let held := s.heldFor r.handle (l.closedBy r cause) .equipment (.cell c) [] .held
    ∀ l', held.lot? r.handle = some l' → l'.holds ≠ [] →
      s.settleStop c r.handle false cause = ((held.becomesHeld r.handle l').popTop c).afterTop c := by
  intro held l' hlot hholds
  have hcell : held.cell c = s.cell c := rfl
  have hsends : held.sends r.handle l' true = held.becomesHeld r.handle l' := if_neg hholds
  unfold State.settleStop State.closeTop
  rw [State.top?_of_stack hstack]
  dsimp only
  rw [State.closeIfOpen_fourth hl hopen hfour hnew hcause hgo hplant, State.modCell_unmark_popTop (by rw [hcell, hstack])
    hbelow,
    State.sendLot_popTop hlot, hsends]

/-- The top run of a cell without an open segment (R97). -/
theorem State.closeTop_closed {r : Run} {below : List Run} (hstack : (s.cell c).stack = r :: below) (h : r.segOpen = false)
    (cause : CloseCause) : s.closeTop c cause = s := by
  unfold State.closeTop State.closeIfOpen
  rw [State.top?_of_stack hstack]
  dsimp only
  rw [if_neg (by simp [h])]

/-- The settlement of a stop whose marked pass end has ended the step (R92, R93). -/
theorem State.settleStop_closed {r : Run} {below : List Run} (hstack : (s.cell c).stack = r :: below)
    (hopen : r.segOpen = false)
    (h : Nat) (cause : CloseCause) : s.settleStop c h true cause = ((s.sendLot h true true).popTop c).afterTop c := by
  unfold State.settleStop
  rw [State.closeTop_closed hstack hopen]
  exact congrArg (State.afterTop · c) (State.sendLot_modCell (s := s) h true true _)

/-- A marked pass end settled (R93). -/
theorem State.settleStopped_marked {r : Run} {below : List Run} {l : Lot} {pass : Pass} {fed : Nat}
    (hstack : (s.cell c).stack = r :: below) (hl : s.lot? r.handle = some l) (hmark : l.mark = true)
    (hstopped : r.stopped = some (pass, fed)) :
    let u := (s.setLot r.handle (l.fed pass fed)).modCell c fun _ =>
      { s.cell c with stack := { r with stopped := none } :: below }
    (s.dueRetest l pass → s.settleStopped c = (u.toRetest c r.handle, false)) ∧
      (¬s.dueRetest l pass → s.settleStopped c = (u.stepEnd c r.handle, true)) := by
  intro u
  have hfed : { l with acc := setFed l.acc pass fed } = l.fed pass fed := by
    rcases l with ⟨⟩
    cases hmark
    cases pass <;> rfl
  have hset : (s.modAcc r.handle fun a => setFed a pass fed) = s.setLot r.handle (l.fed pass fed) := by
    rw [State.modAcc, State.modLot_of_lot hl, hfed]
  have hulot : u.lot? r.handle = some (l.fed pass fed) := State.lot?_setLot hl _
  have hsettle : s.settleStopped c = if pass = .first ∧ retestDue (u.lotStep (l.fed pass fed)) (l.fed pass fed).acc = true then
      (u.toRetest c r.handle, false) else (u.stepEnd c r.handle, true) := by
    unfold State.settleStopped
    rw [State.top?_of_stack hstack]
    dsimp only
    rw [hstopped]
    dsimp only
    rw [hset, State.modTop_of_stack (s := s.setLot r.handle _) hstack]
    change (match u.lot? r.handle with | none => _ | some l => _) = _
    rw [hulot]
    rfl
  exact ⟨fun h => hsettle.trans (if_pos (State.dueRetest_iff.mpr h)), fun h => hsettle.trans
    (if_neg fun hd => h (State.dueRetest_iff.mp hd))⟩

/-- The record of a cell whose stop has ended, before its run is settled (R92, R93). -/
def Cell.stopEnded (x : Cell) (r : Run) (below : List Run) : Cell :=
  { x with
    stack := r :: below, ctx := none
    timers := if x.state = .stopping then { x.timers with stop := none } else x.timers }

theorem Cell.stopEnded_goingOn (x : Cell) (r : Run) (below stack : List Run) :
    ({ x.stopEnded r below with stack := stack, ctx := none, orderCurrent := false } : Cell).goingOn =
      ({ x with stack := stack, ctx := none, orderCurrent := false } : Cell).goingOn := by
  unfold Cell.stopEnded
  split <;> rfl

/-- A RUN_STOPPED of the cell's top run, taken in a stop or out of it (R92, R94). -/
theorem State.takeRunStopped_taken {m : Msg} {reg : Registration} {l : Lot} {r : Run} {below : List Run}
    (hknows : s.knowsCell m reg) (hbody : m.body = []) (hlot : s.namesLot m l)
    (hstack : (s.cell m.cell.toNat).stack = r :: below) (hnamed : r.namedBy m)
    (htaken : takesStop (s.cell m.cell.toNat).state = true) :
    let c := m.cell.toNat
    let x := s.cell c
    let u := (s.setLot r.handle { l with mark := true }).modCell c fun _ => x.stopEnded { r with awaiting := false } below
    ((s.cell c).state ≠ .stopping → s.takeRunStopped m = u.settleStop c r.handle false .fault) ∧
      ((s.cell c).state = .stopping → s.takeRunStopped m = if x.stopReason.getD .hold = .preempt then
        (u.settleStopped c).1.settlePreempt c r.handle (u.settleStopped c).2
      else (u.settleStopped c).1.settleStop c r.handle (u.settleStopped c).2 (causeOf (x.stopReason.getD .hold))) := by
  intro c x u
  have hc : c < 48 := hknows.lt
  obtain ⟨v, hv⟩ : ∃ v, s.setLot r.handle { l with mark := true } = v := ⟨_, rfl⟩
  have hcell : v.cell c = x := hv ▸ rfl
  have hcleared : (v.clearCtx c).modTop c (fun r => { r with awaiting := false }) =
      v.modCell c fun _ => { x with stack := { r with awaiting := false } :: below, ctx := none } := by
    have hstack' : ((v.clearCtx c).cell c).stack = r :: below := by
      rw [State.clearCtx, State.cell_modCell hc, hcell]
      exact hstack
    rw [State.modTop_of_stack hstack', State.clearCtx, State.modCell_modCell, State.cell_modCell hc, hcell]
  have hread : readNothing m.body = some () := by rw [hbody]; rfl
  have htake : s.takeRunStopped m = if (v.cell c).state = .stopping then v.endStop c r else v.unorderedStop c r := by
    unfold State.takeRunStopped
    rw [hread]
    dsimp only
    rw [State.runEvent_taken (pass := none) hknows hlot hstack hnamed nofun htaken, hv]
  refine ⟨fun hstate => ?_, fun hstate => ?_⟩
  · have hu : v.modCell c (fun _ => { x with stack := { r with awaiting := false } :: below, ctx := none }) = u := by
      unfold u Cell.stopEnded
      rw [if_neg hstate, hv]
    rw [htake, hcell, if_neg hstate, State.unorderedStop, hcleared, hu]
  · have hu : (v.modCell c (fun _ => { x with stack := { r with awaiting := false } :: below, ctx := none })).modTimers c
        (fun t => { t with stop := none }) = u := by
      unfold u Cell.stopEnded
      rw [if_pos hstate, hv, State.modTimers, State.modCell_modCell]
    rw [htake, hcell, if_pos hstate, State.endStop, hcleared, hcell]
    dsimp only
    rw [hu]

/-- What a step end leaves of its lot, of the other lots and of its cell (R90, R97). -/
theorem State.stepEnd_leaves (hc : c < 48) {r : Run} {below : List Run} {l : Lot} (hl : s.lot? r.handle = some l)
    (hstack : (s.cell c).stack = r :: below) (hbelow : ∀ q ∈ below, q.handle ≠ r.handle) :
    let ended := s.stepEnd c r.handle
    (∃ l', ended.lot? r.handle = some l' ∧ l'.step = l.step ∧ l'.route = l.route) ∧ ended.tst = s.tst ∧ ended.tbs = s.tbs ∧
      (∀ k, k ≠ r.handle → ended.slot k = s.slot k) ∧ ended.cell c = (s.cell c).stepEnded r below := by
  intro ended
  obtain ⟨l', p, f, hended, hsame⟩ := State.stepEnd_eq hl hstack hbelow
  have hended : ended = { (s.setLot r.handle l').modCell c fun _ => (s.cell c).stepEnded r below with
    pcl := p, fcn := f } := hended
  rw [hended]
  exact ⟨⟨l', State.lot?_setLot hl l', hsame⟩, rfl, rfl, fun k hk => State.slot_setLot_ne hk l', State.cell_modCell hc _⟩

theorem Cell.stepEnded_stack {x : Cell} {r : Run} {below : List Run} (hstack : x.stack = r :: below) :
    ∃ q, (x.stepEnded r below).stack = q :: below ∧ q.segOpen = false := by
  unfold Cell.stepEnded
  cases hopen : r.segOpen with
  | true => exact ⟨_, rfl, rfl⟩
  | false => exact ⟨r, hstack, hopen⟩

theorem Cell.stepEnded_standing (x : Cell) (r : Run) (below : List Run) : (x.stepEnded r below).standing = x.standing := by
  unfold Cell.stepEnded
  split <;> rfl

/-- A stop settles with the cause of its reason (R92, R94). -/
theorem Cell.stopsFor.settles {x : Cell} {cause : CloseCause} (h : x.stopsFor cause) : takesStop x.state = true ∧
    (x.state ≠ .stopping → cause = .fault) ∧
      (x.state = .stopping → x.stopReason.getD .hold ≠ .preempt ∧ causeOf (x.stopReason.getD .hold) = cause) := by
  rcases h with ⟨hstate, rfl⟩ | ⟨hstate, hreason⟩
  · have hnot : x.state ≠ .stopping := by rcases hstate with e | e | e <;> rw [e] <;> nofun
    refine ⟨?_, fun _ => rfl, fun e => absurd e hnot⟩
    rcases hstate with e | e | e <;> rw [e] <;> rfl
  · refine ⟨by rw [hstate]; rfl, fun e => absurd hstate e, fun _ => ?_⟩
    rcases hreason with ⟨e | e, rfl⟩ | ⟨e, rfl⟩ | ⟨e, rfl⟩ <;> rw [e] <;> exact ⟨nofun, rfl⟩

/-- What the lots, the tables and floor time are to the runs that stand below a stopped run (R52, R82). -/
def State.leavesBelow (s t : State) (h : Nat) : Prop := (∀ k, k ≠ h → t.lot? k = s.lot? k) ∧ t.tst = s.tst ∧ t.tbs = s.tbs

theorem State.leavesBelow_sends (h : Nat) (l : Lot) (new : Bool) : s.leavesBelow (s.sends h l new) h :=
  ⟨fun _ hk => State.lot?_sends_ne hk l new, (State.sends_frame h l new).2.2.1, (State.sends_frame h l new).2.2.2.1⟩

/-- A run below a stopped run is one that its cell can still carry (R52, R82). -/
theorem State.leavesBelow.carries {h : Nat} (hleaves : s.leavesBelow t h) (hc : c < 48) {y : Cell}
    (hstanding : y.standing = (s.cell c).standing) {low : Run} (hlow : low.handle ≠ h) (hcarries : s.carries c low) :
    (t.modCell c fun _ => y).carries c low := by
  obtain ⟨hlots, htst, htbs⟩ := hleaves
  exact State.carries_congr htst htbs (hlots _ hlow) (by rw [State.cell_modCell hc]; exact hstanding) hcarries

/-- A step that a marked pass end closes, and where its lot goes (R93, R123). -/
theorem State.stepEnd_sendLot (hc : c < 48) {r : Run} {below : List Run} {l : Lot} (hl : s.lot? r.handle = some l)
    (hstack : (s.cell c).stack = r :: below) (hbelow : ∀ q ∈ below, q.handle ≠ r.handle) (g : Timers → Timers) :
    let ended := s.stepEnd c r.handle
    let W := ended.sendLot r.handle true true
    let e := (s.cell c).stepEnded r below
    s.leavesBelow W r.handle ∧ W.cell c = e ∧
      ((s.modTimers c g).stepEnd c r.handle).sendLot r.handle true true =
        W.modCell c (fun _ => { e with timers := g e.timers }) ∧
      ∃ l', ended.lot? r.handle = some l' ∧ (l'.holds ≠ [] → W = ended.becomesHeld r.handle l') ∧
        (l'.holds = [] → l.step + 1 < s.stepCount l.route → W = ended.joins r.handle (s.atNextStep l')) ∧
        (l'.holds = [] → s.stepCount l.route ≤ l.step + 1 → W = ended.complete r.handle) := by
  intro ended W e
  obtain ⟨⟨l', hl', hstep, hroute⟩, htst, htbs, hothers, hcell⟩ := State.stepEnd_leaves hc hl hstack hbelow
  obtain ⟨hheld, hnext, hlast⟩ := State.sendLot_closed (s := s) hl' htst htbs true
  rw [hstep, hroute] at hnext hlast
  have hbase := ((Moves.refl (C := fun _ => True) (S := True) ended).sendLot r.handle true true).base
  have hWcell : W.cell c = e := (State.sendLot_cell _ _ _ c).trans hcell
  refine ⟨⟨fun k hk => congrArg Slot.lot ((State.slot_sendLot_ne hk true true).trans (hothers k hk)), hbase.2.1.trans htst,
    hbase.2.2.2.1.trans htbs⟩, hWcell, ?_, l', hl', hheld, hnext, hlast⟩
  rw [State.stepEnd_modTimers hc, State.modTimers, State.sendLot_modCell]
  exact State.modCell_congr (by rw [hWcell])

/-- The settlement of a marked pass end in a stop that has ended (R93). -/
theorem State.settleStopped_stopEnded (hc : c < 48) {l : Lot} {r : Run} {below : List Run} (hl : s.lot? r.handle = some l)
    (hstate : (s.cell c).state = .stopping) : let x := s.cell c
    let u := (s.setLot r.handle { l with mark := true }).modCell c fun _ => x.stopEnded { r with awaiting := false } below
    let pre (fed : Lot) := (s.setLot r.handle fed).modCell c fun x => { x with
      stack := { r with awaiting := false, stopped := none } :: below, ctx := none }
    (r.stopped = none → u.settleStopped c = (u, false)) ∧ ∀ pass fed, r.stopped = some (pass, fed) →
      (s.dueRetest l pass → u.settleStopped c = ((s.setLot r.handle (l.fed pass fed).inRetest).modCell c fun _ =>
        x.stopEnded { r with awaiting := false, stopped := none, pass := .retest } below, false)) ∧
      (¬s.dueRetest l pass → u.settleStopped c = (((pre (l.fed pass fed)).modTimers c fun t => { t with
        stop := none }).stepEnd c r.handle, true)) := by
  intro x u pre
  have hucell : u.cell c = x.stopEnded { r with awaiting := false } below := State.cell_modCell hc _
  have hustack : (u.cell c).stack = { r with awaiting := false } :: below := by rw [hucell]; rfl
  refine ⟨fun hstopped => State.settleStopped_unmarked (State.top?_of_stack hustack) hstopped, fun pass fed hstopped => ?_⟩
  obtain ⟨hdue, hnot⟩ := State.settleStopped_marked (s := u) hustack (State.lot?_setLot hl _) rfl hstopped
  obtain ⟨v, hv⟩ : ∃ v, (u.setLot r.handle (l.fed pass fed)).modCell c (fun _ => { u.cell c with
    stack := { r with awaiting := false, stopped := none } :: below }) = v := ⟨_, rfl⟩
  have hcell : v = (s.setLot r.handle (l.fed pass fed)).modCell c fun _ =>
      x.stopEnded { r with awaiting := false, stopped := none } below := by
    rw [← hv, hucell, State.setLot_modCell, State.setLot_setLot, State.modCell_modCell]
    rfl
  refine ⟨fun h => (hdue h).trans (congrArg (·, false) ?_), fun h => (hnot h).trans (congrArg (·, true) ?_)⟩
  · have hvlot : v.lot? r.handle = some (l.fed pass fed) := hcell ▸ State.lot?_setLot hl _
    have hvcell : v.cell c = x.stopEnded { r with awaiting := false, stopped := none } below := hcell ▸ State.cell_modCell hc _
    refine (congrArg (State.toRetest · c r.handle) hv).trans ?_
    unfold State.toRetest State.clearCtx
    dsimp only
    rw [State.modLot_of_lot hvlot, State.modTop_of_stack (s := v.setLot r.handle _)
      (r := { r with awaiting := false, stopped := none }) (below := below) (by rw [State.setLot_cell, hvcell]; rfl),
      State.modCell_modCell, State.setLot_cell, hvcell, hcell, State.setLot_modCell, State.setLot_setLot, State.modCell_modCell]
    rfl
  · refine (congrArg (State.stepEnd · c r.handle) (hv.trans hcell)).trans (congrArg (State.stepEnd · c r.handle) ?_)
    unfold pre
    rw [State.modTimers, State.modCell_modCell]
    refine State.modCell_congr ?_
    unfold Cell.stopEnded
    rw [if_pos hstate]
    rfl

/-- A RUN_STOPPED after which the run has left its cell, with its lot sent on to `u` (R82, R92). -/
def State.stopGoes (s : State) (m : Msg) (below : List Run) (u : State) : Prop := exec (.runStopped m) s =
  .next (((u.modCell m.cell.toNat fun x => { x with stack := below, ctx := none, orderCurrent := false }).cellGoesOn
    m.cell.toNat).enqueue .plant (forwardedFrame s Kind.runStopped m m.body)).settle

/-- A cell whose run has left it goes on with the runs below (R82). -/
theorem State.stopGoes_of_afterTop {m : Msg} {h : Nat} {below : List Run} {W : State} {y : Cell} (hrun : s.takes)
    (hc : m.cell.toNat < 48) (hbelow : ∀ low ∈ below, low.handle ≠ h ∧ s.carries m.cell.toNat low)
    (htake : s.takeRunStopped m = (W.modCell m.cell.toNat fun _ => y).afterTop m.cell.toNat) (hleaves : s.leavesBelow W h)
    (hstack : y.stack = below) (hstanding : y.standing = (s.cell m.cell.toNat).standing)
    (hy : y.goingOn = ({ W.cell m.cell.toNat with stack := below, ctx := none, orderCurrent := false } : Cell).goingOn) :
    s.stopGoes m below W := by
  refine fromCell_goesOn (take := (State.takeRunStopped · m)) hrun hc htake hy hleaves.2.1 fun low hlow => ?_
  obtain ⟨hne, hcarries⟩ := hbelow low (hstack ▸ hlow)
  exact hleaves.carries hc hstanding hne hcarries

/-- A stop whose run leaves its lot on its step, its segment not the fourth (R92, R97). -/
theorem State.stopGoes_few {m : Msg} {r q : Run} {below : List Run} {l l' : Lot} {cause : CloseCause} (hrun : s.takes)
    (hc : m.cell.toNat < 48) (hl : s.lot? r.handle = some l)
    (hbelow : ∀ low ∈ below, low.handle ≠ r.handle ∧ s.carries m.cell.toNat low) (hhandle : q.handle = r.handle)
    (hopen : q.segOpen = r.segOpen) (hfew : r.segOpen = true → l'.segments.length < 4)
    (htake : s.takeRunStopped m = ((s.setLot r.handle l').modCell m.cell.toNat fun _ =>
      (s.cell m.cell.toNat).stopEnded q below).settleStop m.cell.toNat r.handle false cause) :
    s.stopGoes m below (s.sends r.handle (l'.closedBy r cause) true) := by
  obtain ⟨y, hy⟩ : ∃ y, (s.cell m.cell.toNat).stopEnded q below = y := ⟨_, rfl⟩
  have hyStack : y.stack = q :: below := hy ▸ rfl
  have hW := State.leavesBelow_sends (s := s) r.handle (l'.closedBy r cause) true
  have hclosed : l'.closedBy q cause = l'.closedBy r cause := by rw [Lot.closedBy, Lot.closedBy, hopen]
  rw [hy] at htake
  have hsettle := State.settleStop_few (s := (s.setLot r.handle l').modCell m.cell.toNat fun _ => y) (r := q) (below := below)
    (l := l') (by rw [State.cell_modCell hc]; exact hyStack) (fun low hlow => by rw [hhandle]; exact (hbelow low hlow).1)
    (by rw [hhandle]; exact State.lot?_setLot hl _) (by rw [hopen]; exact hfew) cause
  rw [hhandle, hclosed, State.sends_modCell, State.sends_setLot, State.popTop, State.modCell_modCell] at hsettle
  refine State.stopGoes_of_afterTop hrun hc hbelow (htake.trans hsettle) hW (by dsimp only; rw [hyStack]; rfl) (hy ▸ rfl) ?_
  rw [State.cell_of_ctr (State.sends_frame _ _ _).2.2.2.2, ← hy]
  exact Cell.stopEnded_goingOn _ q below below

/-- A stop that closes a fourth segment (R92, R97). -/
theorem State.stopGoes_fourth {m : Msg} {r q : Run} {below : List Run} {l l' : Lot} {cause : CloseCause} (hrun : s.takes)
    (hc : m.cell.toNat < 48) (hl : s.lot? r.handle = some l)
    (hbelow : ∀ low ∈ below, low.handle ≠ r.handle ∧ s.carries m.cell.toNat low) (hhandle : q.handle = r.handle)
    (hopen : q.segOpen = true) (hropen : r.segOpen = true) (hfour : l'.segments.length = 4)
    (hnew : ∀ e ∈ l'.holds, e.reason ≠ .equipment) (hcause : cause ≠ .stepEnd) (hgo : s.noticesGo) (hplant : s.plantRoom 1)
    (htake : s.takeRunStopped m = ((s.setLot r.handle l').modCell m.cell.toNat fun _ =>
      (s.cell m.cell.toNat).stopEnded q below).settleStop m.cell.toNat r.handle false cause) :
    let held := s.heldFor r.handle (l'.closedBy r cause) .equipment (.cell m.cell.toNat) [] .held
    ∃ l'', held.lot? r.handle = some l'' ∧ s.stopGoes m below (held.becomesHeld r.handle l'') := by
  intro held
  obtain ⟨y, hy⟩ : ∃ y, (s.cell m.cell.toNat).stopEnded q below = y := ⟨_, rfl⟩
  have hyStack : y.stack = q :: below := hy ▸ rfl
  have hclosed : l'.closedBy q cause = l'.closedBy r cause := by rw [Lot.closedBy, Lot.closedBy, hopen, hropen]
  rw [hy] at htake
  obtain ⟨l'', hl''⟩ : ∃ l'', (l'.closedBy r cause).heldBy ⟨.equipment, s.now, .cell m.cell.toNat, [], 1, none⟩ = l'' :=
    ⟨_, rfl⟩
  have hlot : held.lot? r.handle = some l'' :=
    hl'' ▸ State.lot?_heldFor_of_lt (State.lt_of_lot? hl) (l'.closedBy r cause) .equipment (.cell m.cell.toNat) [] .held
  have hholds : l''.holds ≠ [] := by simp [← hl'', Lot.heldBy]
  have hheld : ((s.setLot r.handle l').modCell m.cell.toNat fun _ => y).heldFor r.handle (l'.closedBy r cause) .equipment
      (.cell m.cell.toNat) [] .held = held.modCell m.cell.toNat fun _ => y := by
    rw [State.heldFor_modCell, State.heldFor_setLot]
  have hsettle := State.settleStop_fourth (s := (s.setLot r.handle l').modCell m.cell.toNat fun _ => y) (r := q)
    (below := below)
    (l := l') (by rw [State.cell_modCell hc]; exact hyStack) (fun low hlow => by rw [hhandle]; exact (hbelow low hlow).1)
    (by rw [hhandle]; exact State.lot?_setLot hl _) hopen hfour hnew hcause hgo hplant
  rw [hhandle, hclosed, hheld] at hsettle
  have hsettle := hsettle l'' hlot hholds
  rw [State.becomesHeld_modCell, State.popTop, State.modCell_modCell] at hsettle
  have hleaves : s.leavesBelow (held.becomesHeld r.handle l'') r.handle :=
    ⟨fun k hk => (State.lot?_setLot_ne hk _).trans (State.lot?_setLot_ne hk _), rfl, rfl⟩
  refine ⟨l'', hlot, State.stopGoes_of_afterTop hrun hc hbelow (htake.trans hsettle) hleaves (by dsimp only; rw [hyStack]; rfl)
    (hy ▸ rfl) ?_⟩
  rw [← hy]
  exact Cell.stopEnded_goingOn _ q below below

/-- A stop whose marked pass end has closed its step (R92, R93, R123). -/
theorem State.stopGoes_closed {m : Msg} {r : Run} {below : List Run} {l : Lot} {cause : CloseCause} (hrun : s.takes)
    (hc : m.cell.toNat < 48) (hl : s.lot? r.handle = some l)
    (hbelow : ∀ low ∈ below, low.handle ≠ r.handle ∧ s.carries m.cell.toNat low) (l₁ : Lot) (hstep : l₁.step = l.step)
    (hroute : l₁.route = l.route) :
    let pre := (s.setLot r.handle l₁).modCell m.cell.toNat fun x => { x with stack := r :: below, ctx := none }
    let ended := pre.stepEnd m.cell.toNat r.handle
    s.takeRunStopped m = ((pre.modTimers m.cell.toNat fun t => { t with stop := none }).stepEnd m.cell.toNat
      r.handle).settleStop m.cell.toNat r.handle true cause →
    ∃ l', ended.lot? r.handle = some l' ∧ (l'.holds ≠ [] → s.stopGoes m below (ended.becomesHeld r.handle l')) ∧
      (l'.holds = [] → l.step + 1 < s.stepCount l.route → s.stopGoes m below (ended.joins r.handle (s.atNextStep l'))) ∧
      (l'.holds = [] → s.stepCount l.route ≤ l.step + 1 → s.stopGoes m below (ended.complete r.handle)) := by
  intro pre ended htake
  have hpreCell : pre.cell m.cell.toNat = { s.cell m.cell.toNat with stack := r :: below, ctx := none } :=
    State.cell_modCell hc _
  have hpreLot : pre.lot? r.handle = some l₁ := State.lot?_setLot hl _
  have hpreStack : (pre.cell m.cell.toNat).stack = r :: below := by rw [hpreCell]
  obtain ⟨hleaves, hWcell, hsend, l', hl', hheld, hnext, hlast⟩ := State.stepEnd_sendLot hc hpreLot hpreStack
    (fun q hq => (hbelow q hq).1) fun t => { t with stop := none }
  obtain ⟨W, hW⟩ : ∃ W, (pre.stepEnd m.cell.toNat r.handle).sendLot r.handle true true = W := ⟨_, rfl⟩
  obtain ⟨e, he⟩ : ∃ e, (pre.cell m.cell.toNat).stepEnded r below = e := ⟨_, rfl⟩
  obtain ⟨q, hstack, hclosed⟩ := Cell.stepEnded_stack hpreStack
  obtain ⟨-, -, -, -, hended⟩ := State.stepEnd_leaves hc hpreLot hpreStack fun q hq => (hbelow q hq).1
  have hstanding := Cell.stepEnded_standing (pre.cell m.cell.toNat) r below
  rw [hW, he] at hsend
  rw [hW] at hleaves hheld hnext hlast
  rw [hW, he] at hWcell
  rw [he] at hstack hended hstanding
  have hTcell : ((pre.modTimers m.cell.toNat fun t => { t with stop := none }).stepEnd m.cell.toNat r.handle).cell
      m.cell.toNat = { e with timers := { e.timers with stop := none } } := by
    rw [State.stepEnd_modTimers hc, State.modTimers, State.cell_modCell hc, hended]
  have hgoes : s.stopGoes m below W := by
    have hsettle := State.settleStop_closed (r := q) (below := below) (by rw [hTcell]; exact hstack) hclosed r.handle cause
    rw [hsend, State.popTop, State.modCell_modCell] at hsettle
    obtain ⟨hlots, htst, htbs⟩ := hleaves
    refine State.stopGoes_of_afterTop (h := r.handle) hrun hc hbelow (htake.trans hsettle)
      ⟨fun k hk => (hlots k hk).trans (State.lot?_setLot_ne hk _), htst, htbs⟩ (by dsimp only; rw [hstack]; rfl) ?_ ?_
    · exact hstanding.trans (by rw [hpreCell]; rfl)
    · rw [hWcell]
      dsimp only
      rw [hstack]
      rfl
  rw [hstep, hroute] at hnext hlast
  refine ⟨l', hl', fun h => hheld h ▸ hgoes, fun h hn => ?_, fun h hn => hlast h hn ▸ hgoes⟩
  have hatNext : pre.atNextStep l' = s.atNextStep l' := rfl
  exact hatNext ▸ hnext h hn ▸ hgoes

/-- A stop for any reason but PREEMPT, and one the part did not order (R92 to R94). -/
theorem stopSettles : Sys2Proof.Claims.stopSettles := by
  intro m reg l r below cause s hrun hfits hpass hknows hbody hlot hstack hnamed hstops hbelow c h marked off goes sent few
  have hc : c < 48 := hknows.lt
  have hl : s.lot? r.handle = some l := hnamed.1 ▸ State.lot?_of_namesLot hlot
  obtain ⟨htaken, hfault, hcause⟩ := hstops.settles
  obtain ⟨hunordered, hordered⟩ := State.takeRunStopped_taken hknows hbody hlot hstack hnamed htaken
  have hunmarked : (s.cell c).state ≠ .stopping ∨ r.stopped = none → s.takeRunStopped m = ((s.setLot r.handle marked).modCell c
      fun _ => (s.cell c).stopEnded { r with awaiting := false } below).settleStop c r.handle false cause := by
    intro hnot
    by_cases hstate : (s.cell c).state = .stopping
    · obtain ⟨hreason, hcause⟩ := hcause hstate
      have hsettled := (State.settleStopped_stopEnded (below := below) hc hl hstate).1 (hnot.resolve_left (not_not.mpr hstate))
      rw [hordered hstate, if_neg hreason, hsettled, hcause]
    · rw [hunordered hstate, hfault hstate]
  refine ⟨fun hnot hfew => ?_, fun hnot hopen hfour hnew hgo hplant => ?_, fun pass fed hstate hstopped => ?_⟩
  · exact State.stopGoes_few hrun hc hl hbelow rfl rfl hfew (q := { r with awaiting := false }) (hunmarked hnot)
  · have hend : cause ≠ .stepEnd := by
      rcases hstops with ⟨-, rfl⟩ | ⟨-, ⟨-, rfl⟩ | ⟨-, rfl⟩ | ⟨-, rfl⟩⟩ <;> nofun
    exact State.stopGoes_fourth hrun hc hl hbelow rfl (q := { r with awaiting := false }) hopen hopen hfour hnew hend hgo hplant
      (hunmarked hnot)
  · obtain ⟨hreason, hcause⟩ := hcause hstate
    obtain ⟨hdue, hnot⟩ := (State.settleStopped_stopEnded (below := below) hc hl hstate).2 pass fed hstopped
    refine ⟨fun hretest hfew => ?_, fun hretest => ?_⟩
    · have htake := hordered hstate
      rw [if_neg hreason, hdue hretest, hcause] at htake
      exact State.stopGoes_few hrun hc hl hbelow rfl rfl hfew
        (q := { r with awaiting := false, stopped := none, pass := .retest }) htake
    · have htake := hordered hstate
      rw [if_neg hreason, hnot hretest, hcause] at htake
      exact State.stopGoes_closed hrun hc hl hbelow (r := { r with awaiting := false, stopped := none }) _ rfl rfl htake

end Sys2Proof.Machine
end

section
/-! The end of a stop for a preemption (R80, R81, R93). -/

namespace Sys2Proof.Machine

set_option Elab.async false

variable {s t : State} {c : Nat}

/-! ### The settlement of a preemption -/

/-- The incoming run pushed on the stack of a cell without a stream context (R80). -/
theorem State.takeIncoming_eq (hc : c < 48) {y : Cell} (hctx : y.ctx = none) : (s.modCell c fun _ => y).takeIncoming c =
    s.modCell c fun _ => { y with stack := y.incoming.toList ++ y.stack, incoming := none } := by
  have hcell : (s.modCell c fun _ => y).cell c = y := State.cell_modCell hc _
  unfold State.takeIncoming
  rw [hcell]
  cases hincoming : y.incoming with
  | none =>
    refine State.modCell_congr ?_
    rw [Option.toList_none, List.nil_append, ← hincoming]
  | some i =>
    dsimp only
    rw [State.pushRun, State.modCell_modCell, State.modCell_modCell]
    refine State.modCell_congr ?_
    rw [← hctx]
    rfl

/-- A preempted lot without entries keeps its run (R80). -/
theorem State.settlePreempt_stays {h : Nat} {l : Lot} (hl : s.lot? h = some l) (hholds : l.holds = []) :
    s.settlePreempt c h false = ((s.setLot h { l with state := .preempted }).takeIncoming c).afterTop c := by
  unfold State.settlePreempt
  rw [State.hasHolds_of_lot hl, if_neg (by simp [hholds]), if_neg Bool.false_ne_true, State.setLotState, State.modLot_of_lot hl]

/-- A preempted lot with entries is HELD without its run (R80, R97). -/
theorem State.settlePreempt_held {r : Run} {below : List Run} {l : Lot} (hstack : (s.cell c).stack = r :: below)
    (hbelow : ∀ q ∈ below, q.handle ≠ r.handle) (hl : s.lot? r.handle = some l)
    (hfew : r.segOpen = true → l.segments.length < 4) (hholds : l.holds ≠ []) (closed : Bool) :
    s.settlePreempt c r.handle closed =
      (((s.becomesHeld r.handle (l.closedBy r .hold)).popTop c).takeIncoming c).afterTop c := by
  have hlot := State.lot?_setLot hl (l.closedBy r .hold)
  have hheld : ((s.setLot r.handle (l.closedBy r .hold)).popTop c).toHeld r.handle =
      (s.becomesHeld r.handle (l.closedBy r .hold)).popTop c := by
    rw [State.toHeld_of_lot (s := (s.setLot r.handle _).popTop c) hlot, State.popTop, State.becomesHeld_modCell,
      State.becomesHeld_setLot]
    rfl
  unfold State.settlePreempt State.closeTop
  rw [State.hasHolds_of_lot hl, if_pos (by simp [hholds]), State.top?_of_stack hstack]
  dsimp only
  rw [State.closeIfOpen_popTop hstack hbelow hl fun ho => (hfew ho).ne, hheld]

/-- A lot whose step a marked pass end closed leaves the cell for where its close sends it (R80, R93). -/
theorem State.settlePreempt_closed {r : Run} {below : List Run} (hstack : (s.cell c).stack = r :: below)
    (hopen : r.segOpen = false) (h : Nat) : s.settlePreempt c h true =
      (((s.sendLot h true true).popTop c).takeIncoming c).afterTop c := by
  have hsend : (s.popTop c).sendLot h true true = (s.sendLot h true true).popTop c := State.sendLot_modCell _ _ _ _
  have hholds : (s.popTop c).hasHolds h = s.hasHolds h := rfl
  unfold State.settlePreempt
  rw [State.closeTop_closed hstack hopen, ← hsend, State.sendLot, hholds]
  rfl

/-- A RUN_STOPPED for a preemption, with the lot sent on to `u` and the runs that stay beneath the incoming one (R80, R81). -/
def State.preemptGoes (s : State) (m : Msg) (u : State) (stays : List Run) : Prop := exec (.runStopped m) s =
  .next (((u.modCell m.cell.toNat fun x => { x with
    stack := x.incoming.toList ++ stays, incoming := none, ctx := none, orderCurrent := false }).cellGoesOn
      m.cell.toNat).enqueue
    .plant (forwardedFrame s Kind.runStopped m m.body)).settle

/-- The cell goes on with the incoming run, or with the run that stays (R80, R81, R82). -/
theorem State.preemptGoes_of_afterTop {m : Msg} {h : Nat} {stays : List Run} {W : State} {y : Cell} (hrun : s.takes)
    (hc : m.cell.toNat < 48) (hctx : y.ctx = none) (hleaves : s.leavesBelow W h)
    (htake : s.takeRunStopped m = ((W.modCell m.cell.toNat fun _ => y).takeIncoming m.cell.toNat).afterTop m.cell.toNat)
    (hstack : y.stack = stays) (hincoming : y.incoming = (s.cell m.cell.toNat).incoming)
    (hstanding : y.standing = (s.cell m.cell.toNat).standing)
    (hy : ({ y with stack := y.incoming.toList ++ y.stack, incoming := none } : Cell).goingOn = ({ W.cell m.cell.toNat with
      stack := (W.cell m.cell.toNat).incoming.toList ++ stays, incoming := none, ctx := none, orderCurrent := false } :
        Cell).goingOn)
    (hnext : ∀ i, (s.cell m.cell.toNat).incoming = some i → i.handle ≠ h ∧ s.carries m.cell.toNat i)
    (hstays : ∀ low ∈ stays, (∃ q, s.carries m.cell.toNat q ∧ W.runStep low = s.runStep q)) :
    s.preemptGoes m W stays := by
  rw [State.takeIncoming_eq hc hctx] at htake
  refine fromCell_goesOn (take := (State.takeRunStopped · m)) hrun hc htake hy hleaves.2.1 fun low hlow => ?_
  dsimp only at hlow
  rw [hstack, hincoming] at hlow
  rcases List.mem_append.mp hlow with hi | hlow
  · obtain ⟨hne, hcarries⟩ := hnext low (Option.mem_toList.mp hi)
    exact hleaves.carries (y := { y with stack := y.incoming.toList ++ y.stack, incoming := none }) hc hstanding hne hcarries
  · obtain ⟨q, hcarries, hstep⟩ := hstays low hlow
    exact State.carries_of_runStep (s := s) (r := q) hleaves.2.1 hleaves.2.2 hstep
      (by rw [State.cell_modCell hc]; exact hstanding) hcarries

/-- A stop for a preemption whose lot keeps its run (R80, R81). -/
theorem State.preemptGoes_stays {m : Msg} {r q : Run} {l l' : Lot} (hrun : s.takes) (hc : m.cell.toNat < 48)
    (hl : s.lot? r.handle = some l) (hroute : l'.route = l.route) (hholds : l'.holds = []) (hhandle : q.handle = r.handle)
    (hstep : q.step = r.step) (hcarries : s.carries m.cell.toNat r)
    (hnext : ∀ i, (s.cell m.cell.toNat).incoming = some i → i.handle ≠ r.handle ∧ s.carries m.cell.toNat i)
    (htake : s.takeRunStopped m = ((s.setLot r.handle l').modCell m.cell.toNat fun _ =>
      (s.cell m.cell.toNat).stopEnded q []).settlePreempt m.cell.toNat r.handle false) :
    s.preemptGoes m (s.setLot r.handle { l' with state := .preempted }) [q] := by
  have hlot' := State.lot?_setLot hl { l' with state := .preempted }
  rw [State.settlePreempt_stays (s := (s.setLot r.handle l').modCell m.cell.toNat _) (l := l') (State.lot?_setLot hl _) hholds,
    State.setLot_modCell, State.setLot_setLot] at htake
  refine State.preemptGoes_of_afterTop (h := r.handle) hrun hc rfl
    ⟨fun k hk => State.lot?_setLot_ne hk _, rfl, rfl⟩ htake rfl rfl rfl ?_ hnext fun low hlow => ⟨r, hcarries, ?_⟩
  · unfold Cell.stopEnded
    split
    all_goals
      unfold Cell.goingOn
      simp
  · rw [List.mem_singleton.mp hlow, State.runStep, State.runStep, hhandle, hlot', hl, hstep]
    exact congrArg (fun i => s.routeStep i r.step) hroute

/-- A stop for a preemption whose lot is HELD (R80, R97). -/
theorem State.preemptGoes_held {m : Msg} {r q : Run} {l l' : Lot} (hrun : s.takes) (hc : m.cell.toNat < 48)
    (hl : s.lot? r.handle = some l) (hholds : l'.holds ≠ []) (hfew : r.segOpen = true → l'.segments.length < 4)
    (hhandle : q.handle = r.handle) (hopen : q.segOpen = r.segOpen)
    (hnext : ∀ i, (s.cell m.cell.toNat).incoming = some i → i.handle ≠ r.handle ∧ s.carries m.cell.toNat i)
    (htake : s.takeRunStopped m = ((s.setLot r.handle l').modCell m.cell.toNat fun _ =>
      (s.cell m.cell.toNat).stopEnded q []).settlePreempt m.cell.toNat r.handle false) :
    s.preemptGoes m (s.becomesHeld r.handle (l'.closedBy r .hold)) [] := by
  obtain ⟨y, hy⟩ : ∃ y, (s.cell m.cell.toNat).stopEnded q [] = y := ⟨_, rfl⟩
  have hyStack : y.stack = [q] := hy ▸ rfl
  have hclosed : l'.closedBy q .hold = l'.closedBy r .hold := by rw [Lot.closedBy, Lot.closedBy, hopen]
  rw [hy] at htake
  have hsettle := State.settlePreempt_held (s := (s.setLot r.handle l').modCell m.cell.toNat fun _ => y) (r := q) (below := [])
    (l := l') (by rw [State.cell_modCell hc]; exact hyStack) (by simp)
    (by rw [hhandle]; exact State.lot?_setLot hl _) (by rw [hopen]; exact hfew) hholds false
  rw [hhandle, hclosed, State.becomesHeld_modCell, State.becomesHeld_setLot, State.popTop, State.modCell_modCell] at hsettle
  refine State.preemptGoes_of_afterTop (h := r.handle) hrun hc rfl
    ⟨fun k hk => State.lot?_setLot_ne hk _, rfl, rfl⟩ (htake.trans hsettle) (by dsimp only; rw [hyStack]; rfl) (hy ▸ rfl)
      (hy ▸ rfl)
    ?_ hnext (by simp)
  rw [← hy]
  unfold Cell.stopEnded
  split <;> rfl

/-- A stop for a preemption whose marked pass end has closed its step (R80, R93). -/
theorem State.preemptGoes_closed {m : Msg} {r : Run} {l : Lot} (hrun : s.takes) (hc : m.cell.toNat < 48)
    (hl : s.lot? r.handle = some l)
    (hnext : ∀ i, (s.cell m.cell.toNat).incoming = some i → i.handle ≠ r.handle ∧ s.carries m.cell.toNat i) (l₁ : Lot)
    (hstep : l₁.step = l.step) (hroute : l₁.route = l.route) :
    let pre := (s.setLot r.handle l₁).modCell m.cell.toNat fun x => { x with stack := [r], ctx := none }
    let ended := pre.stepEnd m.cell.toNat r.handle
    s.takeRunStopped m = ((pre.modTimers m.cell.toNat fun t => { t with stop := none }).stepEnd m.cell.toNat
      r.handle).settlePreempt m.cell.toNat r.handle true →
    ∃ l', ended.lot? r.handle = some l' ∧ (l'.holds ≠ [] → s.preemptGoes m (ended.becomesHeld r.handle l') []) ∧
      (l'.holds = [] → l.step + 1 < s.stepCount l.route → s.preemptGoes m (ended.joins r.handle (s.atNextStep l')) []) ∧
      (l'.holds = [] → s.stepCount l.route ≤ l.step + 1 → s.preemptGoes m (ended.complete r.handle) []) := by
  intro pre ended htake
  have hpreCell : pre.cell m.cell.toNat = { s.cell m.cell.toNat with stack := [r], ctx := none } := State.cell_modCell hc _
  have hpreLot : pre.lot? r.handle = some l₁ := State.lot?_setLot hl _
  have hpreStack : (pre.cell m.cell.toNat).stack = [r] := by rw [hpreCell]
  obtain ⟨hleaves, hWcell, hsend, l', hl', hheld, hnextStep, hlast⟩ := State.stepEnd_sendLot hc hpreLot hpreStack
    (by simp) fun t => { t with stop := none }
  obtain ⟨W, hW⟩ : ∃ W, (pre.stepEnd m.cell.toNat r.handle).sendLot r.handle true true = W := ⟨_, rfl⟩
  obtain ⟨e, he⟩ : ∃ e, (pre.cell m.cell.toNat).stepEnded r [] = e := ⟨_, rfl⟩
  obtain ⟨q, hstack, hclosed⟩ := Cell.stepEnded_stack hpreStack
  obtain ⟨-, -, -, -, hended⟩ := State.stepEnd_leaves hc hpreLot hpreStack (by simp)
  have hstanding := Cell.stepEnded_standing (pre.cell m.cell.toNat) r []
  have hincoming : ((pre.cell m.cell.toNat).stepEnded r []).incoming = (s.cell m.cell.toNat).incoming := by
    unfold Cell.stepEnded
    rw [hpreCell]
    split <;> rfl
  rw [hW, he] at hsend
  rw [hW] at hleaves hheld hnextStep hlast
  rw [hW, he] at hWcell
  rw [he] at hstack hended hstanding hincoming
  have hTcell : ((pre.modTimers m.cell.toNat fun t => { t with stop := none }).stepEnd m.cell.toNat r.handle).cell
      m.cell.toNat = { e with timers := { e.timers with stop := none } } := by
    rw [State.stepEnd_modTimers hc, State.modTimers, State.cell_modCell hc, hended]
  have hgoes : s.preemptGoes m W [] := by
    have hsettle := State.settlePreempt_closed (r := q) (below := []) (by rw [hTcell]; exact hstack) hclosed r.handle
    rw [hsend, State.popTop, State.modCell_modCell] at hsettle
    obtain ⟨hlots, htst, htbs⟩ := hleaves
    refine State.preemptGoes_of_afterTop (h := r.handle) hrun hc rfl
      ⟨fun k hk => (hlots k hk).trans (State.lot?_setLot_ne hk _), htst, htbs⟩ (htake.trans hsettle)
      (by dsimp only; rw [hstack]; rfl) hincoming ?_ ?_ hnext (by simp)
    · exact hstanding.trans (by rw [hpreCell]; rfl)
    · rw [hWcell]
      dsimp only
      rw [hstack]
      rfl
  rw [hstep, hroute] at hnextStep hlast
  refine ⟨l', hl', fun h => hheld h ▸ hgoes, fun h hn => ?_, fun h hn => hlast h hn ▸ hgoes⟩
  have hatNext : pre.atNextStep l' = s.atNextStep l' := rfl
  exact hatNext ▸ hnextStep h hn ▸ hgoes

theorem preemptSettles : Sys2Proof.Claims.preemptSettles := by
  intro m reg l r s hrun hfits hpass hknows hbody hlot hstack hnamed hstate hreason hcarries hnext c h marked goes few
  have hc : c < 48 := hknows.lt
  have hl : s.lot? r.handle = some l := hnamed.1 ▸ State.lot?_of_namesLot hlot
  obtain ⟨-, hordered⟩ := State.takeRunStopped_taken hknows hbody hlot hstack hnamed (by rw [hstate]; rfl)
  have htake := hordered hstate
  rw [hreason, Option.getD_some, if_pos rfl] at htake
  obtain ⟨hunmarked, hmarked⟩ := State.settleStopped_stopEnded (r := r) (below := []) hc hl hstate
  refine ⟨fun hstopped hholds => ?_, fun hstopped hholds hfew => ?_, fun pass fed hstopped => ?_⟩
  · rw [hunmarked hstopped] at htake
    exact State.preemptGoes_stays hrun hc hl rfl hholds rfl rfl hcarries hnext htake
  · rw [hunmarked hstopped] at htake
    exact State.preemptGoes_held (q := { r with awaiting := false }) hrun hc hl hholds hfew rfl rfl hnext htake
  · obtain ⟨hdue, hnot⟩ := hmarked pass fed hstopped
    refine ⟨fun hretest hholds => ?_, fun hretest hholds hfew => ?_, fun hretest => ?_⟩
    · rw [hdue hretest] at htake
      exact State.preemptGoes_stays hrun hc hl rfl hholds rfl rfl hcarries hnext htake
    · rw [hdue hretest] at htake
      exact State.preemptGoes_held (q := { r with awaiting := false, stopped := none, pass := .retest }) hrun hc hl hholds
        hfew rfl
        rfl hnext htake
    · rw [hnot hretest] at htake
      exact State.preemptGoes_closed (r := { r with awaiting := false, stopped := none }) hrun hc hl hnext _ rfl rfl htake

/-- Settles O54. -/
theorem runStoppedFreesCell : Obligations.RunStoppedFreesCell := by
  refine ⟨stopSettles, preemptSettles, fun m s hrun hpass hroom => ?_⟩
  refine State.dropsAs_of_runEvent hrun hpass hroom (take := (State.takeRunStopped · m)) (taken := fun x _ => takesStop x.state)
    (act := fun s c r => if (s.cell c).state = .stopping then s.endStop c r else s.unorderedStop c r) rfl (fun hread => ?_)
    (fun hread => ?_) fun x r htaken => ?_
  · unfold State.takeRunStopped readNothing atEnd
    rw [hread]
    rfl
  · unfold State.takeRunStopped readNothing atEnd
    rw [hread]
    rfl
  · unfold takesStop at htaken
    cases hstate : x.state <;> simp_all

end Sys2Proof.Machine
end

section
/-! HOLD: an ENGINEERING entry placed or merged, and what it does by the lot's state (R131 to R133, R136). -/

namespace Sys2Proof.Machine

set_option Elab.async false

variable {s t : State} {c : Nat}

/-! ### The cell of a lot -/

theorem State.findCell_eq_some {p : Cell → Bool} (hc : c < 48) (hp : p (s.cell c) = true)
    (hbefore : ∀ d, d < c → p (s.cell d) = false) : s.findCell p = some c := by
  unfold State.findCell
  rw [List.find?_range_eq_some]
  exact ⟨hp, List.mem_range.mpr hc, fun d hd => by simp [hbefore d hd]⟩

theorem State.findCell_eq_none {p : Cell → Bool} (h : ∀ d, d < 48 → p (s.cell d) = false) : s.findCell p = none := by
  unfold State.findCell
  rw [List.find?_eq_none]
  intro d hd
  simp [h d (List.mem_range.mp hd)]

/-- The cell whose top run is a lot's (R38). -/
theorem State.cellOfTop_eq_some {h : Nat} (hc : c < 48) (htop : (s.cell c).stack.head?.map Run.handle = some h)
    (hbefore : ∀ d, d < c → (s.cell d).stack.head?.map Run.handle ≠ some h) : s.cellOfTop h = some c :=
  State.findCell_eq_some hc (beq_iff_eq.mpr htop) fun d hd => beq_eq_false_iff_ne.mpr (hbefore d hd)

theorem State.cellOfTop_eq_none {h : Nat} (hno : ∀ d, d < 48 → (s.cell d).stack.head?.map Run.handle ≠ some h) :
    s.cellOfTop h = none := State.findCell_eq_none fun d hd => beq_eq_false_iff_ne.mpr (hno d hd)

theorem State.cellOfIncoming_eq_some {h : Nat} (hc : c < 48) (hin : (s.cell c).incoming.map Run.handle = some h)
    (hbefore : ∀ d, d < c → (s.cell d).incoming.map Run.handle ≠ some h) : s.cellOfIncoming h = some c :=
  State.findCell_eq_some hc (beq_iff_eq.mpr hin) fun d hd => beq_eq_false_iff_ne.mpr (hbefore d hd)

theorem State.cellOfLower_eq_some {h : Nat} (hc : c < 48) (hunder : ∃ q ∈ (s.cell c).stack.tail, q.handle = h)
    (hbefore : ∀ d, d < c → ¬∃ q ∈ (s.cell d).stack.tail, q.handle = h) : s.cellOfLower h = some c :=
  State.findCell_eq_some hc (by simpa using hunder) fun d hd => by simpa using hbefore d hd

/-! ### What a cell that goes on leaves of the plant-bound queue -/

theorem State.plantQ_order (d : Nat) (r : Option Run) (o : Order) : (s.order d r o).pcl.plantQ = s.pcl.plantQ := by
  unfold State.order State.enqueue
  dsimp only
  split <;> rfl

theorem State.plantQ_judgeItems (r : Run) (standing : Bool) : (s.judgeItems c r standing).pcl.plantQ = s.pcl.plantQ := by
  have hload : ∀ (u : State) (b : Bool) (v : ProgVals), (if b then u.startLoad c r v else u).pcl.plantQ = u.pcl.plantQ :=
    fun u b v => by
      split
      · unfold State.startLoad
        dsimp only
        split
        · exact State.plantQ_order (s := u.modCell c _) c _ _
        · rfl
      · rfl
  have hkit : ∀ (u : State) (b : Bool) (k : Nat), (if b then u.startKit c r k else u).pcl.plantQ = u.pcl.plantQ := fun u b
    k => by
    split
    · exact State.plantQ_order (s := u.modCell c _) c _ _
    · rfl
  have hsoak : ∀ (u : State) (b : Bool) (x : Temp), (if b then u.startSoak c r x else u).pcl.plantQ = u.pcl.plantQ :=
    fun u b x => by
      split
      · exact State.plantQ_order (s := u.modCell c _) c _ _
      · rfl
  unfold State.judgeItems
  dsimp only
  rw [hsoak, hkit, hload]

theorem State.plantQ_checkSetup : (s.checkSetup c).pcl.plantQ = s.pcl.plantQ := by
  unfold State.checkSetup
  split
  · rfl
  · split
    · dsimp only
      split
      · exact (State.plantQ_order c _ _).trans (State.plantQ_judgeItems _ _)
      · exact State.plantQ_judgeItems _ _
    · rfl

/-- A cell that goes on sends nothing to the plant (R70, R82). -/
theorem State.plantQ_cellGoesOn : (s.cellGoesOn c).pcl.plantQ = s.pcl.plantQ := by
  unfold State.cellGoesOn
  split
  · exact State.plantQ_checkSetup.trans (State.plantQ_judgeItems (s := s.entersSetup c _) _ _)
  · rfl

/-! ### HOLD -/

theorem takeHold_found {m : Msg} {tag : Nat} {rest : List Byte} {note : Option Nat} {l : Lot}
    (hread : readHold rest = some note)
    (hlot : s.namesLot m l) : takeHold (reqRef m tag) rest s = if l.state = .released then
      s.reply Kind.hold (reqRef m tag) .lotReleased .empty
    else (s.placeHold m.handle.toNat ⟨.engineering, .plant, [], note⟩).holdReply (reqRef m tag) := by
  have hlookup : s.lookup (reqRef m tag).handle (reqRef m tag).inst = .found l := State.lookup_of_namesLot hlot
  unfold takeHold
  rw [hread]
  dsimp only
  rw [hlookup]
  rfl

/-- The REPLY of a HOLD on a live lot (R136). -/
theorem State.holdReply_of_lot {m : Msg} {tag : Nat} {l : Lot} (hl : s.lot? m.handle.toNat = some l) (hroom : s.plantRoom 1) :
    s.holdReply (reqRef m tag) = s.answers Kind.hold m tag .ok
      (.hold l.state (((l.hold? .engineering).map HoldEntry.repeats).getD 0) l.holds.length l.target) := by
  have hl' : s.lot? (reqRef m tag).handle = some l := hl
  unfold State.holdReply
  rw [hl']
  exact State.reply_of_plantRoom hroom _ _ _ _ _

/-- A lot with its first entry (R131, R132). -/
def Lot.firstHeld (l : Lot) (e : HoldEntry) (target : Target) : Lot :=
    { l with holds := [e], target := some target, mark := true }

/-- An ENGINEERING entry counted and told to the plant (R131). -/
def State.tellsHold (s : State) (m : Msg) (l : Lot) (e : HoldEntry) (after : LotState) (target : Target) : State :=
  (s.event .holdPlaced 4).notifies (.lotHeld ⟨m.handle.toNat, m.inst.toNat, l.name, groupOf m.handle.toNat⟩
    (s.group (groupOf m.handle.toNat)).family e after (some target))

/-- A lot with its first entry, an ENGINEERING one, counted and told to the plant (R131, R132). -/
def State.heldFirst (s : State) (m : Msg) (l : Lot) (note : Option Nat) (after : LotState) (target : Target) : State :=
  let e : HoldEntry := ⟨.engineering, s.now, .plant, [], 1, note⟩
  (s.tellsHold m l e after target).setLot m.handle.toNat (l.firstHeld e target)

/-- A HOLD that is taken, of a lot without entries (R131, R136). -/
def State.holdsFirst (s : State) (m : Msg) (tag : Nat) (rest : List Byte) (note : Option Nat) (l : Lot) : Prop :=
  s.accepts m tag rest ∧ readHold rest = some note ∧ s.namesLot m l ∧ s.noticesGo ∧ s.plantRoom 2 ∧ l.holds = []

theorem State.plantQ_tellsHold (m : Msg) (l : Lot) (e : HoldEntry) (after : LotState) (target : Target) :
    (s.tellsHold m l e after target).pcl.plantQ.length = s.pcl.plantQ.length + 1 := List.length_append

theorem State.holdsFirst.lot {m : Msg} {tag : Nat} {rest : List Byte} {note : Option Nat} {l : Lot}
    (h : s.holdsFirst m tag rest note l) : s.lot? m.handle.toNat = some l := State.lot?_of_namesLot h.2.2.1

theorem State.holdsFirst.lt {m : Msg} {tag : Nat} {rest : List Byte} {note : Option Nat} {l : Lot}
    (h : s.holdsFirst m tag rest note l) : m.handle.toNat < 512 := State.lt_of_lot? h.lot

theorem State.holdsFirst.told {m : Msg} {tag : Nat} {rest : List Byte} {note : Option Nat} {l : Lot}
    (h : s.holdsFirst m tag rest note l) (after : LotState) (target : Target) :
    (s.heldFirst m l note after target).lot? m.handle.toNat = some
      (l.firstHeld ⟨.engineering, s.now, .plant, [], 1, note⟩ target) :=
  State.lot?_setLot_of_lt h.lt _

/-- An entry placed leaves the cells and counts one more frame to the plant (R131). -/
theorem State.heldFirst_leaves (m : Msg) (l : Lot) (note : Option Nat) (after : LotState) (target : Target) :
    let held := s.heldFirst m l note after target
    held.ctr = s.ctr ∧ (∀ k, held.cellOfTop k = s.cellOfTop k) ∧ (∀ k, held.cellOfIncoming k = s.cellOfIncoming k) ∧
      (∀ k, held.cellOfLower k = s.cellOfLower k) ∧ held.pcl.plantQ.length = s.pcl.plantQ.length + 1 :=
  ⟨rfl, fun _ => rfl, fun _ => rfl, fun _ => rfl, State.plantQ_tellsHold m l _ after target⟩

/-- The first entry of a lot, placed by a HOLD (R131, R132, R136). -/
theorem exec_hold_first {m : Msg} {tag : Nat} {rest : List Byte} {note : Option Nat} {l l' : Lot} {target : Target} {t : State}
    {after : LotState} (h : s.holdsFirst m tag rest note l) (hstate : l.state ≠ .released)
    (htarget : target = if l.state = .complete then .complete else .resume)
    (hafter : s.stateAfterHold m.handle.toNat = after)
    (heffect : (s.heldFirst m l note after target).holdEffect m.handle.toNat .engineering = t)
    (hl' : t.lot? m.handle.toNat = some l') (hentries : l'.holds = [⟨.engineering, s.now, .plant, [], 1, note⟩])
    (hback : l'.target = some target) (hplant : t.pcl.plantQ.length = s.pcl.plantQ.length + 1) :
    exec (.hold m) s = .next (t.answers Kind.hold m tag .ok (.hold l'.state 1 1 (some target))).settle := by
  have hl := h.lot
  obtain ⟨ha, hread, hlot, hgo, hroom, hholds⟩ := h
  have hinst : (s.slot m.handle.toNat).inst = m.inst.toNat := by rw [hlot.2.2]
  have hplace : s.placeHold m.handle.toNat ⟨.engineering, .plant, [], note⟩ = t := by
    have hnew : s.isNewHold m.handle.toNat .engineering = true := by
      rw [State.isNewHold_of_lot hl, Lot.hasHold_eq_false (by simp [hholds])]
      rfl
    have htold := State.addHold_heldNotice hl (n := ⟨.engineering, .plant, [], note⟩) (by simp [hholds])
      (s.stateAfterHold m.handle.toNat) hgo (State.plantRoom_mono hroom (by omega))
    dsimp only at htold
    rw [if_pos hholds, ← htarget, hholds, State.named, hinst, hafter] at htold
    unfold State.placeHold
    dsimp only
    rw [hnew, if_pos rfl, hafter, htold]
    exact heffect
  have hreply := State.holdReply_of_lot (tag := tag) hl' (by unfold State.plantRoom at hroom ⊢; omega)
  have hexec : exec (.hold m) s = .next (takeHold (reqRef m tag) rest s).settle := request_of_accepts ha _ _
  rw [hexec, takeHold_found hread hlot, if_neg hstate, hplace, hreply, hback, hentries]
  simp [Lot.hold?, hentries]

/-! The effect of an entry, by the lot's state (R133). -/

theorem State.holdEffect_waiting {h : Nat} {l : Lot} (hl : s.lot? h = some l) (hstate : l.state = .waiting) (r : HoldReason) :
    s.holdEffect h r = (s.leaveQueue h).toHeld h := by simp only [State.holdEffect, hl, hstate]

theorem State.holdEffect_assigned {h : Nat} {l : Lot} (hl : s.lot? h = some l) (hstate : l.state = .assigned) (r : HoldReason) :
    s.holdEffect h r = s.holdAssigned h r := by simp only [State.holdEffect, hl, hstate]

theorem State.holdEffect_running {h : Nat} {l : Lot} (hl : s.lot? h = some l) (hstate : l.state = .running)
    (htop : s.cellOfTop h = some c) (r : HoldReason) : s.holdEffect h r = s.requestStop c (stopReasonOf r) := by
  simp only [State.holdEffect, hl, hstate, htop]

theorem State.holdEffect_preempted {h : Nat} {l : Lot} (hl : s.lot? h = some l) (hstate : l.state = .preempted)
    (hlower : s.cellOfLower h = some c) (r : HoldReason) : s.holdEffect h r = s.holdLower c h := by
  simp only [State.holdEffect, hl, hstate, hlower]

theorem State.holdEffect_complete {h : Nat} {l : Lot} (hl : s.lot? h = some l) (hstate : l.state = .complete) (r : HoldReason) :
    s.holdEffect h r = s.toHeld h := by simp only [State.holdEffect, hl, hstate]

theorem State.holdEffect_held {h : Nat} {l : Lot} (hl : s.lot? h = some l) (hstate : l.state = .held) (r : HoldReason) :
    s.holdEffect h r = s := by simp only [State.holdEffect, hl, hstate]

/-- A lot that its entry takes from its place is HELD afterwards (R131). -/
theorem State.stateAfterHold_held {h : Nat} {l : Lot} (hl : s.lot? h = some l)
    (hstate : l.state = .waiting ∨ l.state = .preempted ∨ l.state = .complete) : s.stateAfterHold h = .held := by
  rcases hstate with e | e | e <;> simp only [State.stateAfterHold, hl, e]

theorem State.stateAfterHold_running {h : Nat} {l : Lot} (hl : s.lot? h = some l) (hstate : l.state = .running) :
    s.stateAfterHold h = .running := by simp only [State.stateAfterHold, hl, hstate]

theorem State.stateAfterHold_assigned {h : Nat} {l : Lot} (hl : s.lot? h = some l) (hstate : l.state = .assigned)
    (htop : s.cellOfTop h = some c) : s.stateAfterHold h = if (s.cell c).state = .setup then .held else .assigned := by
  simp only [State.stateAfterHold, hl, hstate, htop]

theorem State.stateAfterHold_incoming {h : Nat} {l : Lot} (hl : s.lot? h = some l) (hstate : l.state = .assigned)
    (htop : s.cellOfTop h = none) : s.stateAfterHold h = .held := by
  simp only [State.stateAfterHold, hl, hstate, htop]

theorem State.holdAssigned_top {h : Nat} (htop : s.cellOfTop h = some c) (r : HoldReason) : s.holdAssigned h r =
    if (s.cell c).state = .setup then s.holdInSetup c h else s.requestStop c (stopReasonOf r) := by
  simp only [State.holdAssigned, htop]

theorem State.holdAssigned_incoming {h : Nat} (htop : s.cellOfTop h = none) (hin : s.cellOfIncoming h = some c)
    (r : HoldReason) : s.holdAssigned h r = (s.dropIncoming c).toHeld h := by
  simp only [State.holdAssigned, htop, hin]

/-- A cell whose stop is pending is told nothing more (R48). -/
theorem State.requestStop_of_stopping (h : (s.cell c).state = .stopping) (reason : StopReason) : s.requestStop c reason =
    s := by
  unfold State.requestStop
  rw [h]

/-- The top run of a cell in SETUP taken off for a hold (R133). -/
theorem State.holdInSetup_of_lot (hc : c < 48) {r : Run} {below : List Run} {l : Lot} (hstack : (s.cell c).stack = r :: below)
    (hbelow : ∀ low ∈ below, low.handle ≠ r.handle ∧ s.carries c low) (hl : s.lot? r.handle = some l)
    (hfew : r.segOpen = true → l.segments.length < 4) : s.holdInSetup c r.handle =
      ((s.becomesHeld r.handle (l.closedBy r .hold)).modCell c fun x => { x with
        stack := below, ctx := none, orderCurrent := false }).cellGoesOn c := by
  have hlot := State.lot?_setLot hl (l.closedBy r .hold)
  have hheld : ((s.setLot r.handle (l.closedBy r .hold)).popTop c).toHeld r.handle =
      (s.becomesHeld r.handle (l.closedBy r .hold)).modCell c fun x => { x with
        stack := below, ctx := none, orderCurrent := false } := by
    rw [State.toHeld_of_lot (s := (s.setLot r.handle _).popTop c) hlot, State.popTop, State.becomesHeld_modCell,
      State.becomesHeld_setLot]
    refine State.modCell_congr ?_
    rw [show (s.becomesHeld r.handle (l.closedBy r .hold)).cell c = s.cell c from rfl, hstack]
    rfl
  have hleaves : s.leavesBelow (s.becomesHeld r.handle (l.closedBy r .hold)) r.handle :=
    ⟨fun k hk => State.lot?_setLot_ne hk _, rfl, rfl⟩
  obtain ⟨y, hy⟩ : ∃ y : Cell, { s.cell c with stack := below, ctx := none, orderCurrent := false } = y := ⟨_, rfl⟩
  have hcell : (s.becomesHeld r.handle (l.closedBy r .hold)).modCell c (fun x => { x with
      stack := below, ctx := none, orderCurrent := false }) = (s.becomesHeld r.handle (l.closedBy r .hold)).modCell c
        fun _ => y :=
    State.modCell_congr hy
  unfold State.holdInSetup
  rw [State.top?_of_stack hstack]
  dsimp only
  rw [State.closeIfOpen_popTop hstack (fun low hlow => (hbelow low hlow).1) hl fun ho => (hfew ho).ne, hheld, hcell]
  refine State.afterTop_eq hc fun low hlow => ?_
  rw [State.cell_modCell hc, ← hy] at hlow
  obtain ⟨hne, hcarries⟩ := hbelow low hlow
  exact hleaves.carries hc (hy ▸ rfl) hne hcarries

/-- A PREEMPTED lot's run taken from beneath the incoming lot's (R133). -/
theorem State.holdLower_of_lot {r low : Run} {l : Lot} (hstack : (s.cell c).stack = [r, low]) (hne : r.handle ≠ low.handle)
    (hl : s.lot? low.handle = some l) (hfew : low.segOpen = true → l.segments.length < 4) : s.holdLower c low.handle =
      (s.becomesHeld low.handle (l.closedBy low .hold)).modCell c fun x => { x with stack := [r], ctx := none } := by
  have hany : ((s.cell c).stack.tail.any fun r => r.handle == low.handle && r.segOpen) = low.segOpen := by simp [hstack]
  have hclose : (if ((s.cell c).stack.tail.any fun r => r.handle == low.handle && r.segOpen) = true then
      s.closeSegment c low.handle .hold else s) =
        (s.setLot low.handle (l.closedBy low .hold)).modCell c low.unmark := by
    rw [hany]
    exact State.closeIfOpen_of_lot hl (fun ho => (hfew ho).ne) .hold
  have hlot : ((s.setLot low.handle (l.closedBy low .hold)).modCell c low.unmark).lot? low.handle = some
    (l.closedBy low .hold) :=
    State.lot?_setLot hl _
  unfold State.holdLower
  dsimp only
  rw [hclose, State.modCell_modCell, State.toHeld_of_lot (s := (s.setLot low.handle _).modCell c _) (State.lot?_setLot hl _),
    State.becomesHeld_modCell, State.becomesHeld_setLot]
  refine State.modCell_congr ?_
  rw [show (s.becomesHeld low.handle (l.closedBy low .hold)).cell c = s.cell c from rfl]
  have hdrop : dropLower low.handle (low.unmark (s.cell c)).stack = [r] := by
    unfold Run.unmark
    split
    · simp [clearSegMark, hstack, hne, dropLower]
    · simp [hstack, dropLower]
  rw [hdrop]
  unfold Run.unmark
  split <;> rfl

section

variable {m : Msg} {tag : Nat} {rest : List Byte} {note : Option Nat} {l : Lot}

/-- A HOLD of a lot whose run is the top run of a cell in SETUP (R133). -/
theorem exec_hold_inSetup (h : s.holdsFirst m tag rest note l) {r : Run} {below : List Run} (hc : c < 48)
    (hsetup : (s.cell c).state = .setup) (hstack : (s.cell c).stack = r :: below) (hr : r.handle = m.handle.toNat)
    (hbefore : ∀ d, d < c → (s.cell d).stack.head?.map Run.handle ≠ some m.handle.toNat) (hstate : l.state = .assigned)
    (hfew : r.segOpen = true → l.segments.length < 4)
    (hbelow : ∀ low ∈ below, low.handle ≠ m.handle.toNat ∧ s.carries c low) :
    let noted := l.firstHeld ⟨.engineering, s.now, .plant, [], 1, note⟩ .resume
    exec (.hold m) s = .next
      (((((s.heldFirst m l note .held .resume).becomesHeld m.handle.toNat (noted.closedBy r .hold)).modCell c
      fun x => { x with stack := below, ctx := none, orderCurrent := false }).cellGoesOn c).answers Kind.hold m tag .ok
        (.hold .held 1 1 (some .resume))).settle := by
  intro noted
  obtain ⟨held, hheld⟩ : ∃ held, s.heldFirst m l note .held .resume = held := ⟨_, rfl⟩
  have hlot : held.lot? m.handle.toNat = some noted := hheld ▸ h.told .held .resume
  have htop : s.cellOfTop m.handle.toNat = some c := State.cellOfTop_eq_some hc (by rw [hstack, ← hr]; rfl) hbefore
  have hafter : s.stateAfterHold m.handle.toNat = .held := (State.stateAfterHold_assigned h.lot hstate htop).trans
    (if_pos hsetup)
  have hleaves : s.leavesBelow held m.handle.toNat := hheld ▸ ⟨fun k hk => State.lot?_setLot_ne hk _, rfl, rfl⟩
  have hctr : held.ctr = s.ctr := hheld ▸ rfl
  have hcell := State.cell_of_ctr hctr
  have hremove := State.holdInSetup_of_lot (s := held) (r := r) (l := noted) hc (by rw [hcell, hstack])
    (fun low hlow => ⟨hr ▸ (hbelow low hlow).1, State.carries_congr hleaves.2.1 hleaves.2.2 (hleaves.1 _ (hbelow low hlow).1)
      (by rw [hcell]) (hbelow low hlow).2⟩) (hr ▸ hlot) hfew
  rw [hr] at hremove
  have hplant : held.pcl.plantQ.length = s.pcl.plantQ.length + 1 := hheld ▸ State.plantQ_tellsHold m l _ _ _
  have hctop : held.cellOfTop m.handle.toNat = some c := by
    unfold State.cellOfTop State.findCell at htop ⊢
    simpa only [hcell] using htop
  obtain ⟨gone, hgone⟩ : ∃ gone, (held.becomesHeld m.handle.toNat (noted.closedBy r .hold)).modCell c (fun x => { x with
    stack := below, ctx := none, orderCurrent := false }) = gone := ⟨_, rfl⟩
  have hleft : (gone.cellGoesOn c).lot? m.handle.toNat =
      some { noted.closedBy r .hold with state := .held, relPending := false } := by
    refine (State.lot?_cellGoesOn hc fun low hlow => ?_).trans ?_
    · rw [← hgone, State.cell_modCell hc] at hlow
      exact (hbelow low hlow).1
    · rw [← hgone]
      exact State.lot?_setLot_of_lt h.lt _
  have htarget : (noted.closedBy r .hold).target = some .resume := by
    unfold Lot.closedBy
    split <;> rfl
  rw [hheld, hgone]
  refine exec_hold_first h (by simp [hstate]) (by simp [hstate]) hafter ?_ hleft (Lot.closedBy_holds _ _ _) htarget ?_
  · rw [hheld, State.holdEffect_assigned hlot hstate, State.holdAssigned_top hctop, if_pos (by rw [hcell, hsetup]), hremove,
      hgone]
  · rw [State.plantQ_cellGoesOn, ← hgone]
    exact hplant

/-- A HOLD of a lot whose run is the incoming run of a cell (R133). -/
theorem exec_hold_incoming (h : s.holdsFirst m tag rest note l) (hc : c < 48)
    (hnoTop : ∀ d, d < 48 → (s.cell d).stack.head?.map Run.handle ≠ some m.handle.toNat)
    (hin : (s.cell c).incoming.map Run.handle = some m.handle.toNat)
    (hbefore : ∀ d, d < c → (s.cell d).incoming.map Run.handle ≠ some m.handle.toNat) (hstate : l.state = .assigned) :
    let noted := l.firstHeld ⟨.engineering, s.now, .plant, [], 1, note⟩ .resume
    exec (.hold m) s = .next ((((s.heldFirst m l note .held .resume).becomesHeld m.handle.toNat noted).modCell c
      fun x => { x with incoming := none, ctx := none }).answers Kind.hold m tag .ok
        (.hold .held 1 1 (some .resume))).settle := by
  intro noted
  have hlot := h.told .held .resume
  obtain ⟨-, htops, hincomings, -, hplant⟩ := State.heldFirst_leaves (s := s) m l note .held .resume
  have htop := State.cellOfTop_eq_none hnoTop
  obtain ⟨held, hheld⟩ : ∃ held, s.heldFirst m l note .held .resume = held := ⟨_, rfl⟩
  rw [hheld] at hlot htops hincomings hplant ⊢
  have hincoming := (hincomings _).trans (State.cellOfIncoming_eq_some hc hin hbefore)
  have heffect : held.holdEffect m.handle.toNat .engineering = (held.becomesHeld m.handle.toNat noted).modCell c
      fun x => { x with incoming := none, ctx := none } := by
    rw [State.holdEffect_assigned hlot hstate, State.holdAssigned_incoming ((htops _).trans htop) hincoming]
    exact State.toHeld_of_lot (s := held.dropIncoming c) hlot
  exact exec_hold_first (l' := { noted with state := .held, relPending := false }) h (by simp [hstate]) (by simp [hstate])
    (State.stateAfterHold_incoming h.lot hstate htop) (hheld ▸ heffect) (State.lot?_setLot_of_lt h.lt _) rfl rfl hplant

/-- A HOLD of a PREEMPTED lot (R133). -/
theorem exec_hold_preempted (h : s.holdsFirst m tag rest note l) {r low : Run} (hc : c < 48)
    (hstack : (s.cell c).stack = [r, low])
    (hlow : low.handle = m.handle.toNat) (hne : r.handle ≠ m.handle.toNat)
    (hbefore : ∀ d, d < c → ¬∃ q ∈ (s.cell d).stack.tail, q.handle = m.handle.toNat) (hstate : l.state = .preempted)
    (hfew : low.segOpen = true → l.segments.length < 4) :
    let noted := l.firstHeld ⟨.engineering, s.now, .plant, [], 1, note⟩ .resume
    exec (.hold m) s = .next ((((s.heldFirst m l note .held .resume).becomesHeld m.handle.toNat
      (noted.closedBy low .hold)).modCell c fun x => { x with stack := [r], ctx := none }).answers Kind.hold m tag .ok
        (.hold .held 1 1 (some .resume))).settle := by
  intro noted
  have hlot := h.told .held .resume
  have hafter := State.stateAfterHold_held h.lot (.inr (.inl hstate))
  have hlower : s.cellOfLower m.handle.toNat = some c :=
    State.cellOfLower_eq_some hc ⟨low, by rw [hstack]; exact List.mem_singleton_self low, hlow⟩ hbefore
  have hremove := State.holdLower_of_lot (s := s.heldFirst m l note .held .resume) (l := noted) (c := c) hstack (hlow ▸ hne)
    (hlow ▸ hlot) hfew
  rw [hlow] at hremove
  have htarget : (noted.closedBy low .hold).target = some .resume := by
    unfold Lot.closedBy
    split <;> rfl
  exact exec_hold_first (l' := { noted.closedBy low .hold with state := .held, relPending := false }) h (by simp [hstate])
    (by simp [hstate]) hafter ((State.holdEffect_preempted hlot hstate hlower _).trans hremove)
    (State.lot?_setLot_of_lt h.lt _) (Lot.closedBy_holds _ _ _) htarget (State.plantQ_tellsHold m l _ _ _)

/-- A HOLD of a COMPLETE lot (R133, R151). -/
theorem exec_hold_complete (h : s.holdsFirst m tag rest note l) (hstate : l.state = .complete) :
    let noted := l.firstHeld ⟨.engineering, s.now, .plant, [], 1, note⟩ .complete
    exec (.hold m) s = .next
      (((s.heldFirst m l note .held .complete).becomesHeld m.handle.toNat noted).answers Kind.hold m tag .ok
      (.hold .held 1 1 (some .complete))).settle := by
  intro noted
  have hlot := h.told .held .complete
  have hafter := State.stateAfterHold_held h.lot (.inr (.inr hstate))
  exact exec_hold_first (l' := { noted with state := .held, relPending := false }) h (by simp [hstate]) (by simp [hstate])
    hafter ((State.holdEffect_complete hlot hstate _).trans (State.toHeld_of_lot hlot)) (State.lot?_setLot_of_lt h.lt _) rfl
    rfl (State.plantQ_tellsHold m l _ _ _)

/-- A HOLD of a lot under way on a cell: the cell is told to stop unless it is stopping (R48, R133). -/
theorem exec_hold_top (h : s.holdsFirst m tag rest note l) (hc : c < 48)
    (htop : (s.cell c).stack.head?.map Run.handle = some m.handle.toNat)
    (hbefore : ∀ d, d < c → (s.cell d).stack.head?.map Run.handle ≠ some m.handle.toNat)
    (hstate : l.state = .assigned ∨ l.state = .running) (hsetup : (s.cell c).state ≠ .setup) {t : State}
    (hstop : (s.heldFirst m l note l.state .resume).requestStop c .hold = t)
    (hldr : t.ldr = (s.heldFirst m l note l.state .resume).ldr)
    (hplant : t.pcl.plantQ = (s.heldFirst m l note l.state .resume).pcl.plantQ) :
    exec (.hold m) s = .next (t.answers Kind.hold m tag .ok (.hold l.state 1 1 (some .resume))).settle := by
  have hlot := h.told l.state .resume
  obtain ⟨-, htops, -, -, hfirst⟩ := State.heldFirst_leaves (s := s) m l note l.state .resume
  have htop := State.cellOfTop_eq_some hc htop hbefore
  have hafter : s.stateAfterHold m.handle.toNat = l.state := by
    rcases hstate with e | e
    · rw [State.stateAfterHold_assigned h.lot e htop, if_neg hsetup, e]
    · rw [State.stateAfterHold_running h.lot e, e]
  have hcell : ∀ d, (s.heldFirst m l note l.state .resume).cell d = s.cell d := fun _ => rfl
  obtain ⟨held, hheld⟩ : ∃ held, s.heldFirst m l note l.state .resume = held := ⟨_, rfl⟩
  rw [hheld] at hlot htops hstop hldr hplant hcell hfirst
  have hctop := (htops _).trans htop
  have heffect : held.holdEffect m.handle.toNat .engineering = t := by
    rcases hstate with e | e
    · rw [State.holdEffect_assigned hlot e, State.holdAssigned_top hctop, hcell, if_neg hsetup]
      exact hstop
    · rw [State.holdEffect_running hlot e hctop]
      exact hstop
  have hleft : t.lot? m.handle.toNat = some (l.firstHeld ⟨.engineering, s.now, .plant, [], 1, note⟩ .resume) := by
    rw [← hlot]
    simp only [State.lot?, State.slot, hldr]
  exact exec_hold_first (l' := l.firstHeld ⟨.engineering, s.now, .plant, [], 1, note⟩ .resume) h
    (by rcases hstate with e | e <;> simp [e]) (by rcases hstate with e | e <;> simp [e])
    hafter (by rw [hheld]; exact heffect) hleft rfl rfl (by rw [hplant]; exact hfirst)

end

/-- A HOLD of a lot without entries that is not WAITING and is not told to stop (R133). -/
theorem holdRemovesRun : Sys2Proof.Claims.holdRemovesRun := by
  intro m tag rest note l s ha hread hlot hpass hgo hroom hfits hholds h top under incoming e noted placed answers held
  have hfirst : s.holdsFirst m tag rest note l := ⟨ha, hread, hlot, hgo, hroom, hholds⟩
  refine ⟨fun c r below hc hsetup hstack hr hbefore hstate hfew hbelow => ?_,
    fun c hc hnoTop hbefore hin hstate => ?_, fun c r low hc hstack hlow hne hbefore hstate hfew => ?_, fun hstate => ?_,
    fun c hc hstopping htop hbefore hstate => ?_⟩
  · exact exec_hold_inSetup hfirst hc hsetup hstack hr hbefore hstate hfew hbelow
  · exact exec_hold_incoming hfirst hc hnoTop hin hbefore hstate
  · exact exec_hold_preempted hfirst hc hstack hlow hne hbefore hstate hfew
  · exact exec_hold_complete hfirst hstate
  · exact exec_hold_top hfirst hc htop hbefore hstate (by rw [hstopping]; nofun)
      (State.requestStop_of_stopping (s := s.heldFirst m l note l.state .resume) hstopping _) rfl rfl

/-- Settles O56. -/
theorem holdPlacesEngineeringEntry : Obligations.HoldPlacesEngineeringEntry := by
  refine ⟨holdRemovesRun, ?_⟩
  intro m tag rest note l s ha hread hlot hpass hgo hroom h e named family
  have hl : s.lot? h = some l := State.lot?_of_namesLot hlot
  have hh := State.lt_of_lot? hl
  have hexec : exec (.hold m) s = .next (takeHold (reqRef m tag) rest s).settle := request_of_accepts ha _ _
  refine ⟨fun hstate => ?_, fun hstate hholds => ?_, fun c reg r below hc hfits hreg hstack hr hbefore hholds hfloor hcase
    => ?_,
    fun old hstate hholds hold => ?_⟩
  · rw [hexec, takeHold_found hread hlot, if_pos hstate, State.reply_of_plantRoom (State.plantRoom_mono hroom (by omega)),
      State.settle_of_passTaken]
    exact hpass
  · have hfirst : s.holdsFirst m tag rest note l := ⟨ha, hread, hlot, hgo, hroom, hholds⟩
    have htold := hfirst.told .held .resume
    have heffect := (State.holdEffect_waiting htold hstate .engineering).trans
      (State.toHeld_of_lot (s := (s.heldFirst m l note .held .resume).leaveQueue h) htold)
    have hleft : (((s.heldFirst m l note .held .resume).leaveQueue h).becomesHeld h (l.firstHeld e .resume)).lot? h =
      some { l.firstHeld e .resume with state := .held, relPending := false } := State.lot?_setLot_of_lt hh _
    have hanswer := exec_hold_first hfirst (by simp [hstate]) (by simp [hstate])
      (State.stateAfterHold_held hl (.inl hstate)) heffect
      hleft rfl rfl (State.plantQ_tellsHold m l _ _ _)
    rw [State.settle_of_passTaken (by exact hpass)] at hanswer
    have hset : (((s.heldFirst m l note .held .resume).leaveQueue h).setLot h { l.firstHeld e .resume with
        state := .held, relPending := false }) = ((s.tellsHold m l e .held .resume).leaveQueue h).setLot h
          { l.firstHeld e .resume with
          state := .held, relPending := false } := State.setLot_setLot (s := (s.tellsHold m l e .held .resume).leaveQueue h) ..
    refine hanswer.trans ?_
    unfold State.becomesHeld
    rw [hset]
    rfl
  · have hfirst : s.holdsFirst m tag rest note l := ⟨ha, hread, hlot, hgo, hroom, hholds⟩
    have hstops : (s.cell c).state.stops ∧ (l.state = .assigned ∨ l.state = .running) := by
      rcases hcase with ⟨hl, hs | hs⟩ | ⟨hl, hs⟩ | ⟨hl, hs⟩
      · exact ⟨.inr (.inl hs), .inr hl⟩
      · exact ⟨.inr (.inr hs), .inr hl⟩
      · exact ⟨.inl hs, .inr hl⟩
      · exact ⟨.inl hs, .inl hl⟩
    obtain ⟨hstops, hunder⟩ := hstops
    have hstop := State.requestStop_of_room (s := s.heldFirst m l note l.state .resume) (hfits c hc).2 hstops hreg hstack
      hfloor .hold
    have hanswer := exec_hold_top hfirst hc (by rw [hstack]; exact congrArg some hr) hbefore hunder
      (by rcases hstops with e | e | e <;> rw [e] <;> nofun) hstop rfl rfl
    rw [State.settle_of_passTaken] at hanswer
    · exact hanswer
    · exact hpass
  · have hnew : s.isNewHold h .engineering = false := by
      rw [State.isNewHold_of_lot hl, Lot.hasHold_eq_true ⟨old, by simp [hholds], hold⟩]
      rfl
    obtain ⟨merged, hmerged⟩ : ∃ x : HoldEntry,
      { old with repeats := min 255 (old.repeats + 1), note := note.or old.note } = x :=
      ⟨_, rfl⟩
    have hentry : placeEntry l.holds ⟨.engineering, .plant, [], note⟩ s.now = [merged] := by
      rw [placeEntry_present _ ⟨old, by simp [hholds], hold⟩, hholds, ← hmerged]
      simp [hold, mergeHold, addTrips]
    have hadd := State.addHold_of_lot hl ⟨.engineering, .plant, [], note⟩
    rw [hentry, if_neg (by simp [hholds])] at hadd
    have hadded : (s.addHold h ⟨.engineering, .plant, [], note⟩).lot? h =
        some { l with mark := true, holds := [merged] } := by
      rw [hadd]
      exact State.lot?_setLot hl _
    have hplace : s.placeHold h ⟨.engineering, .plant, [], note⟩ = s.addHold h ⟨.engineering, .plant, [], note⟩ := by
      unfold State.placeHold
      dsimp only
      rw [hnew, if_neg Bool.false_ne_true]
      exact State.holdEffect_held hadded hstate _
    have hreason : merged.reason = .engineering := by rw [← hmerged]; exact hold
    have hrepeats : merged.repeats = min 255 (old.repeats + 1) := by rw [← hmerged]
    rw [hexec, takeHold_found hread hlot, if_neg (by simp [hstate]), hplace,
      State.holdReply_of_lot hadded (State.plantRoom_mono (s := s) hroom (by omega)), hadd, State.settle_of_passTaken]
    · simp [Lot.hold?, hreason, hrepeats, hstate, hmerged]
      rfl
    · exact hpass

end Sys2Proof.Machine
end

section
/-! RELEASE: its checks, and CONTINUE and REWORK (R125, R126, R140 to R144, R152). -/

namespace Sys2Proof.Machine

set_option Elab.async false

variable {s t : State} {c : Nat}

/-! ### The checks -/

theorem takeRelease_found {m : Msg} {tag : Nat} {rest : List Byte} {reason : HoldReason} {d : Disposition} {l : Lot}
    (hread : readRelease rest = some (reason, d)) (hlot : s.namesLot m l) :
    (s.releaseCheck m.handle.toNat l reason d = .ok → takeRelease (reqRef m tag) rest s = s.dispose (reqRef m tag) l reason d) ∧
      (s.releaseCheck m.handle.toNat l reason d ≠ .ok → takeRelease (reqRef m tag) rest s =
        s.reply Kind.release (reqRef m tag) (s.releaseCheck m.handle.toNat l reason d) .empty) := by
  have hlookup : s.lookup (reqRef m tag).handle (reqRef m tag).inst = .found l := State.lookup_of_namesLot hlot
  have hcheck : s.releaseCheck (reqRef m tag).handle l reason d = s.releaseCheck m.handle.toNat l reason d := rfl
  have htake : takeRelease (reqRef m tag) rest s = if s.releaseCheck m.handle.toNat l reason d = .ok then
      s.dispose (reqRef m tag) l reason d
    else s.reply Kind.release (reqRef m tag) (s.releaseCheck m.handle.toNat l reason d) .empty := by
    unfold takeRelease
    rw [hread]
    dsimp only
    rw [hlookup]
    dsimp only
    rw [hcheck]
    cases s.releaseCheck m.handle.toNat l reason d <;> rfl
  exact ⟨fun h => htake.trans (if_pos h), fun h => htake.trans (if_neg h)⟩

theorem State.stopPending_of_stopping {h : Nat} (htop : s.cellOfTop h = some c) (hstate : (s.cell c).state = .stopping) :
    s.stopPending h = true := by
  simp [State.stopPending, htop, hstate]

theorem State.stopPending_of_none {h : Nat} (hno : s.noStopPending h) : s.stopPending h = false := by
  unfold State.stopPending
  cases htop : s.cellOfTop h with
  | none => rfl
  | some c =>
    unfold State.cellOfTop State.findCell at htop
    obtain ⟨hhead, hmem, -⟩ := List.find?_range_eq_some.mp htop
    simpa using hno c (List.mem_range.mp hmem) (by simpa using hhead)

theorem Lot.hasHold_iff {l : Lot} {r : HoldReason} : l.hasHold r = true ↔ ∃ e ∈ l.holds, e.reason = r := by simp [Lot.hasHold]

theorem State.releaseCheck_ok {h : Nat} {l : Lot} {reason : HoldReason} {d : Disposition} (hno : s.noStopPending h)
    (hentry : ∃ e ∈ l.holds, e.reason = reason) (hfamily : reason ≠ .family)
    (hrework : d = .rework → vget l.reworked false l.step = false) : s.releaseCheck h l reason d = .ok := by
  unfold State.releaseCheck
  rw [State.stopPending_of_none hno, Lot.hasHold_eq_true hentry, if_neg Bool.false_ne_true, if_neg (by simp), if_neg hfamily,
    if_neg]
  rintro ⟨rfl, hdone⟩
  exact nomatch (hrework rfl).symm.trans hdone

/-- The three dispositions of a RELEASE are one request (R140). -/
theorem exec_release {m : Msg} {tag : Nat} {rest : List Byte} (ha : s.accepts m tag rest) {t : State}
    (htake : takeRelease (reqRef m tag) rest s = t) : exec (.releaseContinue m) s = .next t.settle ∧
      exec (.releaseRework m) s = .next t.settle ∧ exec (.releaseScrap m) s = .next t.settle := by
  have h : request Kind.release m takeRelease s = .next t.settle := (request_of_accepts ha _ _).trans (by rw [htake])
  exact ⟨h, h, h⟩

/-- A RELEASE that fails a check (R140). -/
theorem exec_release_refused {m : Msg} {tag : Nat} {rest : List Byte} {reason : HoldReason} {d : Disposition} {l : Lot}
    {code : ReplyCode} (ha : s.accepts m tag rest) (hread : readRelease rest = some (reason, d)) (hlot : s.namesLot m l)
    (hpass : s.passTaken) (hroom : s.plantRoom 1) (hcheck : s.releaseCheck m.handle.toNat l reason d = code)
      (hcode : code ≠ .ok) :
    exec (.releaseContinue m) s = .next (s.answers Kind.release m tag code .empty) ∧
      exec (.releaseRework m) s = .next (s.answers Kind.release m tag code .empty) ∧
      exec (.releaseScrap m) s = .next (s.answers Kind.release m tag code .empty) := by
  have htake := (takeRelease_found (tag := tag) hread hlot).2 (hcheck ▸ hcode)
  rw [hcheck, State.reply_of_plantRoom hroom] at htake
  have hexec := exec_release ha htake
  rwa [State.settle_of_passTaken (s := s.answers _ _ _ _ _) hpass] at hexec

/-! ### An entry removed, and the lot sent on -/

/-- The entry of a reason removed, and what its disposition makes of the lot (R141, R142, R147). -/
def Lot.disposed (l : Lot) (reason : HoldReason) (effect : Lot → Lot) : Lot :=
  { effect { l with holds := l.holds.filter fun e => e.reason != reason } with mark := true }

theorem State.releaseEntry_of_lot {m : Msg} {l : Lot} (hl : s.lot? m.handle.toNat = some l) (tag : Nat) (reason : HoldReason)
    (effect : Lot → Lot) : s.releaseEntry (reqRef m tag) reason effect =
      (((s.setLot m.handle.toNat (l.disposed reason effect)).event .holdReleased reason.code).leaveHold
        m.handle.toNat).releaseReply (reqRef m tag) := by
  have hmod : (s.removeEntry m.handle.toNat reason).modLot m.handle.toNat (fun l => { effect l with mark := true }) =
      (s.setLot m.handle.toNat (l.disposed reason effect)).event .holdReleased reason.code := by
    have hset := State.lot?_setLot hl { l with holds := l.holds.filter fun e => e.reason != reason }
    have hevent : ∀ (u : State) (k : Lot → Lot), (u.event .holdReleased reason.code).modLot m.handle.toNat k =
        (u.modLot m.handle.toNat k).event .holdReleased reason.code := fun _ _ => rfl
    rw [State.removeEntry, hevent, State.modLot_of_lot hl, State.modLot_of_lot hset, State.setLot_setLot]
    rfl
  exact congrArg (fun u : State => (u.leaveHold m.handle.toNat).releaseReply (reqRef m tag)) hmod

theorem State.dispose_continue {m : Msg} {l : Lot} {e : HoldEntry} {reason : HoldReason} (tag : Nat)
    (hfind : l.holds.find? (fun x => x.reason == reason) = some e) :
    s.dispose (reqRef m tag) l reason .continue_ = s.releaseEntry (reqRef m tag) reason (continueEffect e) := by
  have hhold : l.hold? reason = some e := hfind
  unfold State.dispose
  rw [hhold]

/-- The REPLY of a CONTINUE or REWORK on a live lot (R140). -/
theorem State.releaseReply_of_lot {m : Msg} {tag : Nat} {l : Lot} (hl : s.lot? m.handle.toNat = some l) :
    s.releaseReply (reqRef m tag) = s.reply Kind.release (reqRef m tag) .ok (.release l.state l.holds.length l.target) := by
  have hl' : s.lot? (reqRef m tag).handle = some l := hl
  unfold State.releaseReply
  rw [hl']

/-- A lot with entries left stays as it is (R144). -/
theorem State.leaveHold_of_holds {h : Nat} {l : Lot} (hl : s.lot? h = some l) (hholds : l.holds ≠ []) : s.leaveHold h = s := by
  unfold State.leaveHold
  rw [hl]
  exact if_neg (by simp [hholds])

/-- A HELD lot whose last entry has been removed (R132, R144). -/
theorem State.leaveHold_of_held {h : Nat} {l : Lot} (hl : s.lot? h = some l) (hholds : l.holds = [])
    (hstate : l.state = .held) :
    let u := s.setLot h { l with target := none }
    (l.target = some .resume → s.leaveHold h = s.joins h { l with target := none, state := .waiting, arrival := s.now }) ∧
      (l.target = some .advance → s.leaveHold h = u.passOn h) ∧ (l.target = some .complete → s.leaveHold h = u.complete h) := by
  intro u
  have hdrop : s.dropTarget h = u := State.modLot_of_lot hl _
  have hempty : l.holds.isEmpty = true := by simp [hholds]
  refine ⟨fun htarget => ?_, fun htarget => ?_, fun htarget => ?_⟩
  · simp only [State.leaveHold, hl, hempty, hstate, hdrop, htarget, if_true]
    rw [State.joinQueue_of_lot (State.lot?_setLot hl _), State.joins_setLot]
    rfl
  · simp only [State.leaveHold, hl, hempty, hstate, hdrop, htarget, if_true]
  · simp only [State.leaveHold, hl, hempty, hstate, hdrop, htarget, if_true]

/-- A lot that is not HELD keeps its state and carries no target (R132). -/
theorem State.leaveHold_of_pending {h : Nat} {l : Lot} (hl : s.lot? h = some l) (hholds : l.holds = [])
    (hstate : l.state ≠ .held) :
    s.leaveHold h = s.setLot h { l with target := none } := by
  unfold State.leaveHold
  rw [hl]
  dsimp only
  rw [if_pos (by simp [hholds]), if_neg hstate]
  exact State.modLot_of_lot hl _

/-! ### CONTINUE -/

theorem accepts_iff {t : Trip} : (waivable t || t == .releaseLow) = true ↔
    t = .yieldLow ∨ (∃ b, t = .binHigh b) ∨ t = .binMismatch ∨ t = .releaseLow := by
  cases t <;> simp [waivable]

/-- What CONTINUE makes of a lot (R125, R141, R152). -/
theorem Lot.continuedBy_effect (l : Lot) (e : HoldEntry) (holds : List HoldEntry) : l.continuedBy e
    { continueEffect e { l with holds := holds } with holds := [], target := none, mark := true } := by
  obtain ⟨reason, placed, by_, trips, repeats, note⟩ := e
  have hmem : ∀ t, t ∈ trips.filter (fun t => waivable t || t == .releaseLow) ↔ t ∈ trips ∧
      (t = .yieldLow ∨ (∃ b, t = .binHigh b) ∨ t = .binMismatch ∨ t = .releaseLow) := fun t => by
    rw [List.mem_filter, accepts_iff]
  cases reason with
  | guard =>
    refine ⟨rfl, fun h => absurd rfl h, fun _ => ⟨fun t => ?_, rfl, fun hno => ?_, fun ⟨t, ht, haccepts⟩ => ?_⟩, nofun⟩
    · exact mem_addTrips.trans (or_congr Iff.rfl (hmem t))
    · refine if_pos (List.isEmpty_iff.mpr (List.eq_nil_iff_forall_not_mem.mpr fun t ht => ?_))
      obtain ⟨hin, haccepts⟩ := (hmem t).mp ht
      exact hno t hin haccepts
    · have hne : ¬(trips.filter fun t => waivable t || t == .releaseLow).isEmpty = true := fun hempty =>
        absurd ((hmem t).mpr ⟨ht, haccepts⟩) (by simp [List.isEmpty_iff.mp hempty])
      refine (if_neg hne).trans ?_
      unfold markWaived
      refine List.map_congr_left fun y _ => ?_
      by_cases hy : y.step = l.step <;> simp [hy]
  | quantity => exact ⟨rfl, fun _ h => absurd rfl h, nofun, fun _ => ⟨rfl, rfl⟩⟩
  | site | equipment | engineering | family | interrupted => exact ⟨rfl, fun _ _ => ⟨rfl, rfl⟩, nofun, nofun⟩

/-- The return target after a CONTINUE: a FINAL_LOW entry advances a lot whose step has closed (R141). -/
theorem continueEffect_target (e : HoldEntry) (l : Lot) : (continueEffect e l).target =
    if e.reason = .guard ∧ Trip.finalLow ∈ e.trips ∧ (∃ y ∈ l.summaries, y.step = l.step) then some .advance else l.target := by
  obtain ⟨reason, placed, by_, trips, repeats, note⟩ := e
  have hclosed : l.stepClosed = true ↔ ∃ y ∈ l.summaries, y.step = l.step := by simp [Lot.stepClosed]
  cases reason with
  | guard =>
    simp only [continueEffect, continueGuard, Bool.and_eq_true, hclosed, List.contains_iff_mem, true_and]
  | quantity | site | equipment | engineering | family | interrupted => exact (if_neg (by simp)).symm

theorem continueEffect_holds (e : HoldEntry) (l : Lot) : (continueEffect e l).holds = l.holds ∧
    (continueEffect e l).state = l.state ∧ (continueEffect e l).step = l.step ∧ (continueEffect e l).route = l.route := by
  unfold continueEffect
  split <;> exact ⟨rfl, rfl, rfl, rfl⟩

theorem filter_ne_of_nodup {before after : List HoldEntry} {e : HoldEntry}
    (hnodup : ((before ++ e :: after).map HoldEntry.reason).Nodup) :
    ((before ++ e :: after).filter fun x => x.reason != e.reason) = before ++ after := by
  rw [List.map_append, List.map_cons, List.nodup_middle] at hnodup
  obtain ⟨hnot, -⟩ := List.nodup_cons.mp hnodup
  rw [← List.map_append] at hnot
  have hother : ∀ x ∈ before ++ after, (x.reason != e.reason) = true := fun x hx => by
    simpa using fun he => hnot (List.mem_map.mpr ⟨x, hx, he⟩)
  rw [List.filter_append, List.filter_cons_of_neg (by simp), ← List.filter_append]
  exact List.filter_eq_self.mpr hother

theorem State.releaseLot_dar (h : Nat) : (s.releaseLot h).dar = s.dar := by
  unfold State.releaseLot
  split
  · rfl
  · exact State.notice_dar _ _

theorem State.evaluate_dar (h : Nat) : (s.evaluate h).dar = s.dar := by
  have hplaced : ∀ (b : Bool) (u : State) (n : NewHold), (if b then u.placeQuiet h n else u).dar = u.dar := fun b u n => by
    split
    · exact State.placeQuiet_dar _ h n
    · rfl
  have hguard : ∀ b : Bool, (if b then (s.event .guardTrip (Trip.code .releaseLow)).placeQuiet h
      ⟨.guard, .ygd, [.releaseLow], none⟩ else s).dar = s.dar := fun b => by
    split
    · exact State.placeQuiet_dar (s.event .guardTrip (Trip.code .releaseLow)) h _
    · rfl
  have hheld : ∀ u : State, (u.toHeld h).dar = u.dar := fun _ => rfl
  unfold State.evaluate
  cases s.lot? h with
  | none => rfl
  | some l =>
    dsimp only
    split
    all_goals
      split
      · rw [hheld, hplaced, hguard]
      · split
        · exact State.releaseLot_dar h
        · rfl

theorem State.complete_dar (h : Nat) : (s.complete h).dar = s.dar := by
  unfold State.complete
  dsimp only
  split
  · rfl
  · exact (State.evaluate_dar h).trans (State.notice_dar _ _)

/-- A lot that completes stays live, and no pass is started (R67, R148). -/
theorem State.complete_leaves {h : Nat} {l : Lot} (hl : s.lot? h = some l) :
    (∃ k, (s.complete h).lot? h = some k) ∧ (s.complete h).dar = s.dar ∧ (s.complete h).tst = s.tst := by
  have hmoves := (Moves.refl (C := fun _ => True) (S := True) s).complete h
  have hlive := (hmoves.slot_inst h).2
  rw [hl] at hlive
  exact ⟨Option.isSome_iff_exists.mp hlive, State.complete_dar h, hmoves.base.2.1⟩

/-- A CONTINUE that passes the checks (R140, R141). -/
theorem exec_continue {m : Msg} {tag : Nat} {rest : List Byte} {l : Lot} {e : HoldEntry} (ha : s.accepts m tag rest)
    (hread : readRelease rest = some (e.reason, .continue_)) (hlot : s.namesLot m l) (hno : s.noStopPending m.handle.toNat)
    (hfind : l.holds.find? (fun x => x.reason == e.reason) = some e) (hfamily : e.reason ≠ .family) :
    exec (.releaseContinue m) s = .next
      ((((s.setLot m.handle.toNat (l.disposed e.reason (continueEffect e))).event .holdReleased
      e.reason.code).leaveHold m.handle.toNat).releaseReply (reqRef m tag)).settle := by
  have hentry : ∃ x ∈ l.holds, x.reason = e.reason := ⟨e, List.mem_of_find?_eq_some hfind, rfl⟩
  have htake := (takeRelease_found (tag := tag) hread hlot).1 (State.releaseCheck_ok hno hentry hfamily nofun)
  rw [State.dispose_continue tag hfind, State.releaseEntry_of_lot (State.lot?_of_namesLot hlot)] at htake
  exact (exec_release ha htake).1

/-- The lot that CONTINUE of its only entry sends on (R141, R144). -/
theorem continueSendsOn : Sys2Proof.Claims.continueSendsOn := by
  intro m tag rest l e s ha hread hlot hpass hroom hno hholds hstate hfamily h target last
  have hl : s.lot? h = some l := State.lot?_of_namesLot hlot
  have hh := State.lt_of_lot? hl
  have hexec := exec_continue ha hread hlot hno (by simp [hholds]) hfamily
  obtain ⟨k, hk⟩ : ∃ k, l.disposed e.reason (continueEffect e) = k := ⟨_, rfl⟩
  have hempty : (l.holds.filter fun x => x.reason != e.reason) = [] := by simp [hholds]
  obtain ⟨hkHolds, hkState, hkStep, hkRoute⟩ : k.holds = [] ∧ k.state = .held ∧ k.step = l.step ∧ k.route = l.route := by
    obtain ⟨h1, h2, h3, h4⟩ := continueEffect_holds e { l with holds := l.holds.filter fun x => x.reason != e.reason }
    exact hk ▸ ⟨h1.trans hempty, h2.trans hstate, h3, h4⟩
  have hkTarget : k.target = target := hk ▸ continueEffect_target e _
  refine ⟨{ k with target := none }, ?_, ?_⟩
  · have hcontinued := Lot.continuedBy_effect l e (l.holds.filter fun x => x.reason != e.reason)
    have hsame : { k with target := none } =
      { continueEffect e { l with holds := l.holds.filter fun x => x.reason != e.reason } with
        holds := [], target := none, mark := true } := by
      rw [← hkHolds, ← hk]
      rfl
    rw [hsame]
    exact hcontinued
  · intro rejoins completes
    rw [hk] at hexec
    obtain ⟨u, hu⟩ : ∃ u, (s.setLot h k).event .holdReleased e.reason.code = u := ⟨_, rfl⟩
    have hulot : u.lot? h = some k := hu ▸ State.lot?_setLot hl k
    obtain ⟨hresume, hadvance, hcomplete⟩ := State.leaveHold_of_held hulot hkHolds hkState
    have hset : u.setLot h { k with target := none } = (s.setLot h { k with target := none }).event .holdReleased
      e.reason.code := by
      rw [← hu]
      exact congrArg (fun v : State => v.event .holdReleased e.reason.code) (State.setLot_setLot ..)
    have hrejoins : ∀ k' : Lot, k'.state = .waiting → k'.holds = [] → k'.target = none →
        u.leaveHold h = (s.joins h k').event .holdReleased e.reason.code → rejoins k' := fun k' hs hn ht hleave => by
      have hback : ((s.joins h k').event .holdReleased e.reason.code).lot? h = some k' := State.lot?_setLot hl k'
      refine hexec.trans ?_
      rw [hu, hleave, State.releaseReply_of_lot hback, State.reply_of_plantRoom (by exact hroom), hs, hn, ht]
      rfl
    have hcompletes : u.leaveHold h = ((s.setLot h { k with target := none }).event .holdReleased e.reason.code).complete h →
        completes := fun hleave => by
      have hlive : ((s.setLot h { k with target := none }).event .holdReleased e.reason.code).lot? h =
        some { k with target := none } := State.lot?_setLot hl _
      obtain ⟨⟨k', hk'⟩, hdar, htst⟩ := State.complete_leaves hlive
      refine ⟨_, k', rfl, hk', hexec.trans ?_⟩
      rw [hu, hleave, State.releaseReply_of_lot hk', State.settle_of_passTaken]
      · refine congrArg (fun f => Host.Outcome.next (State.enqueue _ .plant f)) ?_
        have htst : _ = s.tst := htst
        simp only [State.replyFrame, htst]
        rfl
      · have hdue : (((s.setLot h { k with target := none }).event .holdReleased e.reason.code).complete h).dar.passDue =
        false := by
          rw [hdar]
          exact Bool.eq_false_iff.mpr (by simpa [State.passTaken] using hpass)
        simpa [State.passTaken, State.reply] using hdue
    have hpassOn : (u.setLot h { k with target := none }).passOn h = if l.step + 1 < s.stepCount l.route then
        (u.setLot h { k with target := none }).advance h else (u.setLot h { k with target := none }).complete h := by
      unfold State.passOn
      rw [State.lot?_setLot hulot]
      dsimp only
      rw [State.stepCount_congr (s := s) (by rw [hset]; rfl)]
      exact if_congr (by rw [hkStep, hkRoute]) rfl rfl
    refine ⟨fun htarget => ?_, fun htarget hlast => ?_, fun htarget hlast => ?_, fun htarget => ?_⟩
    · refine hrejoins _ rfl hkHolds rfl ((hresume (hkTarget.trans htarget)).trans ?_)
      rw [← hu]
      exact congrArg (fun v : State => v.event .holdReleased e.reason.code) (State.joins_setLot h k _)
    · refine hrejoins _ rfl hkHolds rfl ((hadvance (hkTarget.trans htarget)).trans ?_)
      rw [hpassOn, if_pos (Nat.not_le.mp hlast), State.advance_of_lot (s := s) (State.lot?_setLot hulot _) (by rw [hset]; rfl)
        (by rw [hset]; rfl), State.joins_setLot, ← hu]
      exact congrArg (fun v : State => v.event .holdReleased e.reason.code) (State.joins_setLot h k _)
    · refine hcompletes ((hadvance (hkTarget.trans htarget)).trans ?_)
      rw [hpassOn, if_neg (Nat.not_lt.mpr hlast), hset]
    · refine hcompletes ((hcomplete (hkTarget.trans htarget)).trans ?_)
      rw [hset]

/-- Settles O57. -/
theorem releaseDisposesOfEntry : Obligations.ReleaseDisposesOfEntry := by
  refine ⟨continueSendsOn, ?_⟩
  intro m tag rest reason d l s ha hread hlot hpass hroom h refuses
  have hl : s.lot? h = some l := State.lot?_of_namesLot hlot
  have hrefuses : ∀ code, s.releaseCheck h l reason d = code → code ≠ .ok → refuses code := fun code hcheck hcode =>
    exec_release_refused ha hread hlot hpass hroom hcheck hcode
  refine ⟨fun c hc htop hstate hbefore => hrefuses _ ?_ nofun, fun hno hnone => hrefuses _ ?_ nofun,
    fun hno hentry hfamily => hrefuses _ ?_ nofun, fun hno hentry hfamily hd hdone => hrefuses _ ?_ nofun,
    fun before after e hno hholds he hnodup hleft hd hfamily => ?_, fun e hno hholds he hstate hd hfamily hfresh => ?_⟩
  · unfold State.releaseCheck
    rw [State.stopPending_of_stopping (State.cellOfTop_eq_some hc htop hbefore) hstate, if_pos rfl]
  · unfold State.releaseCheck
    rw [State.stopPending_of_none hno, Lot.hasHold_eq_false hnone]
    rfl
  · unfold State.releaseCheck
    rw [State.stopPending_of_none hno, Lot.hasHold_eq_true hentry, if_neg Bool.false_ne_true, if_neg (by simp), if_pos hfamily]
  · unfold State.releaseCheck
    rw [State.stopPending_of_none hno, Lot.hasHold_eq_true hentry, if_neg Bool.false_ne_true, if_neg (by simp), if_neg hfamily,
      if_pos ⟨hd, hdone⟩]
  · subst he hd
    have hfind : l.holds.find? (fun x => x.reason == e.reason) = some e := by
      have hnone : before.find? (fun x => x.reason == e.reason) = none := by
        rw [hholds, List.map_append, List.map_cons] at hnodup
        rw [List.find?_eq_none]
        intro x hx hreason
        exact (List.nodup_append.mp hnodup).2.2 _ (List.mem_map_of_mem hx) _ List.mem_cons_self (by simpa using hreason)
      simp [hholds, List.find?_append, hnone]
    have hexec := exec_continue ha hread hlot hno hfind hfamily
    have hfilter : (l.holds.filter fun x => x.reason != e.reason) = before ++ after := by
      rw [hholds] at hnodup ⊢
      exact filter_ne_of_nodup hnodup
    obtain ⟨hkHolds, hkState, -, -⟩ := continueEffect_holds e { l with holds := l.holds.filter fun x => x.reason != e.reason }
    have hkTarget := continueEffect_target e { l with holds := l.holds.filter fun x => x.reason != e.reason }
    obtain ⟨k, hk⟩ : ∃ k, l.disposed e.reason (continueEffect e) = k := ⟨_, rfl⟩
    have hholds' : k.holds = before ++ after := hk ▸ hkHolds.trans hfilter
    have hstate' : k.state = l.state := hk ▸ hkState
    have hlot' : ((s.setLot h k).event .holdReleased e.reason.code).lot? h = some k := State.lot?_setLot hl k
    refine ⟨k, hk ▸ Lot.continuedBy_effect { l with holds := [e] } e _, hholds', hk ▸ hkTarget, hexec.trans ?_⟩
    rw [hk, State.leaveHold_of_holds hlot' (by rw [hholds']; exact hleft), State.releaseReply_of_lot hlot',
      State.reply_of_plantRoom (by exact hroom), hstate', hholds', State.settle_of_passTaken (by exact hpass)]
  · subst he hd
    intro l'
    have hentry : ∃ x ∈ l.holds, x.reason = e.reason := ⟨e, by simp [hholds], rfl⟩
    have htake := (takeRelease_found (tag := tag) hread hlot).1 (State.releaseCheck_ok hno hentry hfamily fun _ => hfresh)
    have hdispose : s.dispose (reqRef m tag) l e.reason .rework = s.releaseEntry (reqRef m tag) e.reason reworkLot := rfl
    have hempty : (l.holds.filter fun x => x.reason != e.reason) = [] := by simp [hholds]
    obtain ⟨k, hk⟩ : ∃ k, l.disposed e.reason reworkLot = k := ⟨_, rfl⟩
    have hkHolds : k.holds = [] := hk ▸ hempty
    have hlot' : ((s.setLot h k).event .holdReleased e.reason.code).lot? h = some k := State.lot?_setLot hl k
    have hleave := (State.leaveHold_of_held hlot' hkHolds (hk ▸ hstate)).1 (hk ▸ rfl)
    have hback : (((s.setLot h k).event .holdReleased e.reason.code).joins h { k with
        target := none, state := .waiting, arrival := s.now }) = (s.joins h l').event .holdReleased e.reason.code := by
      refine (congrArg (fun v : State => v.event .holdReleased e.reason.code) (State.joins_setLot h k _)).trans ?_
      refine congrArg (fun k : Lot => (s.joins h k).event .holdReleased e.reason.code) ?_
      rw [← hk, Lot.disposed, hempty]
      rfl
    have hleft : ((s.joins h l').event .holdReleased e.reason.code).lot? h = some l' := State.lot?_setLot hl l'
    have hexec := (exec_release ha htake).2.1
    rw [hdispose, State.releaseEntry_of_lot hl, hk] at hexec
    refine hexec.trans ?_
    have hsent := hleave.trans hback
    rw [show ((s.setLot m.handle.toNat k).event .holdReleased e.reason.code).leaveHold m.handle.toNat =
      (s.joins h l').event .holdReleased e.reason.code from hsent, State.releaseReply_of_lot hleft,
      State.reply_of_plantRoom (by exact hroom)]
    rfl

end Sys2Proof.Machine
end

section
/-! A lot that completes, its evaluation and its release (R148 to R157), SCRAP (R143), and SHIP_CONFIRM (R159, R160). -/

namespace Sys2Proof.Machine

set_option Elab.async false

variable {s t : State} {c : Nat}

/-! ### Release evaluation -/

theorem State.leavePending_of_lot {h : Nat} {l : Lot} (hl : s.lot? h = some l) : s.leavePending h =
    ({ s with rlu := ⟨s.rlu.ship, s.rlu.pend.filter fun m => m.handle != h⟩ } : State).setLot h
      { l with relPending := false } := by
  have hmod := State.modLot_of_lot hl fun l => { l with relPending := false }
  unfold State.leavePending State.setLot
  rw [State.setLot] at hmod
  exact congrArg (fun u : State => { u with rlu := ⟨s.rlu.ship, s.rlu.pend.filter fun m => m.handle != h⟩ }) hmod

/-- A lot released with its record and its notice (R157). -/
theorem State.releaseLot_of_lot {h : Nat} {l : Lot} (hl : s.lot? h = some l) (hgo : s.noticesGo) (hroom : s.plantRoom 1) :
    s.releaseLot h = (({ s.setLot h { l with state := .released, relPending := false } with
      rlu := ⟨joinRecord (s.recordOf h l) s.rlu.ship, s.rlu.pend.filter fun m => m.handle != h⟩ } : State).notifies
        (.shipReady (s.recordOf h l))).event .lotReleased l.cumYield := by
  obtain ⟨joined, hjoined⟩ : ∃ u : State, ({ s with rlu := ⟨joinRecord (s.recordOf h l) s.rlu.ship,
    s.rlu.pend.filter fun m => m.handle != h⟩ } : State) = u := ⟨_, rfl⟩
  have hlot : joined.lot? h = some l := hjoined ▸ hl
  have hleft := State.leavePending_of_lot
    (s := { s with rlu := { s.rlu with ship := joinRecord (s.recordOf h l) s.rlu.ship } }) hl
  dsimp only at hleft
  rw [hjoined] at hleft
  have hlots : (joined.setLot h { l with relPending := false }).setLotState h .released =
      joined.setLot h { l with state := .released, relPending := false } := by
    rw [State.setLotState, State.modLot_of_lot (State.lot?_setLot hlot _), State.setLot_setLot]
  unfold State.releaseLot
  rw [hl]
  dsimp only
  rw [hleft, hlots, ← hjoined, State.notice_of_go (by exact hgo) (by exact hroom)]
  rfl

theorem State.joinPending_of_lot {h : Nat} {l : Lot} (hl : s.lot? h = some l) : s.joinPending h l =
    { s.setLot h { l with relPending := true } with
      rlu := ⟨s.rlu.ship, joinPend ⟨h, (s.slot h).inst, l.completion.getD 0⟩ (s.rlu.pend.filter fun m => m.handle != h)⟩ } := by
  obtain ⟨joined, hjoined⟩ : ∃ u : State, ({ s with rlu := ⟨s.rlu.ship, joinPend ⟨h, (s.slot h).inst, l.completion.getD 0⟩
    (s.rlu.pend.filter fun m => m.handle != h)⟩ } : State) = u := ⟨_, rfl⟩
  have hlot : joined.lot? h = some l := hjoined ▸ hl
  have hinst : ((({ s with rlu := ⟨s.rlu.ship, s.rlu.pend.filter fun m => m.handle != h⟩ } : State).setLot h { l with
      relPending := false }).slot h).inst = (s.slot h).inst := State.inst_setLot h h _
  have hset := State.setLot_setLot (s := joined) h { l with relPending := false } { l with relPending := true }
  have hmod := State.modLot_of_lot (State.lot?_setLot hlot { l with relPending := false }) fun l =>
    { l with relPending := true }
  unfold State.joinPending
  dsimp only
  rw [State.leavePending_of_lot hl, hinst]
  refine Eq.trans ?_ ((hmod.trans hset).trans ?_) <;> rw [← hjoined] <;> rfl

/-- The release floor of a lot's route fails the lot (R149). -/
def Lot.releasesLow (l : Lot) (floor : Nat) : Prop := l.shipQty * 1000 < floor * l.qty ∧ Trip.releaseLow ∉ l.acc.waived

/-- A summary of the lot stands unreconciled (R149). -/
def Lot.unreconciled (l : Lot) : Prop := ∃ y ∈ l.summaries, y.reconciled = false

theorem Lot.releasesLow_iff {l : Lot} {floor : Nat} :
    (releaseLow floor l.shipQty l.qty && !l.acc.waived.contains .releaseLow) = true ↔ l.releasesLow floor := by
  simp [releaseLow, Lot.releasesLow]

theorem Lot.unreconciled_iff {l : Lot} : (l.summaries.any fun m => !m.reconciled) = true ↔ l.unreconciled := by
  simp [Lot.unreconciled]

/-- An evaluation that a lot passes (R150, R151, R153). -/
theorem State.evaluate_passes {h : Nat} {l : Lot} {x : Route} (hl : s.lot? h = some l) (hroute : s.route? l.route = some x)
    (hlow : ¬l.releasesLow x.releaseFloor) (hopen : ¬l.unreconciled) :
    s.evaluate h = if s.rlu.ship.length < 64 then s.releaseLot h else s.joinPending h l := by
  have hlow : (releaseLow x.releaseFloor l.shipQty l.qty && !l.acc.waived.contains .releaseLow) = false :=
    Bool.eq_false_iff.mpr fun h => hlow (Lot.releasesLow_iff.mp h)
  have hopen : (l.summaries.any fun m => !m.reconciled) = false := Bool.eq_false_iff.mpr fun h => hopen
    (Lot.unreconciled_iff.mp h)
  unfold State.evaluate
  rw [hl]
  dsimp only
  rw [hroute]
  dsimp only
  rw [hlow, hopen]
  rfl

/-- An evaluation that a lot fails (R149). -/
theorem State.evaluate_fails {h : Nat} {l : Lot} {x : Route} (hl : s.lot? h = some l) (hroute : s.route? l.route = some x)
    {low lost : Bool} (hlow : low = true ↔ l.releasesLow x.releaseFloor) (hlost : lost = true ↔ l.unreconciled)
    (hfails : (low || lost) = true) : s.evaluate h =
      let u := if low then (s.event .guardTrip 9).placeQuiet h ⟨.guard, .ygd, [.releaseLow], none⟩ else s
      (if lost then u.placeQuiet h ⟨.quantity, .ygd, [], none⟩ else u).toHeld h := by
  have hlow : (releaseLow x.releaseFloor l.shipQty l.qty && !l.acc.waived.contains .releaseLow) = low :=
    Bool.eq_iff_iff.mpr (Lot.releasesLow_iff.trans hlow.symm)
  have hlost : (l.summaries.any fun m => !m.reconciled) = lost := Bool.eq_iff_iff.mpr (Lot.unreconciled_iff.trans hlost.symm)
  unfold State.evaluate
  rw [hl]
  dsimp only
  rw [hroute]
  dsimp only
  rw [hlow, hlost, if_pos hfails]
  rfl

/-- A lot of a closed last step told complete, then evaluated (R148, R149). -/
theorem State.complete_of_lot {h : Nat} {l : Lot} (hl : s.lot? h = some l) (hgo : s.noticesGo) (hroom : s.plantRoom 1) :
    let time := l.completion.getD s.now
    s.complete h = ((s.setLot h { l with state := .complete, completion := some time }).notifies
      (.lotComplete (s.named h l) l.route l.qty time l.shipQty l.cumYield)).evaluate h := by
  intro time
  have hinst := State.inst_setLot (s := s) h h { l with state := .complete, completion := some time }
  unfold State.complete
  dsimp only
  rw [State.modLot_of_lot hl, State.lot?_setLot hl]
  dsimp only
  rw [State.notice_of_go (s := s.setLot h _) hgo hroom, State.lotRef, hinst]
  rfl

/-- What becomes of a lot after its last step (R148 to R151, R153, R156, R157). -/
theorem completeEvaluates : Sys2Proof.Claims.completeEvaluates := by
  intro s h l x hl hholds hroute hgo time complete told low openSummary others held guard
  have hh := State.lt_of_lot? hl
  have hcomplete : ∀ n, s.plantRoom (n + 1) → s.complete h = told.evaluate h ∧ told.plantRoom n := fun n hroom =>
    ⟨State.complete_of_lot hl hgo (State.plantRoom_mono hroom (by omega)),
      State.plantRoom_succ (s := { s with pcl := { s.pcl with noticeSeq := (s.pcl.noticeSeq + 1) % 65536 } }) hroom _⟩
  have htoldLot : told.lot? h = some complete := State.lot?_setLot hl complete
  have htoldGo : told.noticesGo := hgo
  have hrecord : told.recordOf h complete = s.recordOf h l := by
    have hinst := State.inst_setLot (s := s) h h complete
    unfold State.recordOf
    rw [show (told.slot h).inst = (s.slot h).inst from hinst]
    rfl
  have hnew : ∀ {r : HoldReason}, ∀ e ∈ complete.holds, e.reason ≠ r := by simp [complete, hholds]
  refine ⟨fun hlow hopen hship hroom => ?_, fun hlow hopen hship hroom => ?_, fun hlow hopen hroom => ?_,
    fun hlow hopen hroom => ?_, fun hlow hopen hroom => ?_⟩
  · obtain ⟨hdone, hroom⟩ := hcomplete 1 hroom
    intro record
    rw [hdone, State.evaluate_passes htoldLot hroute hlow hopen, if_pos (by exact hship),
      State.releaseLot_of_lot htoldLot htoldGo hroom, hrecord]
    rfl
  · obtain ⟨hdone, -⟩ := hcomplete 0 hroom
    have hinst := State.inst_setLot (s := s) h h complete
    rw [hdone, State.evaluate_passes htoldLot hroute hlow hopen, if_neg (by exact Nat.not_lt.mpr hship),
      State.joinPending_of_lot htoldLot, show (told.slot h).inst = (s.slot h).inst from hinst]
    rfl
  · obtain ⟨hdone, hroom⟩ := hcomplete 1 hroom
    have hplaced : (told.event .guardTrip 9).placeQuiet h ⟨.guard, .ygd, [.releaseLow], none⟩ = guard :=
      State.placeQuiet_new (s := told.event .guardTrip 9) htoldLot .ygd [.releaseLow] hnew htoldGo hroom
    have hlot : guard.lot? h = some _ := State.lot?_heldFor_of_lt hh complete .guard .ygd [.releaseLow] .held
    refine ⟨_, hlot, ?_⟩
    rw [hdone, State.evaluate_fails (low := true) (lost := false) htoldLot hroute (iff_of_true rfl hlow)
      (iff_of_false Bool.false_ne_true hopen) rfl]
    dsimp only
    rw [if_pos rfl, if_neg Bool.false_ne_true, hplaced, State.toHeld_of_lot hlot]
    rfl
  · obtain ⟨hdone, hroom⟩ := hcomplete 1 hroom
    intro quantity
    have hplaced : told.placeQuiet h ⟨.quantity, .ygd, [], none⟩ = quantity :=
      State.placeQuiet_new htoldLot .ygd [] hnew htoldGo hroom
    have hlot : quantity.lot? h = some _ := State.lot?_heldFor_of_lt hh complete .quantity .ygd [] .held
    refine ⟨_, hlot, ?_⟩
    rw [hdone, State.evaluate_fails (low := false) (lost := true) htoldLot hroute (iff_of_false Bool.false_ne_true hlow)
      (iff_of_true rfl hopen) rfl]
    dsimp only
    rw [if_neg Bool.false_ne_true, if_pos rfl, hplaced, State.toHeld_of_lot hlot]
    rfl
  · obtain ⟨hdone, hroom⟩ := hcomplete 2 hroom
    have hplaced : (told.event .guardTrip 9).placeQuiet h ⟨.guard, .ygd, [.releaseLow], none⟩ = guard :=
      State.placeQuiet_new (s := told.event .guardTrip 9) htoldLot .ygd [.releaseLow] hnew htoldGo
        (State.plantRoom_mono hroom (by omega))
    have hlot : guard.lot? h = some (complete.heldBy ⟨.guard, s.now, .ygd, [.releaseLow], 1, none⟩) :=
      State.lot?_heldFor_of_lt hh complete .guard .ygd [.releaseLow] .held
    have hguardRoom : guard.plantRoom 1 := State.plantRoom_heldFor (s := told.event .guardTrip 9) hroom
    have hboth : guard.placeQuiet h ⟨.quantity, .ygd, [], none⟩ =
        guard.heldFor h (complete.heldBy ⟨.guard, s.now, .ygd, [.releaseLow], 1, none⟩) .quantity .ygd [] .held :=
      State.placeQuiet_new hlot .ygd [] (by simp [Lot.heldBy, complete, hholds]) htoldGo hguardRoom
    have hbothLot := State.lot?_heldFor_of_lt (s := guard) hh
      (complete.heldBy ⟨.guard, s.now, .ygd, [.releaseLow], 1, none⟩) .quantity
      .ygd [] .held
    refine ⟨_, _, hlot, hbothLot, ?_⟩
    rw [hdone, State.evaluate_fails (low := true) (lost := true) htoldLot hroute (iff_of_true rfl hlow)
      (iff_of_true rfl hopen) rfl]
    dsimp only
    rw [if_pos rfl, if_pos rfl, hplaced, hboth, State.toHeld_of_lot hbothLot]
    rfl

/-! ### SCRAP -/

/-- Every entry of a lot removed with its event (R143, R147). -/
theorem State.foldl_removeEntry {h : Nat} (entries : List HoldEntry) : ∀ {s : State} {l : Lot}, s.lot? h = some l →
    ∃ l' : Lot, l'.route = l.route ∧ entries.foldl (fun (u : State) e => u.removeEntry h e.reason) s =
      (entries.foldl (fun (u : State) e => u.event .holdReleased e.reason.code) s).setLot h l' := by
  induction entries with
  | nil => exact fun {s l} hl => ⟨l, rfl, (State.setLot_self hl).symm⟩
  | cons e entries ih =>
    intro s l hl
    have hset := State.lot?_setLot hl { l with holds := l.holds.filter fun x => x.reason != e.reason }
    have hremove : s.removeEntry h e.reason =
        (s.event .holdReleased e.reason.code).setLot h { l with holds := l.holds.filter fun x => x.reason != e.reason } := by
      rw [State.removeEntry, State.modLot_of_lot hl]
      rfl
    obtain ⟨l', hroute, hfold⟩ := ih (s := (s.event .holdReleased e.reason.code).setLot h { l with
      holds := l.holds.filter fun x => x.reason != e.reason }) hset
    have hevents : ∀ (es : List HoldEntry) (u : State) (k : Lot), es.foldl (fun (u : State) e => u.event .holdReleased
        e.reason.code) (u.setLot h k) = (es.foldl (fun (u : State) e => u.event .holdReleased e.reason.code) u).setLot h k :=
      fun es => by
        induction es with
        | nil => exact fun _ _ => rfl
        | cons e es ih => exact fun u k => ih (u.event .holdReleased e.reason.code) k
    refine ⟨l', hroute, ?_⟩
    rw [List.foldl_cons, List.foldl_cons, hremove, hfold, hevents, State.setLot_setLot]

theorem State.freeSlot_of_lot {h : Nat} {l : Lot} (hl : s.lot? h = some l) : s.freeSlot h = s.slotFreed h l := by
  unfold State.freeSlot
  rw [hl]
  rfl

/-- A slot is freed whatever its lot has become (R10). -/
theorem State.slotFreed_setLot {h : Nat} {l l' : Lot} (hroute : l'.route = l.route) :
    (s.setLot h l').slotFreed h l' = s.slotFreed h l := by
  unfold State.slotFreed State.setLot State.modSlot
  dsimp only
  rw [vmod_vmod, hroute]

theorem State.foldl_released_slotFreed (h : Nat) (l : Lot) (entries : List HoldEntry) : ∀ s : State,
    entries.foldl (fun (u : State) e => u.event .holdReleased e.reason.code) (s.slotFreed h l) =
      (entries.foldl (fun (u : State) e => u.event .holdReleased e.reason.code) s).slotFreed h l := by
  induction entries with
  | nil => exact fun _ => rfl
  | cons e entries ih => exact fun s => ih (s.event .holdReleased e.reason.code)

theorem State.foldl_released_eq (entries : List HoldEntry) : ∀ s : State, ∃ f,
    entries.foldl (fun (u : State) e => u.event .holdReleased e.reason.code) s = { s with fcn := f } := by
  induction entries with
  | nil => exact fun s => ⟨s.fcn, rfl⟩
  | cons e entries ih => exact fun s => ih (s.event .holdReleased e.reason.code)

/-! ### SHIP_CONFIRM -/

theorem exec_confirm {m : Msg} {tag : Nat} {rest : List Byte} {l : Lot} (ha : s.accepts m tag rest) (hrest : rest = [])
    (hlot : s.namesLot m l) : exec (.shipConfirm m) s = .next (if l.state = .released then s.confirm (reqRef m tag)
      else s.reply Kind.shipConfirm (reqRef m tag) .notReleased .empty).settle := by
  have hlookup : s.lookup (reqRef m tag).handle (reqRef m tag).inst = .found l := State.lookup_of_namesLot hlot
  have htake : takeShipConfirm (reqRef m tag) rest s = if l.state = .released then s.confirm (reqRef m tag)
      else s.reply Kind.shipConfirm (reqRef m tag) .notReleased .empty := by
    unfold takeShipConfirm
    rw [show readNothing rest = some () by rw [hrest]; rfl]
    dsimp only
    rw [hlookup]
  exact (request_of_accepts ha _ _).trans (by rw [htake])

/-- A lot's record taken from the ship queue and its slot freed, with the room offered to the pending lots (R159, R160). -/
theorem State.confirm_of_lot {m : Msg} {l : Lot} (hl : s.lot? m.handle.toNat = some l)
    (hinst : (s.slot m.handle.toNat).inst = m.inst.toNat) (tag : Nat) :
    let ship := s.rlu.ship.filter fun r => r.handle != m.handle.toNat
    let freed : State := { s.slotFreed m.handle.toNat l with rlu := ⟨ship, s.rlu.pend⟩ }
    let u := freed.releasePending s.rlu.pend.length
    s.confirm (reqRef m tag) = u.reply Kind.shipConfirm (reqRef m tag) .ok
      (.shipConfirm m.handle.toNat m.inst.toNat (u.rlu.ship.length - ship.length) u.rlu.ship.length) := by
  intro ship freed u
  have hfreed : ({ s with rlu := { s.rlu with ship := ship } } : State).freeSlot m.handle.toNat = freed :=
    State.freeSlot_of_lot (s := { s with rlu := { s.rlu with ship := ship } }) hl
  unfold State.confirm
  dsimp only
  rw [show (s.slot (reqRef m tag).handle).inst = m.inst.toNat from hinst,
    show ({ s with rlu := { s.rlu with ship := s.rlu.ship.filter fun r => r.handle != (reqRef m tag).handle } } :
      State).freeSlot
      (reqRef m tag).handle = freed from hfreed]
  rfl

/-- Settles O58. -/
theorem scrapAndConfirmFreeSlot : Obligations.ScrapAndConfirmFreeSlot := by
  refine ⟨completeEvaluates, ?_⟩
  intro m tag rest l s ha hlot hpass h
  have hl : s.lot? h = some l := State.lot?_of_namesLot hlot
  have hinst : (s.slot h).inst = m.inst.toNat := by rw [hlot.2.2]
  refine ⟨fun reason hread hno hentry hfamily hgo hroom => ?_, fun hrest hstate hroom => ?_,
    fun hrest hstate hpend hroom => ?_, fun p q x hrest hstate hpend hne hq hroute hfloor hreconciled hgo hroom => ?_⟩
  · have htake := (takeRelease_found (tag := tag) hread hlot).1 (State.releaseCheck_ok hno hentry hfamily nofun)
    have hdispose : s.dispose (reqRef m tag) l reason .scrap = s.scrapLot (reqRef m tag) l := rfl
    obtain ⟨l', hsame, hfold⟩ := State.foldl_removeEntry l.holds hl
    obtain ⟨f, hf⟩ := State.foldl_released_eq l.holds s
    rw [hdispose] at htake
    refine ((exec_release ha htake).2.2).trans ?_
    have hscrap : s.scrapLot (reqRef m tag) l = ((l.holds.foldl (fun s e => s.event .holdReleased e.reason.code)
        (s.slotFreed h l)).notifies (.lotScrapped ⟨h, m.inst.toNat, l.name, groupOf h⟩ (s.group (groupOf h)).family l.holds
          l.summaries l.acc)).answers Kind.release m tag .ok (.scrap h m.inst.toNat) := by
      obtain ⟨E, hE⟩ : ∃ E, l.holds.foldl (fun (u : State) e => u.event .holdReleased e.reason.code) s = E := ⟨_, rfl⟩
      have hEs : E = { s with fcn := f } := hE.symm.trans hf
      obtain ⟨b, hb⟩ : ∃ b : NoticeBody, .lotScrapped ⟨h, m.inst.toNat, l.name, groupOf h⟩ (s.group (groupOf h)).family l.holds
        l.summaries l.acc = b := ⟨_, rfl⟩
      have hEgo : E.noticesGo := by rw [hEs]; exact hgo
      have hEroom : E.plantRoom 2 := by rw [hEs]; exact hroom
      have hElot : (E.setLot h l').lot? h = some l' := State.lot?_setLot_of_lt (State.lt_of_lot? hl) l'
      have hnotice := State.notice_of_go (s := E.setLot h l') hEgo (State.plantRoom_mono (s := E) hEroom (by omega)) b
      have hfree : ((E.setLot h l').notifies b).freeSlot h = (E.slotFreed h l).notifies b := by
        rw [State.freeSlot_of_lot (s := (E.setLot h l').notifies b) hElot]
        exact congrArg (fun u : State => u.notifies b) (State.slotFreed_setLot hsame)
      have hreply := State.reply_of_plantRoom (s := (E.slotFreed h l).notifies b) (State.plantRoom_succ
        (s := { E with pcl := { E.pcl with noticeSeq := (E.pcl.noticeSeq + 1) % 65536 } }) hEroom _) Kind.release m tag .ok
        (.scrap h m.inst.toNat)
      rw [State.foldl_released_slotFreed, hE, hb, ← hreply, ← hfree, ← hnotice, ← hE, ← hfold, ← hb, ← hinst]
      rfl
    rw [hscrap, State.settle_of_passTaken]
    rw [State.foldl_released_slotFreed, hf]
    exact hpass
  · rw [exec_confirm ha hrest hlot, if_neg hstate, State.reply_of_plantRoom hroom, State.settle_of_passTaken]
    exact hpass
  · intro ship
    have hexec := exec_confirm ha hrest hlot
    rw [if_pos hstate, State.confirm_of_lot hl hinst] at hexec
    dsimp only at hexec
    rw [hpend] at hexec
    obtain ⟨u, hu⟩ : ∃ u : State, ({ s.slotFreed h l with rlu := ⟨ship, []⟩ } : State) = u := ⟨_, rfl⟩
    have hroom' : u.plantRoom 1 := hu ▸ hroom
    have hnone : u.releasePending 0 = u := rfl
    have hships : u.rlu.ship = ship := hu ▸ rfl
    have hpass' : u.passTaken := hu ▸ hpass
    refine hexec.trans ?_
    rw [hu, List.length_nil, hnone, hships, Nat.sub_self, State.reply_of_plantRoom hroom', State.settle_of_passTaken
      (by exact hpass')]
  · intro ship record hship
    have hexec := exec_confirm ha hrest hlot
    rw [if_pos hstate, State.confirm_of_lot hl hinst] at hexec
    dsimp only at hexec
    rw [hpend] at hexec
    obtain ⟨u, hu⟩ : ∃ u : State, ({ s.slotFreed h l with rlu := ⟨ship, [p]⟩ } : State) = u := ⟨_, rfl⟩
    have hslot : (s.slotFreed h l).slot p.handle = s.slot p.handle := vget_vmod_ne _ _ _ hne.symm
    have hulot : u.lot? p.handle = some q := by
      rw [← hu]
      exact (congrArg Slot.lot hslot).trans hq
    have hurecord : u.recordOf p.handle q = record := by
      rw [← hu]
      unfold State.recordOf
      rw [show (({ s.slotFreed h l with rlu := ⟨ship, [p]⟩ } : State).slot p.handle).inst = (s.slot p.handle).inst from
        congrArg Slot.inst hslot]
      rfl
    have huroute : u.route? q.route = some x := hu ▸ hroute
    have hupend : u.rlu.pend = [p] := hu ▸ rfl
    have huship : u.rlu.ship = ship := hu ▸ rfl
    have hreleased : u.releasePending 1 = u.releaseLot p.handle := by
      have hpasses := State.evaluate_passes hulot huroute (fun hlow => hfloor hlow.1)
        fun ⟨y, hy, hopen⟩ => nomatch (hreconciled y hy).symm.trans hopen
      rw [if_pos (by rw [huship]; exact hship)] at hpasses
      have hfits : u.rlu.ship.length < shipCapacity := by rw [huship]; exact hship
      unfold State.releasePending
      rw [hupend]
      dsimp only
      rw [if_pos hfits, hpasses]
      rfl
    have hrelease := State.releaseLot_of_lot hulot (hu ▸ hgo) (State.plantRoom_mono (s := u) (n := 2) (hu ▸ hroom) (by omega))
    rw [hurecord, hupend, huship, show ([p].filter fun m => m.handle != p.handle) = [] by simp] at hrelease
    obtain ⟨v, hv⟩ : ∃ v : State, ((({ u.setLot p.handle { q with state := .released, relPending := false } with
      rlu := ⟨joinRecord record ship, []⟩ } : State).notifies (.shipReady record)).event .lotReleased q.cumYield) = v :=
        ⟨_, rfl⟩
    have hvship : v.rlu.ship.length = ship.length + 1 := hv ▸ Keeps.joinRecord_length record ship
    have hvroom : v.plantRoom 1 := by
      have hroom' : ({ s with pcl := { s.pcl with noticeSeq := (s.pcl.noticeSeq + 1) % 65536 } } : State).plantRoom 2 := hroom
      rw [← hv, ← hu]
      exact State.plantRoom_succ hroom' _
    have hvpass : v.passTaken := by
      rw [← hv, ← hu]
      exact hpass
    refine hexec.trans ?_
    rw [hu, List.length_singleton, hreleased, hrelease, hv, hvship, State.reply_of_plantRoom hvroom,
      State.settle_of_passTaken (by exact hvpass), ← hv, ← hu, Nat.add_sub_cancel_left]
    rfl

end Sys2Proof.Machine
end

section
/-! Work on the lots of a set: what a hold placed or ended does to other lots than its own, for every order of the cells'
runs. The slots outside the set stand, each lot's entries change as a given relation allows, and no cell gains
a run (R51, R131 to R133, R144). -/

namespace Sys2Proof.Machine

set_option Elab.async false

variable {s t u : State} {c : Nat} {P : Lot → Lot → Prop} {H : Nat → Prop}

/-- A relation between a lot before and after that only the entries of its hold list decide, and that entries of other
reasons than FAMILY do not break. -/
structure HoldRel (P : Lot → Lot → Prop) : Prop where
  trans {k l m : Lot} : P k l → P l m → P k m
  same {k l : Lot} (h : l.holds = k.holds) : P k l
  placed {k l : Lot} {n : NewHold} {now : Nat} (hn : n.reason ≠ .family) (h : l.holds = placeEntry k.holds n now) : P k l

/-- From `s` to `t` only lots in `H` have changed, each as `P` allows, and no cell has gained a run. -/
def Works (P : Lot → Lot → Prop) (H : Nat → Prop) (s t : State) : Prop :=
  (∀ k, ¬H k → t.slot k = s.slot k) ∧ (∀ k l, s.lot? k = some l → ∃ l', t.lot? k = some l' ∧ P l l') ∧
    ∀ d, ((t.cell d).stack.map Run.handle).Sublist ((s.cell d).stack.map Run.handle)

namespace Works

theorem refl (hP : HoldRel P) (s : State) : Works P H s s :=
  ⟨fun _ _ => rfl, fun _ l hl => ⟨l, hl, hP.same rfl⟩, fun _ => List.Sublist.refl _⟩

theorem trans (hP : HoldRel P) (h : Works P H s t) (k : Works P H t u) : Works P H s u := by
  obtain ⟨hslots, hlots, hcells⟩ := h
  obtain ⟨kslots, klots, kcells⟩ := k
  refine ⟨fun j hj => (kslots j hj).trans (hslots j hj), fun j l hl => ?_, fun d => (kcells d).trans (hcells d)⟩
  obtain ⟨l', hl', hp⟩ := hlots j l hl
  obtain ⟨l'', hl'', hp'⟩ := klots j l' hl'
  exact ⟨l'', hl'', hP.trans hp hp'⟩

/-- The runs a cell is left with are runs it had. -/
theorem stack (h : Works P H s t) (hH : ∀ r ∈ (s.cell c).stack, H r.handle) : ∀ r ∈ (t.cell c).stack, H r.handle :=
    fun r hr => by
  obtain ⟨q, hq, hhandle⟩ := List.mem_map.mp ((h.2.2 c).subset (List.mem_map_of_mem hr))
  exact hhandle ▸ hH q hq

/-! ### Single changes -/

theorem of_blocks (hP : HoldRel P) (hldr : t.ldr = s.ldr) (hctr : t.ctr = s.ctr) : Works P H s t := by
  have hslot : ∀ k, t.slot k = s.slot k := fun k => by simp only [State.slot, hldr]
  refine ⟨fun k _ => hslot k, fun k l hl => ⟨l, ?_, hP.same rfl⟩, fun d => by rw [State.cell_of_ctr hctr]⟩
  rw [State.lot?, hslot]
  exact hl

theorem modLot {h : Nat} (hP : HoldRel P) (hh : H h) {f : Lot → Lot} (hf : ∀ l, P l (f l)) : Works P H s (s.modLot h f) := by
  refine ⟨fun k hk => State.slot_modLot_ne (fun e : k = h => hk (e.symm ▸ hh)) f, fun k l hl => ?_,
    fun _ => List.Sublist.refl _⟩
  rw [State.lot?, State.slot_modLot]
  split
  · exact ⟨f l, by rw [hl]; rfl, hf l⟩
  · exact ⟨l, hl, hP.same rfl⟩

theorem modCell (hP : HoldRel P) {f : Cell → Cell}
    (hf : ((f (s.cell c)).stack.map Run.handle).Sublist ((s.cell c).stack.map Run.handle)) : Works P H s (s.modCell c f) := by
  refine ⟨fun _ _ => rfl, fun k l hl => ⟨l, hl, hP.same rfl⟩, fun d => ?_⟩
  by_cases hd : d = c
  · subst hd
    by_cases hlt : d < 48
    · rw [State.cell_modCell hlt]
      exact hf
    · have hout : (s.modCell d f).cell d = s.cell d := by
        simp only [State.cell, vget_outside _ _ (Nat.le_of_not_lt hlt)]
      rw [hout]
  · rw [State.cell_modCell_ne hd]

theorem enqueue (hP : HoldRel P) (p : Port) (x : Frame) : Works P H s (s.enqueue p x) := by
  obtain ⟨a, b, h⟩ := State.enqueue_port s p x
  exact h ▸ of_blocks hP rfl rfl

theorem notice (hP : HoldRel P) (b : NoticeBody) : Works P H s (s.notice b) := by
  obtain ⟨x, y, h⟩ := State.notice_port s b
  exact h ▸ of_blocks hP rfl rfl

theorem heldNotice (hP : HoldRel P) (h : Nat) (r : HoldReason) (a : LotState) : Works P H s (s.heldNotice h r a) := by
  obtain ⟨x, y, hs⟩ := State.heldNotice_port s h r a
  exact hs ▸ of_blocks hP rfl rfl

theorem modTop (hP : HoldRel P) {f : Run → Run} (hf : ∀ r, (f r).handle = r.handle := by intro _; rfl) : Works P H s
    (s.modTop c f) := by
  refine modCell hP ?_
  dsimp only
  cases (s.cell c).stack with
  | nil => exact List.Sublist.refl _
  | cons r rest =>
    rw [List.map_cons, List.map_cons, hf]

theorem popTop (hP : HoldRel P) : Works P H s (s.popTop c) :=
  modCell hP ((List.tail_sublist _).map _)

/-- A change of a lot's fields other than its hold list. -/
theorem setLot {h : Nat} {f : Lot → Lot} (hP : HoldRel P) (hh : H h) (hf : ∀ l, (f l).holds = l.holds := by intro _; rfl) :
    Works P H s (s.modLot h f) :=
  modLot hP hh fun l => hP.same (hf l)

/-- A change of a cell's fields other than its runs. -/
theorem setCell {f : Cell → Cell} (hP : HoldRel P) (hf : ∀ x, (f x).stack = x.stack := by intro _; rfl) :
    Works P H s (s.modCell c f) :=
  modCell hP (by rw [hf])

/-! ### Lots sent on -/

theorem addHold {h : Nat} (hP : HoldRel P) (hh : H h) {n : NewHold} (hn : n.reason ≠ .family) : Works P H s (s.addHold h n) :=
  (modLot hP hh fun _ => hP.placed hn rfl).trans hP (of_blocks hP rfl rfl)

theorem placeQuiet {h : Nat} (hP : HoldRel P) (hh : H h) {n : NewHold} (hn : n.reason ≠ .family) : Works P H s
    (s.placeQuiet h n) := by
  unfold State.placeQuiet
  dsimp only
  split
  · exact (addHold hP hh hn).trans hP (heldNotice hP h _ _)
  · exact addHold hP hh hn

theorem leavePending {h : Nat} (hP : HoldRel P) (hh : H h) : Works P H s (s.leavePending h) :=
  (of_blocks (t := { s with rlu := { s.rlu with pend := s.rlu.pend.filter fun m => m.handle != h } }) hP rfl rfl).trans hP
    (setLot hP hh)

theorem toHeld {h : Nat} (hP : HoldRel P) (hh : H h) : Works P H s (s.toHeld h) :=
  (leavePending hP hh).trans hP (setLot hP hh)

theorem joinQueue {h : Nat} (hP : HoldRel P) (hh : H h) (new : Bool) : Works P H s (s.joinQueue h new) := by
  have hwaiting : Works P H s (s.modLot h fun l => { l with
      state := .waiting, arrival := if new then s.now else l.arrival }) := setLot hP hh
  unfold State.joinQueue
  dsimp only
  split
  · exact hwaiting.trans hP (of_blocks hP rfl rfl)
  · exact hwaiting

theorem releaseLot {h : Nat} (hP : HoldRel P) (hh : H h) : Works P H s (s.releaseLot h) := by
  unfold State.releaseLot
  split
  · exact refl hP s
  · rename_i l _
    have hjoined : Works P H s { s with rlu := { s.rlu with ship := joinRecord (s.recordOf h l) s.rlu.ship } } :=
      of_blocks hP rfl rfl
    have hleft := hjoined.trans hP ((leavePending hP hh).trans hP (modLot (h := h) hP hh (f := fun l => { l with
      state := .released }) fun _ => hP.same rfl))
    exact (hleft.trans hP (notice hP _)).trans hP (of_blocks hP rfl rfl)

theorem joinPending {h : Nat} (hP : HoldRel P) (hh : H h) (l : Lot) : Works P H s (s.joinPending h l) := by
  have hjoined : Works P H (s.leavePending h) ({ s.leavePending h with rlu := { (s.leavePending h).rlu with
    pend := joinPend ⟨h, ((s.leavePending h).slot h).inst, l.completion.getD 0⟩ (s.leavePending h).rlu.pend } } : State) :=
    of_blocks hP rfl rfl
  exact ((leavePending hP hh).trans hP hjoined).trans hP (setLot hP hh)

theorem evaluate {h : Nat} (hP : HoldRel P) (hh : H h) : Works P H s (s.evaluate h) := by
  have hplaced : ∀ (b : Bool) (v : State) (n : NewHold), n.reason ≠ .family →
      Works P H v (if b then v.placeQuiet h n else v) :=
    fun b v n hn => by
      split
      · exact placeQuiet hP hh hn
      · exact refl hP v
  have hguard : ∀ b : Bool, Works P H s (if b then (s.event .guardTrip (Trip.code .releaseLow)).placeQuiet h
      ⟨.guard, .ygd, [.releaseLow], none⟩ else s) := fun b => by
    split
    · exact (of_blocks (t := s.event .guardTrip (Trip.code .releaseLow)) hP rfl rfl).trans hP (placeQuiet hP hh (by nofun))
    · exact refl hP s
  unfold State.evaluate
  cases s.lot? h with
  | none => exact refl hP s
  | some l =>
    dsimp only
    split
    all_goals
      split
      · exact ((hguard _).trans hP (hplaced _ _ _ (by nofun))).trans hP (toHeld hP hh)
      · split
        · exact releaseLot hP hh
        · exact joinPending hP hh l

theorem complete {h : Nat} (hP : HoldRel P) (hh : H h) : Works P H s (s.complete h) := by
  unfold State.complete
  dsimp only
  split
  · exact setLot hP hh
  · exact ((setLot hP hh).trans hP (notice hP _)).trans hP (evaluate hP hh)

theorem passOn {h : Nat} (hP : HoldRel P) (hh : H h) : Works P H s (s.passOn h) := by
  unfold State.passOn
  split
  · exact refl hP s
  · split
    · exact (setLot hP hh).trans hP (joinQueue hP hh true)
    · exact complete hP hh

theorem sendLot {h : Nat} (hP : HoldRel P) (hh : H h) (closed new : Bool) : Works P H s (s.sendLot h closed new) := by
  unfold State.sendLot
  split
  · exact toHeld hP hh
  · split
    · exact passOn hP hh
    · exact joinQueue hP hh new

/-! ### Runs leaving a cell -/

theorem closeSegment {h : Nat} (hP : HoldRel P) (hh : H h) (cause : CloseCause) : Works P H s (s.closeSegment c h cause) := by
  have hmark : ∀ v : State, Works P H v (v.modCell c (clearSegMark h)) := fun v => by
    refine modCell hP ?_
    have hsame : ((clearSegMark h (v.cell c)).stack.map Run.handle) = (v.cell c).stack.map Run.handle := by
      unfold clearSegMark
      rw [List.map_map]
      exact List.map_congr_left fun r _ => by dsimp only [Function.comp]; split <;> rfl
    rw [hsame]
  have hclosed : Works P H s ((s.modLot h fun l => { l with segments := closeLast l cause }).modCell c (clearSegMark h)) :=
    (setLot hP hh).trans hP (hmark _)
  unfold State.closeSegment
  dsimp only
  split
  all_goals
    split
    · exact hclosed.trans hP (placeQuiet hP hh (by nofun))
    · exact hclosed

theorem closeIfOpen {r : Run} (hP : HoldRel P) (hh : H r.handle) (cause : CloseCause) : Works P H s
    (s.closeIfOpen c r cause) := by
  unfold State.closeIfOpen
  split
  · exact closeSegment hP hh cause
  · exact refl hP s

theorem stepEndHolds {h : Nat} (hP : HoldRel P) (hh : H h) (low : Bool) (lost : List Trip) :
    Works P H s (s.stepEndHolds h low lost) := by
  have htrips : ∀ ts : List Trip, Works P H s (s.recordTrips h ts) := fun ts => by
    obtain ⟨f, hf⟩ := State.foldl_event_eq (s := s.modAcc h fun a => { a with trips := addTrips a.trips ts }) ts
    refine Works.trans (t := s.modAcc h fun a => { a with trips := addTrips a.trips ts }) hP (setLot hP hh) ?_
    unfold State.recordTrips
    rw [hf]
    exact of_blocks hP rfl rfl
  have hguard : ∀ (v : State), Works P H v (if low then v.addHold h ⟨.guard, .ygd, [.finalLow], none⟩ else v) := fun v => by
    split
    · exact addHold hP hh (by nofun)
    · exact refl hP v
  have hquantity : ∀ (v : State), Works P H v (if lost.isEmpty then v else
      (v.addHold h ⟨.quantity, .ygd, [], none⟩).modAcc h fun a => { a with qtyMark := true }) := fun v => by
    split
    · exact refl hP v
    · exact (addHold hP hh (by nofun)).trans hP (setLot hP hh)
  exact (((htrips _).trans hP (hguard _)).trans hP (hquantity _)).trans hP (setLot hP hh)

theorem stepEnd {h : Nat} (hP : HoldRel P) (hh : H h) : Works P H s (s.stepEnd c h) := by
  have hheld : ∀ (b : Bool) (v : State) (r : HoldReason), Works P H v (if b then v.heldNotice h r .held else v) :=
    fun b v r => by
    split
    · exact heldNotice hP _ _ _
    · exact refl hP v
  have hclose : ∀ v : State, Works P H v (if (v.top? c).any Run.segOpen then v.closeSegment c h .stepEnd else v) := fun v => by
    split
    · exact closeSegment hP hh _
    · exact refl hP v
  have hsummed : ∀ (v : State) (m : Summary), Works P H v (v.modLot h fun l => { l with summaries := l.summaries ++ [m] }) :=
    fun v m => setLot hP hh
  unfold State.stepEnd
  split
  · exact refl hP s
  · dsimp only
    split
    · exact (stepEndHolds hP hh _ _).trans hP (hclose _)
    · exact (((((stepEndHolds hP hh _ _).trans hP (hclose _)).trans hP (hsummed _ _)).trans hP (notice hP _)).trans hP
        (hheld _ _ _)).trans hP (hheld _ _ _)

theorem clearCtx (hP : HoldRel P) : Works P H s (s.clearCtx c) := by
  unfold State.clearCtx
  exact setCell hP

theorem toRetest {h : Nat} (hP : HoldRel P) (hh : H h) : Works P H s (s.toRetest c h) := by
  unfold State.toRetest
  dsimp only
  exact ((setLot hP hh).trans hP (modTop hP)).trans hP (clearCtx hP)

theorem settleStopped (hP : HoldRel P) (hH : ∀ r ∈ (s.cell c).stack, H r.handle) : Works P H s (s.settleStopped c).1 := by
  unfold State.settleStopped
  split
  · exact refl hP s
  · rename_i r htop
    have hh : H r.handle := hH r (List.mem_of_mem_head? htop)
    split
    · exact refl hP s
    · rename_i pass fed _
      have hset : Works P H s ((s.modAcc r.handle fun a => setFed a pass fed).modTop c fun r => { r with stopped := none }) :=
        (setLot hP hh).trans hP (modTop hP)
      dsimp only
      split
      · exact hset
      · split
        · exact hset.trans hP (toRetest hP hh)
        · exact hset.trans hP (stepEnd hP hh)

theorem detachTop (hP : HoldRel P) (hH : ∀ r ∈ (s.cell c).stack, H r.handle) : Works P H s (s.detachTop c) := by
  unfold State.detachTop
  split
  · exact refl hP s
  · rename_i r htop
    have hh : H r.handle := hH r (List.mem_of_mem_head? htop)
    have hclosed : Works P H s (s.closeIfOpen c r .detached) := closeIfOpen hP hh _
    exact ((hclosed.trans hP (settleStopped hP (hclosed.stack hH))).trans hP (popTop hP)).trans hP (sendLot hP hh _ _)

theorem abandonTop (hP : HoldRel P) (hH : ∀ r ∈ (s.cell c).stack, H r.handle) : Works P H s (s.abandonTop c) := by
  unfold State.abandonTop
  split
  · exact refl hP s
  · rename_i r htop
    have hh : H r.handle := hH r (List.mem_of_mem_head? htop)
    exact ((closeIfOpen hP hh _).trans hP (popTop hP)).trans hP (sendLot hP hh _ _)

theorem toIdle (hP : HoldRel P) : Works P H s (s.toIdle c) :=
  (setCell hP).trans hP (of_blocks hP rfl rfl)

theorem abandonSetup (hP : HoldRel P) (hH : ∀ r ∈ (s.cell c).stack, H r.handle) : Works P H s (s.abandonSetup c) := by
  have hfirst : Works P H s (s.abandonTop c) := abandonTop hP hH
  exact (hfirst.trans hP (abandonTop hP (hfirst.stack hH))).trans hP (toIdle hP)

/-! ### A cell's setup and stop -/

theorem order (hP : HoldRel P) (d : Nat) (r : Option Run) (o : Order) : Works P H s (s.order d r o) := enqueue hP _ _

theorem judgeItems (hP : HoldRel P) (r : Run) (standing : Bool) : Works P H s (s.judgeItems c r standing) := by
  have hload : ∀ (v : State) (b : Bool) (x : ProgVals), Works P H v (if b then v.startLoad c r x else v) := fun v b x => by
    split
    · unfold State.startLoad
      dsimp only
      split
      · exact (setCell hP).trans hP (order hP _ _ _)
      · exact setCell hP
    · exact refl hP v
  have hkit : ∀ (v : State) (b : Bool) (x : Nat), Works P H v (if b then v.startKit c r x else v) := fun v b x => by
    split
    · exact (setCell hP).trans hP (order hP _ _ _)
    · exact refl hP v
  have hsoak : ∀ (v : State) (b : Bool) (x : Temp), Works P H v (if b then v.startSoak c r x else v) := fun v b x => by
    split
    · exact (setCell hP).trans hP (order hP _ _ _)
    · exact refl hP v
  exact ((hload _ _ _).trans hP (hkit _ _ _)).trans hP (hsoak _ _ _)

theorem sendStart (hP : HoldRel P) (r : Run) : Works P H s (s.sendStart c r) := by
  unfold State.sendStart
  have hentered : Works P H s (s.modCell c fun x => { x.enter .starting with
    timers := { (x.enter .starting).timers with start := some s.tst.settings.start } }) := setCell hP
  have hsent : ∀ (v : State) (o : Order), Works P H v ((v.modTop c fun r => { r with awaiting := true }).order c (some r) o) :=
    fun v o => (modTop hP).trans hP (order hP _ _ _)
  exact hentered.trans hP (hsent _ _)

theorem checkSetup (hP : HoldRel P) : Works P H s (s.checkSetup c) := by
  unfold State.checkSetup
  split
  · exact refl hP s
  · split
    · dsimp only
      split
      · exact (judgeItems hP _ _).trans hP (sendStart hP _)
      · exact judgeItems hP _ _
    · exact refl hP s

theorem enterSetupN (hP : HoldRel P) (n : Nat) : ∀ {s : State}, (∀ r ∈ (s.cell c).stack, H r.handle) →
    Works P H s (State.enterSetupN n s c) := by
  induction n with
  | zero => exact fun _ => toIdle hP
  | succ n ih =>
    intro s hH
    rw [State.enterSetupN]
    split
    · exact toIdle hP
    · rename_i r htop
      have hh : H r.handle := hH r (List.mem_of_mem_head? htop)
      have hentered : Works P H s ((s.setLotState r.handle .assigned).modCell c fun x => { x.enter .setup with
          items := Items.none
          timers := { (x.enter .setup).timers with load := none, kit := none, soak := none }
          orderCurrent := false }) :=  (setLot hP hh).trans hP (setCell hP)
      have hHentered := hentered.stack hH
      dsimp only
      split
      · have hdetached := hentered.trans hP (detachTop hP hHentered)
        split
        · exact hdetached.trans hP (toIdle hP)
        · exact hdetached.trans hP (ih (hdetached.stack hH))
      · split
        · exact hentered.trans hP (abandonSetup hP hHentered)
        · exact hentered.trans hP ((judgeItems hP _ _).trans hP (checkSetup hP))

theorem afterTop (hP : HoldRel P) (hH : ∀ r ∈ (s.cell c).stack, H r.handle) : Works P H s (s.afterTop c) := by
  unfold State.afterTop
  split
  · exact toIdle hP
  · exact enterSetupN hP 2 hH

theorem requestStop (hP : HoldRel P) (reason : StopReason) : Works P H s (s.requestStop c reason) := by
  unfold State.requestStop
  split
  · exact (setCell hP).trans hP (order hP _ _ _)
  · exact (setCell hP).trans hP (order hP _ _ _)
  · exact (setCell hP).trans hP (order hP _ _ _)
  · exact refl hP s

end Works

end Sys2Proof.Machine
end

section
/-! A FAMILY hold of a group, lot by lot (R133, R137): which lots and slots it leaves. -/

namespace Sys2Proof.Machine

set_option Elab.async false

variable {s t u : State} {c : Nat} {H : Nat → Prop}

/-! ### Entries kept -/

/-- The lot has every reason's entry that it had. -/
def KeepsEntries (k l : Lot) : Prop := ∀ r, k.hasHold r = true → l.hasHold r = true

theorem Lot.hasHold_of_placeEntry {k l : Lot} {n : NewHold} {now : Nat} {r : HoldReason}
    (h : l.holds = placeEntry k.holds n now)
    (hk : k.hasHold r = true) : l.hasHold r = true := by
  rw [Lot.hasHold, List.any_eq_true] at hk ⊢
  obtain ⟨e, he, hreason⟩ := hk
  rw [h]
  unfold placeEntry
  split
  · refine ⟨_, List.mem_map_of_mem he, ?_⟩
    split
    · exact hreason
    · exact hreason
  · exact ⟨e, List.mem_append_left _ he, hreason⟩

theorem Lot.hasHold_placed {k l : Lot} {n : NewHold} {now : Nat} (h : l.holds = placeEntry k.holds n now) :
    l.hasHold n.reason = true := by
  rw [Lot.hasHold, h]
  unfold placeEntry
  split
  · rename_i hany
    obtain ⟨e, he, hreason⟩ := List.any_eq_true.mp hany
    refine List.any_eq_true.mpr ⟨_, List.mem_map_of_mem he, ?_⟩
    rw [if_pos hreason]
    exact hreason
  · simp

theorem keepsEntries : HoldRel KeepsEntries where
  trans hk hl := fun r hr => hl r (hk r hr)
  same h := fun r hr => by rwa [Lot.hasHold, h]
  placed _ h := fun _ hr => Lot.hasHold_of_placeEntry h hr

/-! ### One lot's hold -/

namespace Works

variable {P : Lot → Lot → Prop} {h : Nat}

/-- The lower runs of every cell are runs of lots in the set. -/
def Tails (H : Nat → Prop) (s : State) : Prop := ∀ c, c < 48 → ∀ r ∈ (s.cell c).stack.tail, H r.handle

theorem tails (hw : Works P H s t) (ht : Tails H s) : Tails H t := fun c hc r hr => by
  have htail : ((t.cell c).stack.map Run.handle).tail.Sublist ((s.cell c).stack.map Run.handle).tail := (hw.2.2 c).tail
  rw [← List.map_tail, ← List.map_tail] at htail
  obtain ⟨q, hq, hhandle⟩ := List.mem_map.mp (htail.subset (List.mem_map_of_mem hr))
  exact hhandle ▸ ht c hc q hq

/-- The runs of a cell whose top run is a lot's of the set. -/
theorem Tails.stack (ht : Tails H s) (hh : H h) (htop : s.cellOfTop h = some c) : ∀ r ∈ (s.cell c).stack, H r.handle := by
  unfold State.cellOfTop State.findCell at htop
  have hc : c < 48 := List.mem_range.mp (List.mem_of_find?_eq_some htop)
  have hhead : (s.cell c).stack.head?.map Run.handle = some h := by simpa using List.find?_some htop
  have htail := ht c hc
  cases hstack : (s.cell c).stack with
  | nil => simp
  | cons r rest =>
    rw [hstack] at hhead htail
    obtain rfl : r.handle = h := Option.some.inj hhead
    intro q hq
    rcases List.mem_cons.mp hq with rfl | hq
    · exact hh
    · exact htail q hq

theorem holdInSetup (hP : HoldRel P) (hh : H h) (hH : ∀ r ∈ (s.cell c).stack, H r.handle) : Works P H s
    (s.holdInSetup c h) := by
  unfold State.holdInSetup
  split
  · exact refl hP s
  · rename_i r htop
    have hleft : Works P H s (((s.closeIfOpen c r .hold).popTop c).toHeld h) :=
      ((closeIfOpen hP (hH r (List.mem_of_mem_head? htop)) _).trans hP (popTop hP)).trans hP (toHeld hP hh)
    exact hleft.trans hP (afterTop hP (hleft.stack hH))

theorem dropLower_sublist (h : Nat) (l : List Run) : (dropLower h l).Sublist l := by
  cases l with
  | nil => exact List.Sublist.refl _
  | cons r rest => exact List.filter_sublist.cons_cons r

theorem holdLower (hP : HoldRel P) (hh : H h) : Works P H s (s.holdLower c h) := by
  have hdrop : ∀ v : State, Works P H v
    ((v.modCell c fun x => { x with stack := dropLower h x.stack, ctx := none }).toHeld h) :=
    fun v => (modCell hP ((dropLower_sublist h _).map _)).trans hP (toHeld hP hh)
  unfold State.holdLower
  dsimp only
  split
  · exact (closeSegment hP hh _).trans hP (hdrop _)
  · exact hdrop _

theorem dropIncoming (hP : HoldRel P) : Works P H s (s.dropIncoming c) := by
  unfold State.dropIncoming
  exact setCell hP

theorem holdAssigned (hP : HoldRel P) (hh : H h) (ht : Tails H s) (r : HoldReason) : Works P H s (s.holdAssigned h r) := by
  unfold State.holdAssigned
  split
  · rename_i d htop
    split
    · exact holdInSetup hP hh (ht.stack hh htop)
    · exact requestStop hP _
  · split
    · exact (dropIncoming hP).trans hP (toHeld hP hh)
    · exact refl hP s

theorem holdEffect (hP : HoldRel P) (hh : H h) (ht : Tails H s) (r : HoldReason) : Works P H s (s.holdEffect h r) := by
  have hleft : Works P H s (s.leaveQueue h) := of_blocks hP rfl rfl
  unfold State.holdEffect
  split
  · exact refl hP s
  · split
    case h_1 => exact hleft.trans hP (toHeld hP hh)
    case h_2 => exact holdAssigned hP hh ht r
    case h_3 =>
      split
      · exact requestStop hP _
      · exact refl hP s
    case h_4 =>
      split
      · exact holdLower hP hh
      · exact refl hP s
    case h_5 => exact toHeld hP hh
    all_goals exact refl hP s

/-- A hold taken whole, of any reason: the lot has its entry. -/
theorem placeHold (hh : H h) (ht : Tails H s) (n : NewHold) : Works KeepsEntries H s (s.placeHold h n) ∧
    ∀ l, s.lot? h = some l → ∃ l', (s.placeHold h n).lot? h = some l' ∧ l'.hasHold n.reason = true := by
  have hadded : Works KeepsEntries H s (s.addHold h n) :=
    (modLot keepsEntries hh fun l r hr => Lot.hasHold_of_placeEntry (k := l) rfl hr).trans keepsEntries
      (of_blocks keepsEntries rfl rfl)
  have heffect : ∀ v : State, Works KeepsEntries H s v → Works KeepsEntries H v (v.holdEffect h n.reason) := fun v hv =>
    holdEffect keepsEntries hh (hv.tails ht) _
  have hrest : Works KeepsEntries H (s.addHold h n) (s.placeHold h n) := by
    unfold State.placeHold
    dsimp only
    split
    · have htold := heldNotice (P := KeepsEntries) (H := H) (s := s.addHold h n) keepsEntries h n.reason (s.stateAfterHold h)
      exact htold.trans keepsEntries (heffect _ (hadded.trans keepsEntries htold))
    · exact heffect _ hadded
  refine ⟨hadded.trans keepsEntries hrest, fun l hl => ?_⟩
  obtain ⟨l', hl', hkept⟩ := hrest.2.1 h _ ((congrArg (fun v : State => v.lot? h) (State.addHold_of_lot hl n)).trans
    (State.lot?_setLot hl _))
  exact ⟨l', hl', hkept _ (Lot.hasHold_placed (k := l) rfl)⟩

/-- Work on lots of the set, one after another, each of which it leaves with a property that later work keeps. -/
theorem foldl {f : State → Nat → State} {Q : Lot → Prop} (hP : HoldRel P) (hQ : ∀ {k l}, P k l → Q k → Q l)
    (hstep : ∀ {v : State} {h : Nat}, H h → Works P H s v → Works P H v (f v h) ∧
      ∀ l, v.lot? h = some l → ∃ l', (f v h).lot? h = some l' ∧ Q l') (lots : List Nat) :
    ∀ {v : State}, (∀ k ∈ lots, H k) →
    Works P H s v → Works P H v (lots.foldl f v) ∧ ∀ k ∈ lots, ∀ l, v.lot? k = some l →
      ∃ l', (lots.foldl f v).lot? k = some l' ∧ Q l' := by
  induction lots with
  | nil => exact fun _ _ => ⟨refl hP _, nofun⟩
  | cons h rest ih =>
    intro v hlots hv
    obtain ⟨hone, hleft⟩ := hstep (hlots h List.mem_cons_self) hv
    obtain ⟨hrest, hall⟩ := ih (fun k hk => hlots k (List.mem_cons_of_mem _ hk)) (hv.trans hP hone)
    refine ⟨hone.trans hP hrest, fun k hk l hl => ?_⟩
    rcases List.mem_cons.mp hk with rfl | hk
    · obtain ⟨l', hl', hq⟩ := hleft l hl
      obtain ⟨l'', hl'', hp⟩ := hrest.2.1 k l' hl'
      exact ⟨l'', hl'', hQ hp hq⟩
    · obtain ⟨l', hl', -⟩ := hone.2.1 k l hl
      exact hall k hk l' hl'

/-- Holds of lots of the set, one after another: each live one has its entry. -/
theorem foldl_placeHold (ht : Tails H s) (n : NewHold) {lots : List Nat} (hlots : ∀ k ∈ lots, H k) :
    Works KeepsEntries H s (lots.foldl (fun v k => v.placeHold k n) s) ∧ ∀ k ∈ lots, ∀ l, s.lot? k = some l →
      ∃ l', (lots.foldl (fun v k => v.placeHold k n) s).lot? k = some l' ∧ l'.hasHold n.reason = true :=
  foldl (Q := fun l => l.hasHold n.reason = true) keepsEntries (fun hp hq => hp _ hq)
    (fun hh hv => placeHold hh (hv.tails ht) n) lots hlots (refl keepsEntries s)

end Works

/-! ### What the hold of one lot does (R131 to R133) -/

/-- A FAMILY entry on a lot that has none, up to its effect. -/
theorem State.placeHold_family {h : Nat} {l : Lot} (hl : s.lot? h = some l) (hnone : ∀ e ∈ l.holds, e.reason ≠ .family)
    (hgo : s.noticesGo) (hroom : s.plantRoom 1) : s.placeHold h ⟨.family, .plant, [], none⟩ =
      (s.heldFor h l .family .plant [] (s.stateAfterHold h)).holdEffect h .family := by
  unfold State.placeHold
  dsimp only
  rw [State.isNewHold_of_lot hl, Lot.hasHold_eq_false hnone, Bool.not_false, if_pos rfl]
  exact congrArg (fun v : State => v.holdEffect h .family)
    (State.addHold_heldNotice hl (n := ⟨.family, .plant, [], none⟩) hnone (s.stateAfterHold h) hgo hroom)

theorem familyPlaced : Sys2Proof.Claims.familyPlaced := by
  intro s h l hl hnone hgo hroom placed u isHeld
  have hplace : u = (placed (s.stateAfterHold h)).holdEffect h .family := State.placeHold_family hl hnone hgo hroom
  obtain ⟨e, he⟩ : ∃ e : HoldEntry, (⟨.family, s.now, .plant, [], 1, none⟩ : HoldEntry) = e := ⟨_, rfl⟩
  have hlot : ∀ after, (placed after).lot? h = some (l.heldBy e) := fun after => by
    rw [← he]
    exact State.lot?_heldFor hl _ _ _ _
  have hentry : ∃ e' ∈ (l.heldBy e).holds, e'.reason = .family := ⟨e, by simp [Lot.heldBy], by rw [← he]⟩
  have hstate : (l.heldBy e).state = l.state := rfl
  refine ⟨fun hw => ⟨l.heldBy e, hlot .held, hentry, ?_⟩,
    fun hcomplete => ⟨l.heldBy e, hlot .held, hentry, ?_⟩, fun hheld => ?_,
    fun c reg r below hrunning hc hfits hreg hstack hr hbefore hstate' hfloor => ?_⟩
  · rw [hplace, State.stateAfterHold_held hl (.inl hw), State.holdEffect_waiting (hlot _) (hstate.trans hw)]
    exact State.toHeld_of_lot (s := (placed .held).leaveQueue h) (hlot .held)
  · rw [hplace, State.stateAfterHold_held hl (.inr (.inr hcomplete)),
      State.holdEffect_complete (hlot _) (hstate.trans hcomplete)]
    exact State.toHeld_of_lot (hlot .held)
  · have hafter : s.stateAfterHold h = .held := by simp only [State.stateAfterHold, hl, hheld]
    rw [hplace, hafter, State.holdEffect_held (hlot _) (hstate.trans hheld)]
  · have htop : (placed .running).cellOfTop h = some c :=
      State.cellOfTop_eq_some (s := s) hc (by rw [hstack, ← hr]; rfl) hbefore
    rw [hplace, State.stateAfterHold_running hl hrunning, State.holdEffect_running (hlot _) (hstate.trans hrunning) htop]
    exact State.requestStop_of_room (s := placed .running) (hfits c hc).2 hstate' hreg hstack hfloor _

end Sys2Proof.Machine
end

section
/-! The end of a FAMILY hold, and the requests that hold, release and retire a group (R7, R132, R133, R137 to R139, R144). -/

namespace Sys2Proof.Machine

set_option Elab.async false

variable {s t u : State} {H : Nat → Prop}

/-! ### The end of one lot's FAMILY hold -/

theorem State.removeEntry_of_lot {h : Nat} {l : Lot} (hl : s.lot? h = some l) (r : HoldReason) : s.removeEntry h r =
    (s.setLot h { l with holds := l.holds.filter fun e => e.reason != r }).event .holdReleased r.code :=
  congrArg (fun v : State => v.event .holdReleased r.code) (State.modLot_of_lot hl _)

theorem familyDropped : Sys2Proof.Claims.familyDropped := by
  intro s h l hl left bare dropped u
  have hdropped : ∀ k, (dropped k).lot? h = some k := State.lot?_setLot hl
  have hu : u = (dropped { l with holds := left }).leaveHold h :=
    congrArg (fun v : State => v.leaveHold h) (State.removeEntry_of_lot hl .family)
  have hlot := hdropped { l with holds := left }
  have hset : ∀ k, (dropped { l with holds := left }).setLot h k = dropped k := fun k =>
    congrArg (fun v : State => v.event .holdReleased 5) (State.setLot_setLot ..)
  refine ⟨fun hleft => hu.trans (State.leaveHold_of_holds hlot hleft), fun hleft hstate => ?_, fun hleft hstate => ?_⟩
  · rw [hu, State.leaveHold_of_pending hlot hleft hstate, hset, hleft]
  · obtain ⟨hresume, hadvance, hcomplete⟩ := State.leaveHold_of_held hlot hleft hstate
    have hbare : ({ l with holds := left, target := none } : Lot) = bare := by rw [hleft]
    have hnext : (dropped { l with holds := left }).setLot h { l with holds := left, target := none } = dropped bare :=
      (hset _).trans (by rw [hbare])
    have hjoins : ∀ k k', ((dropped { l with holds := left }).joins h k') = (dropped k).joins h k' := fun k k' => by
      rw [← hset k]
      exact (State.joins_setLot h k k').symm
    have hpassOn : (dropped bare).passOn h = if l.step + 1 < s.stepCount l.route then (dropped bare).advance h else
        (dropped bare).complete h := by
      unfold State.passOn
      rw [hdropped bare]
      rfl
    refine ⟨fun htarget => ?_, fun htarget hmore => ?_, fun htarget hlast => ?_, fun htarget => ?_⟩
    · refine hu.trans ((hresume htarget).trans ?_)
      rw [hjoins bare]
      refine congrArg ((dropped bare).joins h) ?_
      rw [← hbare]
      rfl
    · refine hu.trans ((hadvance htarget).trans ?_)
      rw [hnext, hpassOn, if_pos hmore]
      exact State.advance_of_lot (s := s) (hdropped bare) rfl rfl
    · refine hu.trans ((hadvance htarget).trans ?_)
      rw [hnext, hpassOn, if_neg (Nat.not_lt.mpr hlast)]
    · refine hu.trans ((hcomplete htarget).trans ?_)
      rw [hnext]

/-! ### FAMILY entries that no work brings back -/

/-- A lot without a FAMILY entry stays without one. -/
def KeepsUnheld (k l : Lot) : Prop := k.hasHold .family = false → l.hasHold .family = false

theorem keepsUnheld : HoldRel KeepsUnheld where
  trans hk hl := fun h => hl (hk h)
  same h := fun hk => by rwa [Lot.hasHold, h]
  placed hn h := fun hk => by
    refine Lot.hasHold_eq_false ?_
    rw [h]
    exact reason_ne_placeEntry hn (by simpa [Lot.hasHold] using hk)

namespace Works

/-- The end of a lot's FAMILY hold: no other slot is touched, and the lot has no FAMILY entry. -/
theorem dropFamily {h : Nat} (hh : H h) : Works KeepsUnheld H s (s.dropFamily h) ∧
    ∀ l, s.lot? h = some l → ∃ l', (s.dropFamily h).lot? h = some l' ∧ l'.hasHold .family = false := by
  have hremoved : Works KeepsUnheld H s (s.removeEntry h .family) :=
    (modLot (f := fun l => { l with holds := l.holds.filter fun e => e.reason != .family }) keepsUnheld hh fun l _ => by
      simp [Lot.hasHold]).trans keepsUnheld (of_blocks keepsUnheld rfl rfl)
  have hleft : ∀ v : State, Works KeepsUnheld H v (v.leaveHold h) := fun v => by
    have hdrop : Works KeepsUnheld H v (v.dropTarget h) := setLot keepsUnheld hh
    unfold State.leaveHold
    split
    · exact refl keepsUnheld v
    · split
      · dsimp only
        split
        · split
          · exact hdrop.trans keepsUnheld (passOn keepsUnheld hh)
          · exact hdrop.trans keepsUnheld (complete keepsUnheld hh)
          · exact hdrop.trans keepsUnheld (joinQueue keepsUnheld hh true)
          · exact hdrop.trans keepsUnheld (joinQueue keepsUnheld hh true)
        · exact hdrop
      · exact refl keepsUnheld v
  refine ⟨hremoved.trans keepsUnheld (hleft _), fun l hl => ?_⟩
  obtain ⟨l', hl', hkept⟩ := (hleft (s.removeEntry h .family)).2.1 h _
    ((congrArg (fun v : State => v.lot? h) (State.removeEntry_of_lot hl .family)).trans (State.lot?_setLot hl _))
  exact ⟨l', hl', hkept (by simp [Lot.hasHold])⟩

end Works

/-! ### Group requests -/

theorem State.group_modGroup_self {g : Nat} (hg : g ≤ 31) (f : GroupEntry → GroupEntry) :
    (s.modGroup g f).group g = f (s.group g) :=
  vget_vmod_self _ _ _ (by omega)

theorem State.group_modGroup_ne {g k : Nat} (hk : k ≠ g) (f : GroupEntry → GroupEntry) :
    (s.modGroup g f).group k = s.group k :=
  vget_vmod_ne _ _ _ (Ne.symm hk)

theorem State.modGroup_congr {g : Nat} {f f' : GroupEntry → GroupEntry} (h : f (s.group g) = f' (s.group g)) : s.modGroup g f =
    s.modGroup g f' := by
  unfold State.modGroup
  rw [vmod_congr s.tst.groups GroupEntry.empty h]

theorem State.groupRequest_unknown {m : Msg} {tag g : Nat} {rest : List Byte} (hread : readGroupArg rest = some g)
    (hg : 31 < g ∨ (s.group g).state = .unbound) (kind : Code16) (take : Nat → State → State) :
    s.groupRequest kind (reqRef m tag) rest take = s.reply kind (reqRef m tag) .unknownGroup .empty := by
  unfold State.groupRequest
  rw [hread]
  exact if_pos hg

theorem State.groupRequest_known {m : Msg} {tag g : Nat} {rest : List Byte} (hread : readGroupArg rest = some g) (hg : g ≤ 31)
    (hbound : (s.group g).state ≠ .unbound) (kind : Code16) (take : Nat → State → State) :
    s.groupRequest kind (reqRef m tag) rest take = take g s := by
  unfold State.groupRequest
  rw [hread]
  exact if_neg (by rintro (h | h); exacts [Nat.not_le.mpr h hg, hbound h])

theorem groupHandles_filter_sorted (g : Nat) (p : Nat → Bool) : ((groupHandles g).filter p).Pairwise (· < ·) :=
  (groupHandles_sorted g).filter p

theorem State.mem_holdable {g h : Nat} :
    h ∈ s.holdable g ↔ groupOf h = g ∧ ∃ l, s.lot? h = some l ∧ l.state ≠ .released := by
  unfold State.holdable
  rw [List.mem_filter, mem_groupHandles]
  cases s.lot? h <;> simp

theorem State.mem_familyHeld {g h : Nat} : h ∈ s.familyHeld g ↔ groupOf h = g ∧ ∃ l, s.lot? h = some l ∧
    ∃ e ∈ l.holds, e.reason = .family := by
  unfold State.familyHeld
  rw [List.mem_filter, mem_groupHandles]
  cases s.lot? h <;> simp [Lot.hasHold]

/-- The lots of a group that its release leaves without entries (R138). -/
theorem State.onlyFamily_familyHeld (g : Nat) : s.onlyFamily (s.familyHeld g) =
    (s.familyHeld g).countP fun h => (s.lot? h).all fun l => l.holds.all fun e => e.reason == .family := by
  unfold State.onlyFamily
  refine List.countP_congr fun h hh => ?_
  obtain ⟨-, l, hl, -⟩ := State.mem_familyHeld.mp hh
  rw [hl]
  rfl

/-- A group's directory entry after its lots have been worked on (R3). -/
theorem groups_of_moves {g : Nat} {f : GroupEntry → GroupEntry} (hg : g ≤ 31) (h : (s.modGroup g f).sameBase u) :
    u.group g = f (s.group g) ∧ (∀ k, k ≠ g → u.group k = s.group k) ∧ u.scn = s.scn ∧ u.tbs = s.tbs ∧
      u.pending = s.pending ∧ u.tst.settings = s.tst.settings := by
  obtain ⟨hpending, htst, hscn, htbs, -, -⟩ := h
  have hgroup : ∀ k, u.group k = (s.modGroup g f).group k := fun k => by simp only [State.group, htst]
  exact ⟨(hgroup g).trans (State.group_modGroup_self hg f), fun k hk => (hgroup k).trans (State.group_modGroup_ne hk f), hscn,
    htbs, hpending, by rw [htst]; rfl⟩

theorem State.reply_eq_replyFrame (h : u.tst.settings = s.tst.settings) (kind : Code16) (m : Msg) (tag : Nat) (code : ReplyCode)
    (body : ReplyBody) : u.reply kind (reqRef m tag) code body = u.enqueue .plant (s.replyFrame kind m tag code body) := by
  unfold State.reply State.replyAs State.replyFrame
  rw [h]
  rfl

section

variable {m : Msg} {tag g : Nat} {rest : List Byte}

/-- A GROUP_HOLD of a group that is not HELD (R133, R137). -/
theorem groupHold_holds (ha : s.accepts m tag rest) (hread : readGroupArg rest = some g) (hg : g ≤ 31)
    (hstate : (s.group g).state = .opened ∨ (s.group g).state = .retired) : ∃ (u : State) (lots : List Nat),
      lots.Pairwise (· < ·) ∧ (∀ h, h ∈ lots ↔ groupOf h = g ∧ ∃ l, s.lot? h = some l ∧ l.state ≠ .released) ∧
      u = lots.foldl (fun v h => v.placeHold h ⟨.family, .plant, [], none⟩)
        (s.modGroup g fun x => { x with state := .held, retirePending := decide (x.state = .retired) }) ∧
      Machine.exec (.groupHold m) s =
        .next (u.enqueue .plant (s.replyFrame Kind.groupHold m tag .ok (.groupHold lots.length))).settle ∧
      u.group g = { s.group g with state := .held, retirePending := decide ((s.group g).state = .retired) } ∧
      (∀ k, k ≠ g → u.group k = s.group k) ∧ u.scn = s.scn ∧ u.tbs = s.tbs ∧ u.pending = s.pending ∧
      (∀ h ∈ lots, ∃ l', u.lot? h = some l' ∧ ∃ e ∈ l'.holds, e.reason = .family) ∧
      (∀ k, k ∉ lots → (∀ c, c < 48 → ∀ r ∈ (s.cell c).stack.tail, r.handle ≠ k) → u.slot k = s.slot k) := by
  obtain ⟨v, hv⟩ : ∃ v, s.modGroup g
    (fun x => { x with state := .held, retirePending := decide (x.state = .retired) }) = v :=
    ⟨_, rfl⟩
  have hbound : (s.group g).state ≠ .unbound := by rcases hstate with e | e <;> simp [e]
  have hheld : ¬(s.group g).state = .held := by rcases hstate with e | e <;> simp [e]
  have hmoves := Moves.foldl (C := fun _ => True) (S := True) (fun v h => v.placeHold h ⟨.family, .plant, [], none⟩)
    (fun h hw => hw.placeHold h _) (s.holdable g) (Moves.refl v)
  obtain ⟨hgroup, hothers, hscn, htbs, hpending, hsettings⟩ := groups_of_moves (s := s) hg (by rw [hv]; exact hmoves.base)
  have hldr : v.ldr = s.ldr := hv ▸ rfl
  have hctr : v.ctr = s.ctr := hv ▸ rfl
  have hslot : ∀ k, v.slot k = s.slot k := fun k => by simp only [State.slot, hldr]
  have hlot : ∀ k, v.lot? k = s.lot? k := fun k => by simp only [State.lot?, hslot]
  obtain ⟨hworks, hentries⟩ := Works.foldl_placeHold (s := v)
    (H := fun k => k ∈ s.holdable g ∨ ∃ c, c < 48 ∧ ∃ r ∈ (s.cell c).stack.tail, r.handle = k)
    (fun c hc r hr => .inr ⟨c, hc, r, by rwa [State.cell_of_ctr hctr] at hr, rfl⟩) ⟨.family, .plant, [], none⟩
    (lots := s.holdable g) fun _ => .inl
  refine ⟨_, s.holdable g, groupHandles_filter_sorted g _, fun h => State.mem_holdable, by rw [hv], ?_,
    hgroup, hothers, hscn,
    htbs, hpending, fun h hh => ?_, fun k hk htails => ?_⟩
  · have hexec : exec (.groupHold m) s = .next (takeGroupHold (reqRef m tag) rest s).settle := request_of_accepts ha _ _
    rw [hexec, takeGroupHold, State.groupRequest_known hread hg hbound, if_neg hheld,
      ← State.reply_eq_replyFrame hsettings, ← hv]
    rfl
  · obtain ⟨-, l, hl, -⟩ := State.mem_holdable.mp hh
    obtain ⟨l', hl', hhas⟩ := hentries h hh l ((hlot h).trans hl)
    exact ⟨l', hl', Lot.hasHold_iff.mp hhas⟩
  · refine (hworks.1 k ?_).trans (hslot k)
    rintro (h | ⟨c, hc, r, hr, hhandle⟩)
    exacts [hk h, htails c hc r hr hhandle]

/-- A GROUP_RELEASE of a HELD group (R138, R144). -/
theorem groupRelease_releases (ha : s.accepts m tag rest) (hread : readGroupArg rest = some g) (hg : g ≤ 31)
    (hstate : (s.group g).state = .held) : ∃ (u : State) (lots : List Nat) (emptied : Nat),
      lots.Pairwise (· < ·) ∧
      (∀ h, h ∈ lots ↔ groupOf h = g ∧ ∃ l, s.lot? h = some l ∧ ∃ e ∈ l.holds, e.reason = .family) ∧
      emptied = lots.countP (fun h => (s.lot? h).all fun l => l.holds.all fun e => e.reason == .family) ∧
      u = lots.foldl (fun v h => v.dropFamily h)
        (s.modGroup g fun x => { x with state := if x.retirePending then .retired else .opened, retirePending := false }) ∧
      Machine.exec (.groupRelease m) s =
        .next (u.enqueue .plant (s.replyFrame Kind.groupRelease m tag .ok (.groupRelease lots.length emptied))).settle ∧
      u.group g = { s.group g with
        state := if (s.group g).retirePending then .retired else .opened, retirePending := false } ∧
      (∀ k, k ≠ g → u.group k = s.group k) ∧ u.scn = s.scn ∧ u.tbs = s.tbs ∧ u.pending = s.pending ∧
      (∀ h l, groupOf h = g → u.lot? h = some l → ∀ e ∈ l.holds, e.reason ≠ .family) ∧
      (∀ k, k ∉ lots → u.slot k = s.slot k) := by
  obtain ⟨v, hv⟩ : ∃ v, s.modGroup g (fun x => { x with
    state := if x.retirePending then .retired else .opened, retirePending := false }) = v := ⟨_, rfl⟩
  have hmoves := Moves.foldl (C := fun _ => True) (S := True) (fun v h => v.dropFamily h)
    (fun h hv => (hv.removeEntry h _).leaveHold h)
    (s.familyHeld g) (Moves.refl v)
  obtain ⟨hgroup, hothers, hscn, htbs, hpending, hsettings⟩ := groups_of_moves (s := s) hg (by rw [hv]; exact hmoves.base)
  have hldr : v.ldr = s.ldr := hv ▸ rfl
  have hslot : ∀ k, v.slot k = s.slot k := fun k => by simp only [State.slot, hldr]
  have hlot : ∀ k, v.lot? k = s.lot? k := fun k => by simp only [State.lot?, hslot]
  obtain ⟨hworks, hunheld⟩ := Works.foldl (s := v) (H := (· ∈ s.familyHeld g)) (Q := fun l => l.hasHold .family = false)
    keepsUnheld (fun hp hq => hp hq) (fun hh _ => Works.dropFamily hh) (s.familyHeld g) (fun _ hk => hk)
      (Works.refl keepsUnheld v)
  refine ⟨_, s.familyHeld g, _, groupHandles_filter_sorted g _, fun h => State.mem_familyHeld, rfl, by rw [hv],
    ?_, hgroup, hothers,
    hscn, htbs, hpending, fun h l hh hl => ?_, fun k hk => (hworks.1 k hk).trans (hslot k)⟩
  · have hexec : exec (.groupRelease m) s = .next (takeGroupRelease (reqRef m tag) rest s).settle := request_of_accepts ha _ _
    rw [hexec, takeGroupRelease, State.groupRequest_known hread hg (by simp [hstate]), if_neg (by simp [hstate])]
    dsimp only
    rw [State.onlyFamily_familyHeld, ← State.reply_eq_replyFrame hsettings, ← hv]
  · have hnone : l.hasHold .family = false := by
      by_cases hmem : h ∈ s.familyHeld g
      · obtain ⟨-, k, hk, -⟩ := State.mem_familyHeld.mp hmem
        obtain ⟨l', hl', hhas⟩ := hunheld h hmem k ((hlot h).trans hk)
        rw [hl] at hl'
        exact Option.some.inj hl' ▸ hhas
      · have hsame : s.lot? h = some l := by
          rw [← hl, State.lot?, State.lot?, hworks.1 h hmem, hslot]
        refine Lot.hasHold_eq_false fun e he hreason => hmem (State.mem_familyHeld.mpr ⟨hh, l, hsame, e, he, hreason⟩)
    simpa [Lot.hasHold] using hnone

end

/-- Settles O59. -/
theorem groupRequestsMoveGroup : Obligations.GroupRequestsMoveGroup := by
  refine ⟨familyPlaced, familyDropped, ?_⟩
  intro m tag g rest s ha hread hpass hroom x
  have hreplies : ∀ kind code body, s.reply kind (reqRef m tag) code body = s.answers kind m tag code body :=
    fun kind code body =>
    State.reply_of_plantRoom hroom _ _ _ _ _
  refine ⟨fun hg => ⟨request_eq ha ?_ hpass, request_eq ha ?_ hpass, request_eq ha ?_ hpass⟩,
    fun hg hheld => request_eq ha ?_ hpass,
    fun hg hstate => groupHold_holds ha hread hg hstate, fun hg hstate => request_eq ha ?_ hpass,
    fun hg hheld => groupRelease_releases ha hread hg hheld, fun hg hbound => request_eq ha ?_ hpass⟩
  · exact (State.groupRequest_unknown hread hg _ _).trans (hreplies _ _ _)
  · exact (State.groupRequest_unknown hread hg _ _).trans (hreplies _ _ _)
  · exact (State.groupRequest_unknown hread hg _ _).trans (hreplies _ _ _)
  · rw [takeGroupHold, State.groupRequest_known hread hg (by simp [show (s.group g).state = .held from hheld])]
    exact (if_pos hheld).trans (hreplies _ _ _)
  · have hbound : (s.group g).state ≠ .unbound := by rcases hstate with e | e <;> exact e ▸ nofun
    have hheld : (s.group g).state ≠ .held := by rcases hstate with e | e <;> exact e ▸ nofun
    rw [takeGroupRelease, State.groupRequest_known hread hg hbound]
    exact (if_pos hheld).trans (hreplies _ _ _)
  · rw [takeGroupRetire, State.groupRequest_known hread hg hbound, State.modGroup_congr (f' := fun x => { x with
      state := if x.state = .opened then .retired else x.state
      retirePending := if x.state = .held then true else x.retirePending })]
    · exact State.reply_of_plantRoom (s := s.modGroup g _) hroom _ _ _ _ _
    · unfold retireGroup
      obtain ⟨state, family, authority, retirePending⟩ := s.group g
      cases state <;> rfl

end Sys2Proof.Machine
end

section
/-! The yield guard's figures and kinds: a record counted, the window, and the kinds that trip after it
(R110 to R112, R115, R116). -/

namespace Sys2Proof.Machine

set_option Elab.async false

/-! ### Counting -/

/-- The window takes the class and nothing else of the accumulators changes (R112). -/
theorem pushWindow_eq (a : Acc) (w : Nat) (cls : BinClass) : pushWindow a w cls =
    { a with window := (pushWindow a w cls).window, winPass := (pushWindow a w cls).winPass } := by
  unfold pushWindow
  dsimp only
  split <;> rfl

theorem pushWindow_window {a : Acc} {w : Nat} (cls : BinClass) (hw : 1 ≤ w) (hlen : a.window.length ≤ w) :
    (pushWindow a w cls).window = (a.window ++ [cls]).drop (a.window.length + 1 - w) := by
  have hsame : (pushWindow { a with winPass := a.window.count .pass } w cls).window = (pushWindow a w cls).window := by
    unfold pushWindow
    dsimp only
    split <;> rfl
  exact hsame ▸ (windowKeepsLastClasses { a with winPass := a.window.count .pass } w cls hw hlen rfl).1

/-- The accumulators of a counted first-pass record before its class joins the window (R110 steps 2 to 5). -/
def countFigures (a : Acc) (m : Mapped) (site hard : Nat) (segOpen enabled : Bool) : Acc :=
  { a with
    tested1 := a.tested1 + 1
    good1 := a.good1 + (if m.cls = .pass then 1 else 0)
    retestable1 := a.retestable1 + (if m.cls = .retestable then 1 else 0)
    hardBins := vmod a.hardBins m.hard fun n => n + 1
    mismatch := if m.unmapped || hard != m.hard then min maxMismatch (a.mismatch + 1) else a.mismatch
    unmapped := if m.unmapped then min maxMismatch (a.unmapped + 1) else a.unmapped
    sites := countSites a.sites segOpen enabled m.cls site }

theorem countFirst_eq (a : Acc) (p : Profile) (m : Mapped) (site hard : Nat) (segOpen enabled : Bool) :
    countFirst a p m site hard segOpen enabled = pushWindow (countFigures a m site hard segOpen enabled) p.window m.cls := rfl

/-- One site's statistics after a first-pass record (R109, R110 step 5). -/
theorem countSites_site {v : Vector SiteStat 16} {segOpen enabled : Bool} {cls : BinClass} {site i : Nat} (hi : i < 16) :
    let x := vget v ⟨0, 0, 0, 0⟩ i
    vget (countSites v segOpen enabled cls site) ⟨0, 0, 0, 0⟩ i =
      if segOpen = false ∨ i ≠ site then x
      else if enabled = false then { x with frozen := x.frozen + 1 }
      else if cls = .pass then { x with tested := x.tested + 1, good := x.good + 1, consec := 0 }
      else { x with tested := x.tested + 1, consec := min 15 (x.consec + 1) } := by
  intro x
  unfold countSites
  cases segOpen with
  | false => rfl
  | true =>
    rw [if_pos rfl, vget_vmod]
    by_cases hsite : site = i
    · subst hsite
      refine (if_pos ⟨rfl, hi⟩).trans (Eq.symm ((if_neg (by simp)).trans ?_))
      cases enabled <;> rfl
    · rw [if_neg fun h => hsite h.1, if_pos (.inr (Ne.symm hsite))]

theorem countFirst_counts (a : Acc) (p : Profile) (m : Mapped) (site hard : Nat) (segOpen enabled : Bool) :
    countsFirst a (countFirst a p m site hard segOpen enabled) p m site hard segOpen enabled := by
  rw [countFirst_eq]
  have hpush := pushWindow_eq (countFigures a m site hard segOpen enabled) p.window m.cls
  have hmismatch : (m.unmapped || hard != m.hard) = true ↔ m.unmapped = true ∨ hard ≠ m.hard := by simp
  refine ⟨by rw [hpush]; rfl, by rw [hpush]; rfl, by rw [hpush]; rfl, fun b hb => ?_, by rw [hpush]; rfl, ?_, fun i hi => ?_,
    fun hw hlen => ?_, by rw [hpush]; rfl⟩
  · rw [hpush]
    refine (vget_vmod _ _ _ _ _).trans ?_
    by_cases h : m.hard = b
    · subst h
      rw [if_pos ⟨rfl, hb⟩, if_pos rfl]
    · rw [if_neg fun hb => h hb.1, if_neg (Ne.symm h), Nat.add_zero]
  · rw [hpush]
    exact if_congr hmismatch rfl rfl
  · rw [hpush]
    exact countSites_site hi
  · refine ⟨pushWindow_window (a := countFigures a m site hard segOpen enabled) m.cls hw hlen, fun hpass => ?_⟩
    exact (windowKeepsLastClasses (countFigures a m site hard segOpen enabled) p.window m.cls hw hlen hpass).2.1

theorem countRetest_eq (a : Acc) (m : Mapped) (hard : Nat) : countRetest a m hard = { a with
    tested2 := a.tested2 + 1
    good2 := a.good2 + (if m.cls = .pass then 1 else 0)
    unmapped := if m.unmapped then min 65535 (a.unmapped + 1) else a.unmapped
    mismatch := if m.unmapped = true ∨ hard ≠ m.hard then min 65535 (a.mismatch + 1) else a.mismatch } := by
  have hmismatch : (m.unmapped || hard != m.hard) = true ↔ m.unmapped = true ∨ hard ≠ m.hard := by simp
  have hif : (if (m.unmapped || hard != m.hard) = true then min 65535 (a.mismatch + 1) else a.mismatch) =
    if m.unmapped = true ∨ hard ≠ m.hard then min 65535 (a.mismatch + 1) else a.mismatch := if_congr hmismatch rfl rfl
  unfold countRetest countMismatch maxMismatch
  rw [← hif]

/-! ### Kinds that trip -/

/-- The lot-wide kinds in the order of R115, whether waived or not. -/
def lotWideKinds (p : Profile) (a : Acc) : List Trip :=
  (if p.minSample ≤ a.tested1 ∧ a.good1 * 1000 < p.yieldFloor * a.tested1 then [Trip.yieldLow] else []) ++
    ((List.range 16).filter fun b => p.minSample ≤ a.tested1 ∧
      vget p.ceilings 0 b * a.tested1 < vget a.hardBins 0 b * 1000).map Trip.binHigh ++
    (if a.window.length = p.window ∧ a.winPass * 1000 < p.windowFloor * p.window then [Trip.windowLow] else []) ++
    (if p.mismatchLimit < a.mismatch then [Trip.binMismatch] else [])

theorem lotWideTrips_eq (p : Profile) (a : Acc) :
    lotWideTrips p a = (lotWideKinds p a).filter fun t => !a.waived.contains t := by
  have hhigh : ((List.range 16).filterMap fun b => if p.minSample ≤ a.tested1 ∧
      vget p.ceilings 0 b * a.tested1 < vget a.hardBins 0 b * 1000 then some (Trip.binHigh b) else none) =
      ((List.range 16).filter fun b => p.minSample ≤ a.tested1 ∧
        vget p.ceilings 0 b * a.tested1 < vget a.hardBins 0 b * 1000).map Trip.binHigh := by
    rw [← List.filterMap_eq_map, List.filterMap_filter]
    refine List.filterMap_congr fun b _ => ?_
    simp only [decide_eq_true_eq, Function.comp]
  unfold lotWideTrips lotWideKinds
  simp only [Bool.and_eq_true, decide_eq_true_eq, hhigh]

theorem mem_lotWideTrips {p : Profile} {a : Acc} {t : Trip} : t ∈ lotWideTrips p a ↔ tripsLot p a t := by
  have hkinds : t ∈ lotWideKinds p a ↔
      (t = .yieldLow ∧ p.minSample ≤ a.tested1 ∧ a.good1 * 1000 < p.yieldFloor * a.tested1) ∨
      (∃ b, t = .binHigh b ∧ b < 16 ∧ p.minSample ≤ a.tested1 ∧
        vget p.ceilings 0 b * a.tested1 < vget a.hardBins 0 b * 1000) ∨
      (t = .windowLow ∧ a.window.length = p.window ∧ a.winPass * 1000 < p.windowFloor * p.window) ∨
      (t = .binMismatch ∧ p.mismatchLimit < a.mismatch) := by
    have hone : ∀ (P : Prop) [Decidable P] (k : Trip), t ∈ (if P then [k] else []) ↔ t = k ∧ P := fun P _ k => by
      by_cases hP : P <;> simp [hP]
    have hhigh : t ∈ ((List.range 16).filter fun b => p.minSample ≤ a.tested1 ∧
        vget p.ceilings 0 b * a.tested1 < vget a.hardBins 0 b * 1000).map Trip.binHigh ↔
      ∃ b, t = .binHigh b ∧ b < 16 ∧ p.minSample ≤ a.tested1 ∧
        vget p.ceilings 0 b * a.tested1 < vget a.hardBins 0 b * 1000 := by
      simp only [List.mem_map, List.mem_filter, List.mem_range, decide_eq_true_eq]
      exact ⟨fun ⟨b, ⟨hb, h⟩, he⟩ => ⟨b, he.symm, hb, h⟩, fun ⟨b, he, hb, h⟩ => ⟨b, ⟨hb, h⟩, he.symm⟩⟩
    unfold lotWideKinds
    rw [List.mem_append, List.mem_append, List.mem_append, hone, hone, hone, hhigh, or_assoc, or_assoc]
  rw [lotWideTrips_eq, List.mem_filter, hkinds, and_comm]
  unfold tripsLot
  simp

theorem nodup_lotWideTrips (p : Profile) (a : Acc) : (lotWideTrips p a).Nodup := by
  have hone : ∀ (P : Prop) [Decidable P] (k : Trip), (if P then [k] else []).Nodup := fun P _ k => by split <;> simp
  have hmem : ∀ (P : Prop) [Decidable P] (k x : Trip), x ∈ (if P then [k] else []) → x = k := fun P _ k x hx => by
    split at hx
    · exact List.mem_singleton.mp hx
    · cases hx
  rw [lotWideTrips_eq]
  refine List.Nodup.filter _ ?_
  unfold lotWideKinds
  have hhigh := ((List.nodup_range (n := 16)).filter fun b => decide (p.minSample ≤ a.tested1 ∧
    vget p.ceilings 0 b * a.tested1 < vget a.hardBins 0 b * 1000)).map (f := Trip.binHigh) (fun x y h => Trip.binHigh.inj h)
  refine List.nodup_append.mpr
    ⟨List.nodup_append.mpr ⟨List.nodup_append.mpr ⟨hone _ _, hhigh, ?_⟩, hone _ _, ?_⟩, hone _ _, ?_⟩
  · rintro x hx y hy rfl
    obtain ⟨b, -, hb⟩ := List.mem_map.mp hy
    exact absurd ((hmem _ _ _ hx).symm.trans hb.symm) nofun
  · rintro x hx y hy rfl
    obtain rfl := hmem _ _ _ hy
    rcases List.mem_append.mp hx with hx | hx
    · exact absurd (hmem _ _ _ hx) nofun
    · obtain ⟨b, -, hb⟩ := List.mem_map.mp hx
      exact absurd hb nofun
  · rintro x hx y hy rfl
    obtain rfl := hmem _ _ _ hy
    rcases List.mem_append.mp hx with hx | hx
    · rcases List.mem_append.mp hx with hx | hx
      · exact absurd (hmem _ _ _ hx) nofun
      · obtain ⟨b, -, hb⟩ := List.mem_map.mp hx
        exact absurd hb nofun
    · exact absurd (hmem _ _ _ hx) nofun

theorem skewTrips_iff {p : Profile} {v : Vector SiteStat 16} {site : Nat} : skewTrips p v site = true ↔
    let x := vget v ⟨0, 0, 0, 0⟩ site
    let others := (List.range 16).filter (· ≠ site)
    let testedO := (others.map fun i => (vget v ⟨0, 0, 0, 0⟩ i).tested).sum
    let goodO := (others.map fun i => (vget v ⟨0, 0, 0, 0⟩ i).good).sum
    0 < p.skewLimit ∧ p.skewMin ≤ x.tested ∧ p.skewMin ≤ testedO ∧
      (p.skewLimit : Int) * x.tested * testedO < ((goodO : Int) * x.tested - (x.good : Int) * testedO) * 1000 := by
  simp only [skewTrips, Bool.and_eq_true, decide_eq_true_eq, and_assoc]
  rfl

theorem mem_siteTrips {p : Profile} {a : Acc} {cls : BinClass} {site : Nat} {t : Trip} :
    t ∈ siteTrips p a cls site ↔ tripsSite p a cls site t := by
  have hone : ∀ (b : Bool) (k : Trip), t ∈ (if b = true then [k] else []) ↔ t = k ∧ b = true := fun b k => by
    cases b <;> simp
  unfold siteTrips
  dsimp only
  rw [List.mem_append, hone, hone, Bool.and_eq_true, skewTrips_iff]
  simp only [Bool.and_eq_true, decide_eq_true_eq, bne_iff_ne, ne_eq, Bool.not_eq_true', List.contains_eq_mem,
    decide_eq_false_iff_not]
  unfold tripsSite
  constructor
  · rintro (⟨rfl, hskew, hwaived⟩ | ⟨rfl, ⟨⟨hlimit, hcls⟩, hrun⟩, hwaived⟩)
    · exact ⟨hwaived, .inl ⟨rfl, hskew⟩⟩
    · exact ⟨hwaived, .inr ⟨rfl, hlimit, hcls, hrun⟩⟩
  · rintro ⟨hwaived, ⟨rfl, hskew⟩ | ⟨rfl, hlimit, hcls, hrun⟩⟩
    · exact .inl ⟨rfl, hskew, hwaived⟩
    · exact .inr ⟨rfl, ⟨⟨hlimit, hcls⟩, hrun⟩, hwaived⟩

theorem nodup_siteTrips (p : Profile) (a : Acc) (cls : BinClass) (site : Nat) : (siteTrips p a cls site).Nodup := by
  unfold siteTrips
  dsimp only
  split <;> split <;> simp

/-! ### Sets of sites -/

theorem getLsbD_maskRemove (m : Mask16) (k : Nat) {i : Nat} (hi : i < 16) :
    (maskRemove m k).getLsbD i = (m.getLsbD i && decide (i ≠ k)) := by
  simp [maskRemove, hi, eq_comm]

end Sys2Proof.Machine
end

section
/-! The checks of a bin record, full and compact, and what becomes of one that fails them
(R54, R98, R99, R103 to R105, R204). -/

namespace Sys2Proof.Machine

set_option Elab.async false

variable {s t u : State} {c : Nat}

/-! ### The checks of a record -/

theorem countsIn_iff {st : CellState} : countsIn st = true ↔ st.countsBins := by
  unfold CellState.countsBins
  cases st <;> simp [countsIn]

theorem siteAccepted_iff {site : Nat} : siteAccepted (s.siteCount c) (s.cell c) site = true ↔ s.takesSite c site := by
  simp [siteAccepted, State.takesSite]

theorem Run.passFull_iff {r : Run} {a : Acc} : Machine.passFull a r.pass = true ↔ r.passFull a := by
  unfold Run.passFull
  cases r.pass <;> simp [Machine.passFull]

/-- A record of the top run that passes checks 6 to 9 (R99). -/
theorem State.runChecks_of_takes {k : Ctx} {site : Nat} {r : Run} {l : Lot} (h : s.takesRecord c k site r)
    (hl : s.lot? r.handle = some l) :
    s.runChecks c k site = if Machine.passFull l.acc r.pass then .overcount else .counted := by
  obtain ⟨hcounts, htop, rfl, hsite⟩ := h
  unfold State.runChecks
  rw [show s.top? c = some r from htop]
  simp only [countsIn_iff.mpr hcounts, siteAccepted_iff.mpr hsite, hl, bne_self_eq_false, Bool.not_true, Bool.or_self,
    Bool.false_eq_true, ite_false, ne_eq, not_true]

/-- The checks 6 to 9 of R99 that refuse a record. -/
def Drop.refusesRun (d : Drop) : Prop := d = .notRunning ∨ d = .wrongStep ∨ d = .wrongPass ∨ d = .siteDisabled

theorem State.runChecks_of_refuses {k : Ctx} {site : Nat} {d : Drop} (h : s.refusesRecord c k site d) :
    s.runChecks c k site = d ∧ d.refusesRun := by
  unfold State.runChecks
  rcases h with ⟨rfl, hnot⟩ | ⟨r, ⟨hcounts, htop, hhandle, hinst⟩, hcase⟩
  · refine ⟨?_, .inl rfl⟩
    cases htop : s.top? c with
    | none => rfl
    | some r =>
      refine if_pos ?_
      by_contra hmine
      simp only [Bool.or_eq_true, Bool.not_eq_true', bne_iff_ne, ne_eq, not_or, Bool.not_eq_false, not_not, countsIn_iff]
        at hmine
      obtain ⟨⟨hcounts, hhandle⟩, hinst⟩ := hmine
      exact hnot r ⟨hcounts, htop, hhandle, hinst⟩
  · rw [show s.top? c = some r from htop]
    have hmine : (!countsIn (s.cell c).state || r.handle != k.handle || r.inst != k.inst) = false := by
      simp [countsIn_iff.mpr hcounts, hhandle, hinst]
    dsimp only
    rw [hmine, if_neg Bool.false_ne_true]
    rcases hcase with ⟨rfl, hstep⟩ | ⟨rfl, hstep, hpass⟩ | ⟨rfl, hstep, hpass, hsite⟩
    · exact ⟨if_pos hstep, .inr (.inl rfl)⟩
    · exact ⟨by rw [if_neg (by simpa using hstep), if_pos hpass], .inr (.inr (.inl rfl))⟩
    · have hrefused : (!siteAccepted (s.siteCount c) (s.cell c) site) = true := by
        rw [Bool.not_eq_true', ← Bool.not_eq_true, siteAccepted_iff]
        exact hsite
      exact ⟨by rw [if_neg (by simpa using hstep), if_neg (by simpa using hpass), hrefused, if_pos rfl],
        .inr (.inr (.inr rfl))⟩

/-! ### What an outcome does and says -/

/-- A refused record is counted as dropped, and touches no lot (R100). -/
theorem State.settleRecord_dropped {d : Drop} (hcounted : d ≠ .counted) (hover : d ≠ .overcount) (site soft hard : Nat) :
    s.settleRecord c d site soft hard = s.event .binDropped d.code := by
  unfold State.settleRecord
  split
  · exact absurd rfl hcounted
  · exact absurd rfl hover
  · rfl

theorem State.settleRecord_counted {r : Run} (htop : s.top? c = some r) (site soft hard : Nat) :
    s.settleRecord c .counted site soft hard = s.countRecord c r site soft hard := by
  unfold State.settleRecord
  rw [htop]

theorem State.settleRecord_overcount {r : Run} (htop : s.top? c = some r) (site soft hard : Nat) :
    s.settleRecord c .overcount site soft hard = (s.overcount r.handle).event .binDropped 10 := by
  unfold State.settleRecord
  rw [htop]
  rfl

theorem State.annotation_unmapped {d : Drop} (h : isMapped d = false) (soft : Nat) :
    s.annotation c d soft = unmappedNote d := by
  unfold State.annotation
  rw [h]
  rfl

theorem State.annotation_mapped {d : Drop} {r : Run} (h : isMapped d = true) (htop : s.top? c = some r) (soft : Byte) :
    s.annotation c d soft.toNat = (s.mapped r soft).note d := by
  unfold State.annotation
  rw [h, htop]
  rfl

theorem Drop.refusesRun.ne {d : Drop} (h : d.refusesRun) :
    d ≠ .counted ∧ d ≠ .overcount ∧ d ≠ .unknownCell ∧ d ≠ .malformed := by
  rcases h with rfl | rfl | rfl | rfl <;> exact ⟨nofun, nofun, nofun, nofun⟩

theorem Drop.refusesRun.unmapped {d : Drop} (h : d.refusesRun) (hne : d ≠ .siteDisabled) : isMapped d = false := by
  rcases h with rfl | rfl | rfl | rfl
  · rfl
  · rfl
  · rfl
  · exact absurd rfl hne

/-! ### Frames -/

/-- A bin frame outside STARTING and reset is its owner's (R165). -/
theorem binFrame_takes (h : s.takes) (kind : Code16) (m : Msg) (take : State → State) :
    binFrame kind m take s = .next (take s).settle := by
  have hmode : s.isStarting = false := by simpa [State.isStarting_eq] using h.2
  rw [binFrame, arrival_of_running h.1, hmode]
  rfl

/-- What a frame does and sends on, when it starts no pass and the plant-bound queue has room (R165, R170). -/
def State.sendsOn (s u : State) : Prop := u.passTaken ∧ u.plantRoom 1 ∧ u.tst = s.tst

theorem State.forward_settle (h : s.sendsOn u) (kind : Code16) (m : Msg) (body : List Byte) :
    (u.forward kind m body).settle = u.sendsPlant [forwardedFrame s kind m body] := by
  obtain ⟨hpass, hroom, htst⟩ := h
  rw [State.forward_of_room hroom, State.settle_of_passTaken (by exact hpass)]
  unfold forwardedFrame
  rw [htst]

theorem State.sendsOn.afterBin {r : Option Run} (h : s.sendsOn u) (stream : Byte) : s.sendsOn (u.afterBin c stream r) := by
  unfold State.afterBin
  split
  · exact h
  · split
    · exact h
    · exact h

theorem exec_bin (h : s.takes) {m : Msg} {body : List Byte} (hu : s.sendsOn u)
    (htake : s.takeBin m = u.forward Kind.bin m body) :
    exec (.bin m) s = .next (u.sendsPlant [forwardedFrame s Kind.bin m body]) := by
  have hexec : exec (.bin m) s = .next (s.takeBin m).settle := binFrame_takes h Kind.bin m (State.takeBin · m)
  rw [hexec, htake, State.forward_settle hu]

theorem exec_compact (h : s.takes) {m : Msg} {body : List Byte} (hu : s.sendsOn u)
    (htake : s.takeCompact m = u.forward Kind.binCompact m body) :
    exec (.binCompact m) s = .next (u.sendsPlant [forwardedFrame s Kind.binCompact m body]) := by
  have hexec : exec (.binCompact m) s = .next (s.takeCompact m).settle :=
    binFrame_takes h Kind.binCompact m (State.takeCompact · m)
  rw [hexec, htake, State.forward_settle hu]

/-! ### Full records -/

section

variable {m : Msg} {p site soft hard stream sequence sub : Byte}

theorem readPass_of_le {n : Nat} (h : ¬1 < n) : ∃ pass, readPass n = some pass := by
  obtain rfl | rfl : n = 0 ∨ n = 1 := by omega
  · exact ⟨_, rfl⟩
  · exact ⟨_, rfl⟩

theorem readPass_of_lt {n : Nat} (h : 1 < n) : readPass n = none := by
  unfold readPass
  split
  · omega
  · omega
  · rfl

theorem readBin_of_length {b : List Byte} (h : b.length ≠ 7) : readBin b = none := by
  unfold readBin
  split
  · exact absurd rfl h
  · rfl

theorem readBin_malformed (h : 1 < p.toNat ∨ 15 < site.toNat ∨ 15 < hard.toNat) :
    readBin [p, site, soft, hard, stream, sequence, sub] = none := by
  unfold readBin
  by_cases hp : 1 < p.toNat
  · simp only [readPass_of_lt hp]
  · obtain ⟨pass, hpass⟩ := readPass_of_le hp
    simp only [hpass]
    exact if_neg (by omega)

theorem readBin_some {pass : Pass} (hpass : readPass p.toNat = some pass) (hsite : site.toNat ≤ 15)
    (hhard : hard.toNat ≤ 15) : readBin [p, site, soft, hard, stream, sequence, sub] =
      some ⟨pass, site.toNat, soft.toNat, hard.toNat, stream != 0⟩ := by
  unfold readBin
  simp only [hpass]
  exact if_pos ⟨hsite, hhard⟩

/-- A full record that reads, of an unknown cell or not, by its checks' outcome (R99, R103, R105). -/
theorem State.takeBin_of_read {pass : Pass} {d : Drop} (hbody : m.body = [p, site, soft, hard, stream, sequence, sub])
    (hpass : readPass p.toNat = some pass) (hsite : site.toNat ≤ 15) (hhard : hard.toNat ≤ 15)
    (hd : s.binChecks m ⟨pass, site.toNat, soft.toNat, hard.toNat, stream != 0⟩ = d) : s.takeBin m =
      (if d = .unknownCell then s.settleRecord m.cell.toNat d site.toNat soft.toNat hard.toNat
      else (s.settleRecord m.cell.toNat d site.toNat soft.toNat hard.toNat).stream m
        ⟨pass, site.toNat, soft.toNat, hard.toNat, stream != 0⟩ d).forward Kind.bin m
          ([p, site, soft, hard, stream] ++ s.annotation m.cell.toNat d soft.toNat) := by
  unfold State.takeBin
  rw [hbody, readBin_some hpass hsite hhard]
  dsimp only
  rw [hd]
  rfl

/-- The stream context after a record that is not counted (R103). -/
theorem State.stream_dropped {b : BinBody} {d : Drop} (hb : b.stream = (stream != 0)) (hd : d ≠ .counted) :
    s.stream m b d = s.afterBin m.cell.toNat stream none := by
  unfold State.stream State.afterBin
  rw [hb, if_neg hd]
  refine if_congr ?_ rfl rfl
  simp

/-- The stream context after a counted record of the run it names (R103). -/
theorem State.stream_counted {b : BinBody} {r : Run} (hb : b.stream = (stream != 0)) (hnamed : r.namedBy m)
    (hp : b.pass = r.pass) :
    s.stream m b .counted = s.afterBin m.cell.toNat stream (some r) := by
  obtain ⟨hhandle, hinst, hstep⟩ := hnamed
  unfold State.stream State.afterBin
  rw [hb, if_pos rfl, ← hhandle, ← hinst, ← hstep, hp]
  refine if_congr ?_ rfl rfl
  simp

/-- A full record that its checks refuse before OVERCOUNT (R99, R100, R105). -/
theorem exec_bin_refused (h : s.takes) (htaken : s.passTaken) (hroom : s.plantRoom 1) {pass : Pass} {d : Drop}
    (hbody : m.body = [p, site, soft, hard, stream, sequence, sub]) (hpass : readPass p.toNat = some pass)
    (hsite : site.toNat ≤ 15)
    (hhard : hard.toNat ≤ 15) (hd : s.binChecks m ⟨pass, site.toNat, soft.toNat, hard.toNat, stream != 0⟩ = d)
    (hcounted : d ≠ .counted) (hover : d ≠ .overcount) (hcell : d ≠ .unknownCell) : exec (.bin m) s =
      .next (((s.event .binDropped d.code).afterBin m.cell.toNat stream none).sendsPlant [forwardedFrame s Kind.bin m
        ([p, site, soft, hard, stream] ++ s.annotation m.cell.toNat d soft.toNat)]) := by
  have htake := State.takeBin_of_read hbody hpass hsite hhard hd
  rw [if_neg hcell, State.settleRecord_dropped hcounted hover, State.stream_dropped rfl hcounted] at htake
  have hevent : s.sendsOn (s.event .binDropped d.code) := ⟨htaken, hroom, rfl⟩
  exact exec_bin h (hevent.afterBin stream) htake

theorem State.cellCheck_of_unknown (h : ¬∃ reg, s.knowsCell m reg) : s.cellCheck m = false :=
  Bool.eq_false_iff.mpr (mt State.cellCheck_iff.mp h)

theorem State.binChecks_found {reg : Registration} {l : Lot} (hknows : s.knowsCell m reg) (hlot : s.namesLot m l)
    (b : BinBody) :
    s.binChecks m b = s.runChecks m.cell.toNat ⟨m.handle.toNat, m.inst.toNat, m.step.toNat, b.pass⟩ b.site := by
  unfold State.binChecks
  rw [hknows.check, State.lookup_of_namesLot hlot]
  rfl

theorem State.binChecks_missed {reg : Registration} {d : Drop} (hknows : s.knowsCell m reg) (hmiss : s.missesLot m d)
    (b : BinBody) :
    s.binChecks m b = d ∧ d ≠ .counted ∧ d ≠ .overcount ∧ d ≠ .unknownCell ∧ isMapped d = false := by
  obtain ⟨x, hx, hdrop, hnot, -, -⟩ := State.lookup_of_missesLot hmiss
  have hcheck : s.binChecks m b = d := by
    unfold State.binChecks
    rw [hknows.check, hx]
    cases x with
    | found l => exact absurd rfl (hnot l)
    | _ => exact hdrop
  rcases hmiss with ⟨-, rfl⟩ | ⟨-, rfl⟩ | ⟨-, rfl⟩ <;> exact ⟨hcheck, nofun, nofun, nofun, rfl⟩

end

theorem fullRecordRefused : Sys2Proof.Claims.fullRecordRefused := by
  refine ⟨fun m s h htaken hroom hlen => ?_, fun m p site soft hard stream sequence sub s h htaken hroom hbody => ?_⟩
  · refine exec_bin h (u := s.event .binDropped 1) ⟨htaken, hroom, rfl⟩ ?_
    unfold State.takeBin
    rw [readBin_of_length hlen]
    dsimp only
    rw [if_neg hlen]
    rfl
  refine ⟨fun hbad => ?_, fun pass hpass hsite hhard => ⟨fun hunknown => ?_, fun reg hknows => ⟨fun d hmiss => ?_,
    fun l d hlot hrefuses => ?_⟩⟩⟩
  · refine exec_bin h (u := s.event .binDropped 1) ⟨htaken, hroom, rfl⟩ ?_
    unfold State.takeBin
    rw [hbody, readBin_malformed hbad]
    rfl
  · have hcheck : s.binChecks m ⟨pass, site.toNat, soft.toNat, hard.toNat, stream != 0⟩ = .unknownCell := by
      unfold State.binChecks
      rw [State.cellCheck_of_unknown hunknown]
      rfl
    have htake := State.takeBin_of_read hbody hpass hsite hhard hcheck
    rw [if_pos rfl, State.settleRecord_dropped (by nofun) (by nofun), State.annotation_unmapped rfl] at htake
    exact exec_bin h ⟨htaken, hroom, rfl⟩ htake
  · obtain ⟨hcheck, hcounted, hover, hcell, hmapped⟩ := State.binChecks_missed hknows hmiss
      ⟨pass, site.toNat, soft.toNat, hard.toNat, stream != 0⟩
    exact State.annotation_unmapped (s := s) (c := m.cell.toNat) hmapped soft.toNat ▸
      exec_bin_refused h htaken hroom hbody hpass hsite hhard hcheck hcounted hover hcell
  · obtain ⟨hrun, hrefuses⟩ := State.runChecks_of_refuses hrefuses
    obtain ⟨hcounted, hover, hcell, -⟩ := hrefuses.ne
    have hexec := exec_bin_refused h htaken hroom hbody hpass hsite hhard
      ((State.binChecks_found hknows hlot ⟨pass, site.toNat, soft.toNat, hard.toNat, stream != 0⟩).trans hrun)
      hcounted hover hcell
    refine ⟨fun hne => ?_, fun r hd htop => ?_⟩
    · rw [State.annotation_unmapped (hrefuses.unmapped hne)] at hexec
      exact hexec
    · rw [State.annotation_mapped (by rw [hd]; rfl) htop] at hexec
      exact hexec

end Sys2Proof.Machine
end

section
/-! Compact bin records that fail a check (R103, R104). -/

namespace Sys2Proof.Machine

set_option Elab.async false

variable {s t u : State} {c : Nat}

/-! ### Reading a frame of compact records -/

theorem length_of_readMany {n : Nat} : ∀ {b r : List Byte} {l : List CompactRec}, readMany readCompactRec n b = some (l, r) →
    b.length = 6 * n + r.length := by
  induction n with
  | zero =>
    intro b r l h
    obtain ⟨-, rfl⟩ := Prod.mk.inj (Option.some.inj h)
    omega
  | succ n ih =>
    intro b r l h
    simp only [readMany, Option.bind_eq_bind, Option.bind_eq_some_iff, Prod.exists] at h
    obtain ⟨x, r1, hone, xs, r2, hrest, hsome⟩ := h
    obtain ⟨-, rfl⟩ := Prod.mk.inj (Option.some.inj hsome)
    have hlen := ih hrest
    unfold readCompactRec at hone
    split at hone
    · obtain ⟨-, rfl⟩ := Prod.mk.inj (Option.some.inj hone)
      simp only [List.length_cons]
      omega
    · cases hone

/-- A body whose count or length is bad (R104). -/
theorem readCompact_bad {b : List Byte} (h : ∀ (n : Byte) (records : List Byte), b = n :: records →
    n.toNat = 0 ∨ 16 < n.toNat ∨ records.length ≠ 6 * n.toNat) : readCompact b = none := by
  cases b with
  | nil => rfl
  | cons n records =>
    have hnum : readNum 1 (n :: records) = some (n.toNat, records) := by simp [readNum, bytesNum]
    unfold readCompact
    rw [hnum]
    refine Option.eq_none_iff_forall_ne_some.mpr fun l hl => ?_
    simp only [Option.bind_eq_bind, Option.bind_some, Option.bind_eq_some_iff, Prod.exists] at hl
    obtain ⟨k, hk, l', r, hmany, hend⟩ := hl
    unfold within at hk
    unfold atEnd at hend
    split at hk
    · obtain rfl := Option.some.inj hk
      have hlen := length_of_readMany hmany
      split at hend
      · rename_i hempty
        rw [List.isEmpty_iff.mp hempty] at hlen
        rcases h n records rfl with hn | hn | hn
        · omega
        · omega
        · exact hn (by simpa using hlen)
      · cases hend
    · cases hk

/-! ### Records one after another -/

/-- What a record of a known cell leaves, and the bytes it is forwarded with (R104 steps 3 and 4). -/
theorem State.compactRecords_cons {x : CompactRec} {ended : Bool} {d : Drop} (hd : s.compactCheck c x ended = d)
    (rest : List CompactRec) : s.compactRecords c ended (x :: rest) =
      let u := s.settleRecord c d x.site.toNat x.soft.toNat x.hard.toNat
      let v := if d ≠ .malformed ∧ x.stay = 0 then u.clearCtx c else u
      let w := v.compactRecords c (ended || (decide (d ≠ .malformed ∧ x.stay = 0) && (u.cell c).ctx.isSome)) rest
      (w.1, x.bytes (s.annotation c d x.soft.toNat) ++ w.2) := by
  rw [State.compactRecords, hd]

section

variable {m : Msg} {site soft hard stay sequence sub : Byte}

theorem State.takeCompact_one (hbody : m.body = [1, site, soft, hard, stay, sequence, sub]) (hcheck : s.cellCheck m = true)
    {d : Drop} (hd : s.compactCheck m.cell.toNat ⟨site, soft, hard, stay⟩ false = d) :
    let v := s.settleRecord m.cell.toNat d site.toNat soft.toNat hard.toNat
    s.takeCompact m = (if d ≠ .malformed ∧ stay = 0 then v.clearCtx m.cell.toNat else v).forward Kind.binCompact m
      ([1, site, soft, hard, stay] ++ s.annotation m.cell.toNat d soft.toNat) := by
  intro v
  have hread : readCompact m.body = some [⟨site, soft, hard, stay⟩] := by rw [hbody]; rfl
  unfold State.takeCompact
  rw [hread]
  dsimp only
  rw [hcheck, if_pos rfl, State.compactRecords_cons hd, hbody]
  simp only [State.compactRecords, List.append_nil, CompactRec.bytes]
  rfl

/-- A single compact record that its checks refuse before OVERCOUNT, other than MALFORMED (R99, R104, R105). -/
theorem exec_compact_refused (h : s.takes) (htaken : s.passTaken) (hroom : s.plantRoom 1)
    (hbody : m.body = [1, site, soft, hard, stay, sequence, sub]) (hcheck : s.cellCheck m = true)
    {d : Drop} (hd : s.compactCheck m.cell.toNat ⟨site, soft, hard, stay⟩ false = d) (hcounted : d ≠ .counted)
    (hover : d ≠ .overcount) (hbad : d ≠ .malformed) : exec (.binCompact m) s =
      .next (((s.event .binDropped d.code).afterBin m.cell.toNat stay none).sendsPlant [forwardedFrame s Kind.binCompact m
        ([1, site, soft, hard, stay] ++ s.annotation m.cell.toNat d soft.toNat)]) := by
  have htake := State.takeCompact_one hbody hcheck hd
  rw [State.settleRecord_dropped hcounted hover] at htake
  have hevent : s.sendsOn (s.event .binDropped d.code) := ⟨htaken, hroom, rfl⟩
  refine exec_compact h (hevent.afterBin stay) (htake.trans ?_)
  unfold State.afterBin
  rw [if_congr (and_iff_right hbad) rfl rfl]
  rfl

theorem State.compactCheck_of_ctx {x : CompactRec} {k : Ctx} {ended : Bool} (hsite : x.site.toNat ≤ 15)
    (hhard : x.hard.toNat ≤ 15) (hctx : (s.cell c).ctx = some k) : s.compactCheck c x ended = s.runChecks c k x.site.toNat := by
  unfold State.compactCheck
  rw [if_neg (by omega), hctx]

theorem State.compactCheck_none {x : CompactRec} {ended : Bool} (hsite : x.site.toNat ≤ 15) (hhard : x.hard.toNat ≤ 15)
    (hctx : (s.cell c).ctx = none) : s.compactCheck c x ended = if ended then .afterStreamEnd else .noContext := by
  unfold State.compactCheck
  rw [if_neg (by omega), hctx]

end

/-- A cell without a context has none to clear (R103). -/
theorem State.clearCtx_of_none (hctx : (s.cell c).ctx = none) : s.clearCtx c = s :=
  State.modCell_self (by
    generalize s.cell c = x at hctx
    obtain ⟨⟩ := x
    subst hctx
    rfl)

theorem compactRecordRefused : Sys2Proof.Claims.compactRecordRefused := by
  refine ⟨fun m s h htaken hroom hbad => ?_, fun m site soft hard stay sequence sub s h htaken hroom hbody => ?_,
    fun m reg k d site soft hard q1 q2 site' soft' hard' stay' q3 q4 s h htaken hroom hknows hbody hsite hhard hsite'
      hhard' hctx hrefuses hne => ?_⟩
  · refine exec_compact h (u := s.event .binDropped 1) ⟨htaken, hroom, rfl⟩ ?_
    unfold State.takeCompact
    rw [readCompact_bad hbad]
    rfl
  · have hread : readCompact m.body = some [⟨site, soft, hard, stay⟩] := by rw [hbody]; rfl
    refine ⟨fun hunknown => ?_, fun reg hknows =>
      ⟨fun hbad => ?_, fun hsite hhard => ⟨fun hctx => ?_, fun k d hctx hrefuses => ?_⟩⟩⟩
    · refine exec_compact h (u := s.event .binDropped 2) ⟨htaken, hroom, rfl⟩ ?_
      unfold State.takeCompact
      rw [hread]
      dsimp only
      rw [State.cellCheck_of_unknown hunknown, if_neg Bool.false_ne_true, hbody]
      rfl
    · have hd : s.compactCheck m.cell.toNat ⟨site, soft, hard, stay⟩ false = .malformed := if_pos hbad
      have htake := State.takeCompact_one hbody hknows.check hd
      rw [State.settleRecord_dropped (by nofun) (by nofun), State.annotation_unmapped rfl] at htake
      dsimp only at htake
      rw [if_neg fun hstay => hstay.1 rfl] at htake
      exact exec_compact h ⟨htaken, hroom, rfl⟩ htake
    · have hd : s.compactCheck m.cell.toNat ⟨site, soft, hard, stay⟩ false = .noContext :=
        State.compactCheck_none hsite hhard hctx
      have hexec := exec_compact_refused h htaken hroom hbody hknows.check hd (by nofun) (by nofun) (by nofun)
      have hclear : (s.event .binDropped 11).afterBin m.cell.toNat stay none = s.event .binDropped 11 := by
        unfold State.afterBin
        split
        · exact State.clearCtx_of_none (s := s.event .binDropped 11) hctx
        · rfl
      rw [State.annotation_unmapped rfl, show Drop.code .noContext = 11 from rfl, hclear] at hexec
      exact hexec
    · obtain ⟨hrun, hrefuses⟩ := State.runChecks_of_refuses hrefuses
      obtain ⟨hcounted, hover, -, hbad⟩ := hrefuses.ne
      have hd := (State.compactCheck_of_ctx (x := ⟨site, soft, hard, stay⟩) (ended := false) hsite hhard hctx).trans hrun
      have hexec := exec_compact_refused h htaken hroom hbody hknows.check hd hcounted hover hbad
      refine ⟨fun hne => ?_, fun r hd htop => ?_⟩
      · rw [State.annotation_unmapped (hrefuses.unmapped hne)] at hexec
        exact hexec
      · rw [State.annotation_mapped (by rw [hd]; rfl) htop] at hexec
        exact hexec
  · obtain ⟨hrun, hrefuses⟩ := State.runChecks_of_refuses hrefuses
    obtain ⟨hcounted, hover, -, hbad⟩ := hrefuses.ne
    have hread : readCompact m.body = some [⟨site, soft, hard, 0⟩, ⟨site', soft', hard', stay'⟩] := by rw [hbody]; rfl
    have hd := (State.compactCheck_of_ctx (x := ⟨site, soft, hard, 0⟩) (ended := false) hsite hhard hctx).trans hrun
    obtain ⟨v, hv⟩ : ∃ v, ((s.event .binDropped d.code).modCell m.cell.toNat fun x => { x with
      ctx := none }) = v := ⟨_, rfl⟩
    have hvctx : (v.cell m.cell.toNat).ctx = none := by
      rw [← hv, State.cell_modCell hknows.lt]
    have hd' : v.compactCheck m.cell.toNat ⟨site', soft', hard', stay'⟩ true = .afterStreamEnd :=
      State.compactCheck_none hsite' hhard' hvctx
    have hsends : s.sendsOn (v.event .binDropped 12) := hv ▸ ⟨htaken, hroom, rfl⟩
    have hctx' : ((s.event .binDropped d.code).cell m.cell.toNat).ctx = some k := hctx
    have hclear : (s.event .binDropped d.code).clearCtx m.cell.toNat = v := hv
    have hsecond : (if Drop.afterStreamEnd ≠ .malformed ∧ stay' = 0 then (v.event .binDropped 12).clearCtx m.cell.toNat
        else v.event .binDropped 12) = v.event .binDropped 12 := by
      split
      · exact State.clearCtx_of_none (s := v.event .binDropped 12) hvctx
      · rfl
    rw [hv]
    refine exec_compact h hsends ?_
    unfold State.takeCompact
    rw [hread]
    dsimp only
    rw [hknows.check, if_pos rfl, State.compactRecords_cons hd, State.settleRecord_dropped hcounted hover]
    dsimp only
    rw [if_pos ⟨hbad, rfl⟩, hclear, hctx', Option.isSome_some, decide_eq_true ⟨hbad, rfl⟩, Bool.and_true, Bool.or_true,
      State.compactRecords_cons hd', State.settleRecord_dropped (by nofun) (by nofun),
      State.annotation_unmapped (hrefuses.unmapped hne),
      State.annotation_unmapped rfl]
    dsimp only
    rw [show Drop.code .afterStreamEnd = 12 from rfl, hsecond, hbody]
    simp [State.compactRecords, CompactRec.bytes]

end Sys2Proof.Machine
end

section
/-! Bin records that are counted, with the kinds they trip, and records past the units of their pass
(R55, R100, R101, R110, R111, R115 to R119). -/

namespace Sys2Proof.Machine

set_option Elab.async false

variable {s t u : State} {c : Nat}

/-! ### Kinds told, and holds of the yield guard -/

/-- The counters told of each kind that trips (R117, R198). -/
def State.tripped (s : State) (kinds : List Trip) : State := kinds.foldl (fun u t => u.event .guardTrip t.code) s

theorem State.tripped_eq (kinds : List Trip) : ∃ f, s.tripped kinds = { s with fcn := f } := State.foldl_event_eq kinds

/-- A lot with kinds added to its step's trip set (R117). -/
def Lot.withTrips (l : Lot) (kinds : List Trip) : Lot := { l with acc := { l.acc with trips := addTrips l.acc.trips kinds } }

theorem State.recordTrips_of_lot {h : Nat} {l : Lot} (hl : s.lot? h = some l) (kinds : List Trip) : s.recordTrips h kinds =
    (s.tripped kinds).setLot h (l.withTrips kinds) := by
  unfold State.recordTrips State.modAcc
  rw [State.modLot_of_lot hl]
  exact State.foldl_event_setLot h _ kinds

/-- A cell's run whose stop a hold requests: the top run of a RUNNING lot in STARTING, RUNNING or PAUSED, with room for
STOP_RUN and LOT_HELD (R48, R131, R133). -/
structure State.stopsFor (s : State) (c : Nat) (reg : Registration) (r : Run) (l : Lot) : Prop where
  lt : c < 48
  fits : (s.cell c).fieldsFit
  reg : s.reg? c = some reg
  top : (s.cell c).stack.head? = some r
  first : ∀ d, d < c → (s.cell d).stack.head?.map Run.handle ≠ some r.handle
  state : (s.cell c).state.stops
  running : l.state = .running
  notices : s.noticesGo
  floor : s.floorRoom 1

theorem State.stopsFor.cellOfTop {reg : Registration} {r : Run} {l : Lot} (h : s.stopsFor c reg r l) :
    s.cellOfTop r.handle = some c := State.cellOfTop_eq_some h.lt (by rw [h.top]; rfl) h.first

theorem State.stopsFor.requestStop {reg : Registration} {r : Run} {l : Lot} (h : s.stopsFor c reg r l) (reason : StopReason) :
    s.requestStop c reason = s.stopRequested reg c r reason := by
  have htop := h.top
  cases hstack : (s.cell c).stack with
  | nil =>
    rw [hstack] at htop
    cases htop
  | cons r' below =>
    rw [hstack] at htop
    obtain rfl : r' = r := Option.some.inj htop
    exact State.requestStop_of_room h.fits h.state h.reg hstack h.floor reason

/-- A hold of a reason that the running lot has none of (R131 to R133). -/
theorem State.placeHold_stops {reg : Registration} {r : Run} {l : Lot} (h : s.stopsFor c reg r l)
    (hl : s.lot? r.handle = some l)
    {reason : HoldReason} (hnone : ∀ e ∈ l.holds, e.reason ≠ reason) (hroom : s.plantRoom 1) (kinds : List Trip) :
    s.placeHold r.handle ⟨reason, .ygd, kinds, none⟩ =
      (s.heldFor r.handle l reason .ygd kinds .running).stopRequested reg c r (stopReasonOf reason) := by
  have hadd := State.addHold_heldNotice hl (n := ⟨reason, .ygd, kinds, none⟩) hnone
    (s.stateAfterHold r.handle) h.notices hroom
  have hheld : (s.heldFor r.handle l reason .ygd kinds .running).stopsFor c reg r
      (l.heldBy ⟨reason, s.now, .ygd, kinds, 1, none⟩) :=
    ⟨h.lt, h.fits, h.reg, h.top, h.first, h.state, h.running, h.notices, h.floor⟩
  have hlot : (s.heldFor r.handle l reason .ygd kinds .running).lot? r.handle =
      some (l.heldBy ⟨reason, s.now, .ygd, kinds, 1, none⟩) := State.lot?_heldFor hl _ _ _ _
  rw [State.stateAfterHold_running hl h.running] at hadd
  unfold State.placeHold
  dsimp only
  rw [State.isNewHold_of_lot hl, Lot.hasHold_eq_false hnone, Bool.not_false, if_pos rfl,
    State.stateAfterHold_running hl h.running]
  refine (congrArg (fun v : State => v.holdEffect r.handle reason) hadd).trans ?_
  exact (State.holdEffect_running hlot h.running hheld.cellOfTop reason).trans (hheld.requestStop _)

theorem State.lot?_stopRequested {h : Nat} (reg : Registration) (c : Nat) (r : Run) (reason : StopReason) :
    (s.stopRequested reg c r reason).lot? h = s.lot? h := rfl

/-- A stop requested leaves what a frame needs to be sent on. -/
theorem State.sendsOn_stopRequested (h : s.sendsOn u) (reg : Registration) (c : Nat) (r : Run) (reason : StopReason) :
    s.sendsOn (u.stopRequested reg c r reason) := h

/-! ### A site demoted -/

/-- A site that leaves the enabled set (R55). -/
theorem State.demote_of_room {reg : Registration} {site h inst : Nat} (hc : c < 48)
    (henabled : (s.cell c).enabled.getLsbD site = true)
    (hreg : s.reg? c = some reg) (hfloor : s.floorRoom 1) (hgo : s.noticesGo) (hroom : s.plantRoom 1) {left : Mask16}
    (hleft : maskRemove (s.cell c).enabled site = left) : s.demote c site h inst =
      ((((s.modCell c fun x => { x with enabled := left, reportPending := true }).sendsFloor
        [s.orderFrame reg c none (.siteMask left)]).notifies (.siteDemoted c site left h inst)).event .siteDemoted c) := by
  have hmod : (s.modCell c fun x => { x with enabled := maskRemove x.enabled site, reportPending := true }) =
      s.modCell c fun x => { x with enabled := left, reportPending := true } := State.modCell_congr (by rw [hleft])
  obtain ⟨v, hv⟩ : ∃ v, (s.modCell c fun x => { x with enabled := left, reportPending := true }) = v := ⟨_, rfl⟩
  have hcell : (v.cell c).enabled = left := by rw [← hv, State.cell_modCell hc]
  have horder : v.order c none (.siteMask left) = v.sendsFloor [v.orderFrame reg c none (.siteMask left)] :=
    State.order_of_room (by rw [← hv]; exact hreg) (by rw [← hv]; exact hfloor) _ _
  have hcell' : ((v.sendsFloor [v.orderFrame reg c none (.siteMask left)]).cell c).enabled = left := hcell
  have hgo' : (v.sendsFloor [v.orderFrame reg c none (.siteMask left)]).noticesGo := by rw [← hv]; exact hgo
  have hroom' : (v.sendsFloor [v.orderFrame reg c none (.siteMask left)]).plantRoom 1 := by rw [← hv]; exact hroom
  have hframe : v.orderFrame reg c none (.siteMask left) = s.orderFrame reg c none (.siteMask left) := by rw [← hv]; rfl
  unfold State.demote
  dsimp only
  rw [if_pos henabled, hmod, hv, hcell, horder, hcell', State.notice_of_go hgo' hroom', hframe]

/-! ### A record counted -/

/-- The accumulators after a first-pass record of a run (R110). -/
def State.firstCounted (s : State) (c : Nat) (r : Run) (l : Lot) (site soft hard : Byte) : Acc :=
  countFirst l.acc (s.profileOf (s.runStep r)) (s.mapped r soft) site.toNat hard.toNat r.segOpen
    ((s.cell c).enabled.getLsbD site.toNat)

/-- The site kinds of a first-pass record (R116). -/
def State.firstSites (s : State) (c : Nat) (r : Run) (a : Acc) (site soft : Byte) : List Trip :=
  if r.segOpen && (s.cell c).enabled.getLsbD site.toNat then
    siteTrips (s.profileOf (s.runStep r)) a (s.mapped r soft).cls site.toNat
  else []

theorem State.guardRecord_first {r : Run} {l : Lot} (hl : s.lot? r.handle = some l) (hpass : r.pass = .first)
    {site soft hard : Byte}
    {a : Acc} (ha : s.firstCounted c r l site soft hard = a) : s.guardRecord c r site.toNat soft.toNat hard.toNat =
      (s.setLot r.handle { l with acc := a }).handTrips c r (s.profileOf (s.runStep r)) site.toNat
        (lotWideTrips (s.profileOf (s.runStep r)) a) (s.firstSites c r a site soft) := by
  have hcounted : (s.modAcc r.handle fun a => countFirst a (s.profileOf (s.runStep r))
      (mapBin (s.binMapOf (s.runStep r)) soft.toNat) site.toNat hard.toNat r.segOpen
      ((s.cell c).enabled.getLsbD site.toNat)) = s.setLot r.handle { l with acc := a } := by
    rw [← ha]
    exact State.modLot_of_lot hl _
  unfold State.guardRecord
  dsimp only
  rw [hpass]
  dsimp only
  rw [hcounted, State.lot?_setLot hl]
  rfl

theorem State.guardRecord_retest {r : Run} {l : Lot} (hl : s.lot? r.handle = some l) (hpass : r.pass = .retest)
    {site soft hard : Byte} {a : Acc} (ha : countRetest l.acc (s.mapped r soft) hard.toNat = a) :
    s.guardRecord c r site.toNat soft.toNat hard.toNat =
      (s.setLot r.handle { l with acc := a }).handTrips c r (s.profileOf (s.runStep r)) site.toNat
        (retestTrips (s.profileOf (s.runStep r)) a) [] := by
  have hcounted : (s.modAcc r.handle fun a => countRetest a (mapBin (s.binMapOf (s.runStep r)) soft.toNat) hard.toNat) =
      s.setLot r.handle { l with acc := a } := by
    rw [← ha]
    exact State.modLot_of_lot hl _
  unfold State.guardRecord
  dsimp only
  rw [hpass]
  dsimp only
  rw [hcounted, State.lot?_setLot hl]

/-- A record is counted, with all it does beside BIN_COUNTED and the frame leaving `u` (R100). -/
def State.countsAs (s : State) (c : Nat) (r : Run) (site soft hard : Byte) (u : State) : Prop :=
  s.countRecord c r site.toNat soft.toNat hard.toNat = u.event .binCounted site.toNat ∧ s.sendsOn u

section

variable {r : Run} {l : Lot} {site soft hard : Byte} {a : Acc} {p : Profile} {kinds : List Trip}

theorem State.countsAs_of_guard (hguard : s.guardRecord c r site.toNat soft.toNat hard.toNat = t)
    (hmark : (t.modLot r.handle fun l => { l with mark := true }) = u) (hsends : s.sendsOn u) :
    s.countsAs c r site soft hard u := by
  refine ⟨?_, hsends⟩
  unfold State.countRecord
  rw [hguard]
  exact congrArg (fun v : State => v.event .binCounted site.toNat) hmark

/-- A lot whose mark is set has nothing to mark (R16). -/
theorem State.mark_of_marked {h : Nat} (hl : s.lot? h = some l) (hmark : l.mark = true) :
    (s.modLot h fun l => { l with mark := true }) = s := by
  rw [State.modLot_of_lot hl]
  obtain ⟨⟩ := l
  subst hmark
  exact State.setLot_self hl

/-! What is done with the kinds a record trips (R117, R118). -/

theorem State.handTrips_guard {v : State} (hkinds : kinds ≠ []) : v.handTrips c r p site.toNat kinds [] =
    (v.recordTrips r.handle kinds).placeHold r.handle ⟨.guard, .ygd, kinds, none⟩ := by
  unfold State.handTrips
  dsimp only
  rw [List.append_nil, if_neg (by simpa using hkinds)]
  rfl

theorem State.handTrips_site {v : State} (hkinds : kinds ≠ []) : v.handTrips c r p site.toNat [] kinds =
    if p.minSites + 1 ≤ maskCount ((v.recordTrips r.handle kinds).cell c).enabled then
      (v.recordTrips r.handle kinds).demote c site.toNat r.handle r.inst
    else (v.recordTrips r.handle kinds).placeHold r.handle ⟨.site, .ygd, kinds, none⟩ := by
  unfold State.handTrips State.siteTrip
  dsimp only
  rw [List.nil_append, if_pos List.isEmpty_nil, if_neg (by simpa using hkinds)]

/-- The lot of a counted record with the kinds it trips (R117). -/
theorem State.recordTrips_counted (hl : s.lot? r.handle = some l) (kinds : List Trip) :
    (s.setLot r.handle { l with acc := a }).recordTrips r.handle kinds =
      (s.tripped kinds).setLot r.handle { l with acc := { a with trips := addTrips a.trips kinds } } := by
  rw [State.recordTrips_of_lot (State.lot?_setLot hl _)]
  refine (congrArg (fun v : State => v.setLot r.handle _) (State.foldl_event_setLot r.handle _ kinds)).trans ?_
  exact State.setLot_setLot ..

/-- No kind trips: the figures and the mark alone change (R110, R111). -/
theorem State.countsAs_quiet (hl : s.lot? r.handle = some l)
    (hguard : s.guardRecord c r site.toNat soft.toNat hard.toNat =
      (s.setLot r.handle { l with acc := a }).recordTrips r.handle []) (htaken : s.passTaken) (hroom : s.plantRoom 1) :
    s.countsAs c r site soft hard (s.setLot r.handle { l with mark := true, acc := a }) := by
  refine State.countsAs_of_guard (hguard.trans (State.recordTrips_counted hl [])) ?_ ⟨htaken, hroom, rfl⟩
  rw [State.modLot_of_lot (State.lot?_setLot (s := s.tripped []) hl _), State.setLot_setLot]
  rfl

theorem State.countsAs_of_placed {v : State} {k : Lot} {reg : Registration} {reason : HoldReason}
    (hguard : s.guardRecord c r site.toNat soft.toNat hard.toNat =
      (v.setLot r.handle k).placeHold r.handle ⟨reason, .ygd, kinds, none⟩) (hreason : stopReasonOf reason = .hold)
    (hl : v.lot? r.handle = some l) (hnone : ∀ e ∈ k.holds, e.reason ≠ reason) (hstops : v.stopsFor c reg r k)
    (hsends : s.sendsOn v) (hroom : v.plantRoom 2) :
    s.countsAs c r site soft hard ((v.heldFor r.handle k reason .ygd kinds .running).stopRequested reg c r .hold) := by
  obtain ⟨htaken, hone, htst⟩ := hsends
  have hstops' : (v.setLot r.handle k).stopsFor c reg r k :=
    ⟨hstops.lt, hstops.fits, hstops.reg, hstops.top, hstops.first, hstops.state, hstops.running, hstops.notices, hstops.floor⟩
  have hplace := State.placeHold_stops hstops' (State.lot?_setLot hl k) hnone hone kinds
  rw [State.heldFor_setLot, hreason] at hplace
  have hheld : ((v.heldFor r.handle k reason .ygd kinds .running).stopRequested reg c r .hold).lot? r.handle =
      some (k.heldBy ⟨reason, v.now, .ygd, kinds, 1, none⟩) :=
    (State.lot?_stopRequested reg c r .hold).trans (State.lot?_heldFor_of_lt (State.lt_of_lot? hl) k _ _ _ _)
  exact State.countsAs_of_guard (hguard.trans hplace) (State.mark_of_marked hheld rfl)
    (State.sendsOn_stopRequested (u := v.heldFor r.handle k reason .ygd kinds .running)
      ⟨htaken, State.plantRoom_heldFor hroom, htst⟩ reg c r .hold)

/-- Kinds of a RUNNING lot that make one hold, which requests a stop (R117, R118). -/
theorem State.countsAs_hold {reg : Registration} {reason : HoldReason} (hl : s.lot? r.handle = some l)
    (hguard : s.guardRecord c r site.toNat soft.toNat hard.toNat =
      ((s.setLot r.handle { l with acc := a }).recordTrips r.handle kinds).placeHold r.handle ⟨reason, .ygd, kinds, none⟩)
    (hreason : stopReasonOf reason = .hold) (hnone : ∀ e ∈ l.holds, e.reason ≠ reason) (hstops : s.stopsFor c reg r l)
    (htaken : s.passTaken) (hroom : s.plantRoom 2) : s.countsAs c r site soft hard (((s.tripped kinds).heldFor r.handle
      { l with acc := { a with trips := addTrips a.trips kinds } } reason .ygd kinds .running).stopRequested reg
        c r .hold) := by
  obtain ⟨f, hf⟩ := s.tripped_eq kinds
  rw [State.recordTrips_counted hl] at hguard
  refine State.countsAs_of_placed (l := l) hguard hreason ?_ hnone ?_ ?_ ?_
  · rw [hf]
    exact hl
  · rw [hf]
    exact ⟨hstops.lt, hstops.fits, hstops.reg, hstops.top, hstops.first, hstops.state, hstops.running, hstops.notices,
      hstops.floor⟩
  · rw [hf]
    exact ⟨htaken, State.plantRoom_mono hroom (by omega), rfl⟩
  · rw [hf]
    exact hroom

/-- Site kinds that take the site out of the enabled set (R55, R118). -/
theorem State.countsAs_demote {reg : Registration} {left : Mask16} (hl : s.lot? r.handle = some l)
    (hguard : s.guardRecord c r site.toNat soft.toNat hard.toNat =
      ((s.setLot r.handle { l with acc := a }).recordTrips r.handle kinds).demote c site.toNat r.handle r.inst)
    (hc : c < 48) (hreg : s.reg? c = some reg) (henabled : (s.cell c).enabled.getLsbD site.toNat = true)
    (hleft : maskRemove (s.cell c).enabled site.toNat = left) (hgo : s.noticesGo) (hfloor : s.floorRoom 1)
    (htaken : s.passTaken) (hroom : s.plantRoom 2) : s.countsAs c r site soft hard ((((((s.tripped kinds).setLot r.handle
      { l with mark := true, acc := { a with trips := addTrips a.trips kinds } }).modCell c fun x =>
        { x with enabled := left, reportPending := true }).sendsFloor [s.orderFrame reg c none (.siteMask left)]).notifies
          (.siteDemoted c site.toNat left r.handle r.inst)).event .siteDemoted c) := by
  rw [State.recordTrips_counted hl] at hguard
  obtain ⟨b, hb⟩ : ∃ b : Acc, { a with trips := addTrips a.trips kinds } = b := ⟨_, rfl⟩
  obtain ⟨f, hf⟩ := s.tripped_eq kinds
  obtain ⟨v, hv⟩ : ∃ v, s.tripped kinds = v := ⟨_, rfl⟩
  rw [hb, hv] at hguard
  rw [hb, hv]
  rw [hv] at hf
  have hlive : v.lot? r.handle = some l := by rw [hf]; exact hl
  have hframe : v.orderFrame reg c none (.siteMask left) = s.orderFrame reg c none (.siteMask left) := by rw [hf]; rfl
  have hdemote := State.demote_of_room (s := v.setLot r.handle { l with acc := b }) (reg := reg) (site := site.toNat)
    (h := r.handle) (inst := r.inst) hc (by rw [hf]; exact henabled) (by rw [hf]; exact hreg) (by rw [hf]; exact hfloor)
    (by rw [hf]; exact hgo) (by rw [hf]; exact State.plantRoom_mono hroom (by omega)) (left := left) (by rw [hf]; exact hleft)
  refine State.countsAs_of_guard (hguard.trans hdemote) ?_ ⟨?_, ?_, ?_⟩
  · have hmarked := State.modLot_of_lot (State.lot?_setLot hlive { l with acc := b }) fun l => { l with mark := true }
    rw [State.setLot_setLot] at hmarked
    rw [← hframe]
    exact congrArg (fun w : State => ((((w.modCell c fun x => { x with enabled := left, reportPending := true }).sendsFloor
      [v.orderFrame reg c none (.siteMask left)]).notifies (.siteDemoted c site.toNat left r.handle r.inst)).event
        .siteDemoted c)) hmarked
  · rw [hf]
    exact htaken
  · refine State.plantRoom_succ (s := { v with pcl := { v.pcl with
      noticeSeq := (v.pcl.noticeSeq + 1) % 65536, floorQ := _ } }) ?_ _
    rw [hf]
    exact hroom
  · rw [hf]
    rfl

end

end Sys2Proof.Machine
end

section
/-! The bin stream's frames: first-pass and retest records counted, OVERCOUNT, and the statements about bin records
(R98 to R119). -/

namespace Sys2Proof.Machine

set_option Elab.async false

variable {s t u : State} {c : Nat}

section

variable {m : Msg} {reg : Registration} {l : Lot} {r : Run} {p site soft hard stream stay sequence sub : Byte}

/-- A full record of the cell's top run that its checks 6 to 9 pass (R99). -/
theorem State.binChecks_takes (hknows : s.knowsCell m reg) (hlot : s.namesLot m l) (hnamed : r.namedBy m) {b : BinBody}
    (hpass : b.pass = r.pass) (htakes : s.takesRecord m.cell.toNat ⟨r.handle, r.inst, r.step, r.pass⟩ b.site r) :
    s.binChecks m b = if Machine.passFull l.acc r.pass then .overcount else .counted := by
  obtain ⟨hhandle, hinst, hstep⟩ := hnamed
  rw [State.binChecks_found hknows hlot, ← hhandle, ← hinst, ← hstep, hpass]
  exact State.runChecks_of_takes htakes (by rw [hhandle]; exact State.lot?_of_namesLot hlot)

/-- A counted full record (R100, R103, R105). -/
theorem exec_bin_counted (h : s.takes) (hknows : s.knowsCell m reg) (hlot : s.namesLot m l) (hnamed : r.namedBy m)
    (hbody : m.body = [p, site, soft, hard, stream, sequence, sub]) (hpass : readPass p.toNat = some r.pass)
    (hsite : site.toNat ≤ 15) (hhard : hard.toNat ≤ 15)
    (htakes : s.takesRecord m.cell.toNat ⟨r.handle, r.inst, r.step, r.pass⟩ site.toNat r) (hfull : ¬r.passFull l.acc)
    (hcounts : s.countsAs m.cell.toNat r site soft hard u) : exec (.bin m) s =
      .next (((u.event .binCounted site.toNat).afterBin m.cell.toNat stream (some r)).sendsPlant
        [forwardedFrame s Kind.bin m ([p, site, soft, hard, stream] ++ (s.mapped r soft).note .counted)]) := by
  obtain ⟨hcount, hsends⟩ := hcounts
  have hd : s.binChecks m ⟨r.pass, site.toNat, soft.toNat, hard.toNat, stream != 0⟩ = .counted :=
    (State.binChecks_takes hknows hlot hnamed rfl htakes).trans (if_neg (mt Run.passFull_iff.mp hfull))
  have htake := State.takeBin_of_read hbody hpass hsite hhard hd
  rw [if_neg (by nofun), State.settleRecord_counted htakes.2.1, hcount, State.annotation_mapped rfl htakes.2.1,
    State.stream_counted rfl hnamed rfl] at htake
  have hevent : s.sendsOn (u.event .binCounted site.toNat) := hsends
  exact exec_bin h (hevent.afterBin stream) htake

/-- A counted record of a compact frame of one (R104, R105). -/
theorem exec_compact_counted (h : s.takes) (hknows : s.knowsCell m reg) (hl : s.lot? r.handle = some l)
    (hctx : (s.cell m.cell.toNat).ctx = some ⟨r.handle, r.inst, r.step, r.pass⟩)
    (hbody : m.body = [1, site, soft, hard, stay, sequence, sub]) (hsite : site.toNat ≤ 15) (hhard : hard.toNat ≤ 15)
    (htakes : s.takesRecord m.cell.toNat ⟨r.handle, r.inst, r.step, r.pass⟩ site.toNat r) (hfull : ¬r.passFull l.acc)
    (hcounts : s.countsAs m.cell.toNat r site soft hard u) : exec (.binCompact m) s =
      .next ((if stay = 0 then (u.event .binCounted site.toNat).modCell m.cell.toNat fun x => { x with ctx := none }
        else u.event .binCounted site.toNat).sendsPlant
        [forwardedFrame s Kind.binCompact m ([1, site, soft, hard, stay] ++ (s.mapped r soft).note .counted)]) := by
  obtain ⟨hcount, hsends⟩ := hcounts
  have hrun : s.runChecks m.cell.toNat ⟨r.handle, r.inst, r.step, r.pass⟩ site.toNat = .counted :=
    (State.runChecks_of_takes htakes hl).trans (if_neg (mt Run.passFull_iff.mp hfull))
  have hd := (State.compactCheck_of_ctx (x := ⟨site, soft, hard, stay⟩) (ended := false) hsite hhard hctx).trans hrun
  have htake := State.takeCompact_one hbody hknows.check hd
  rw [State.settleRecord_counted htakes.2.1, hcount, State.annotation_mapped rfl htakes.2.1] at htake
  dsimp only at htake
  rw [if_congr (and_iff_right (by nofun)) rfl rfl] at htake
  refine exec_compact h ?_ htake
  split
  · exact hsends
  · exact hsends

/-- A record past the units of its pass (R99, R101). -/
theorem exec_bin_overcount (h : s.takes) (hknows : s.knowsCell m reg) (hlot : s.namesLot m l) (hnamed : r.namedBy m)
    (hbody : m.body = [p, site, soft, hard, stream, sequence, sub]) (hpass : readPass p.toNat = some r.pass)
    (hsite : site.toNat ≤ 15) (hhard : hard.toNat ≤ 15)
    (htakes : s.takesRecord m.cell.toNat ⟨r.handle, r.inst, r.step, r.pass⟩ site.toNat r) (hfull : r.passFull l.acc)
    (hover : s.overcount r.handle = u) (hsends : s.sendsOn u) : exec (.bin m) s =
      .next (((u.event .binDropped 10).afterBin m.cell.toNat stream none).sendsPlant
        [forwardedFrame s Kind.bin m ([p, site, soft, hard, stream] ++ (s.mapped r soft).note .overcount)]) := by
  have hd : s.binChecks m ⟨r.pass, site.toNat, soft.toNat, hard.toNat, stream != 0⟩ = .overcount :=
    (State.binChecks_takes hknows hlot hnamed rfl htakes).trans (if_pos (Run.passFull_iff.mpr hfull))
  have htake := State.takeBin_of_read hbody hpass hsite hhard hd
  rw [if_neg (by nofun), State.settleRecord_overcount htakes.2.1, hover, State.annotation_mapped rfl htakes.2.1,
    State.stream_dropped rfl (by nofun)] at htake
  have hevent : s.sendsOn (u.event .binDropped 10) := hsends
  exact exec_bin h (hevent.afterBin stream) htake

end

/-! ### First-pass records -/

theorem State.mem_firstSites {r : Run} {a : Acc} {site soft : Byte} {t : Trip} : t ∈ s.firstSites c r a site soft ↔
    r.segOpen = true ∧ (s.cell c).enabled.getLsbD site.toNat = true ∧
      tripsSite (s.profileOf (s.runStep r)) a (s.mapped r soft).cls site.toNat t := by
  unfold State.firstSites
  split
  · rename_i hboth
    obtain ⟨hopen, henabled⟩ := Bool.and_eq_true_iff.mp hboth
    rw [mem_siteTrips]
    exact ⟨fun ht => ⟨hopen, henabled, ht⟩, fun ht => ht.2.2⟩
  · rename_i hnot
    refine ⟨nofun, fun ⟨hopen, henabled, _⟩ => absurd ?_ hnot⟩
    rw [hopen, henabled]
    rfl

theorem State.nodup_firstSites {r : Run} {a : Acc} {site soft : Byte} : (s.firstSites c r a site soft).Nodup := by
  unfold State.firstSites
  split
  · exact nodup_siteTrips _ _ _ _
  · exact List.nodup_nil

theorem firstPassCounted : Sys2Proof.Claims.firstPassCounted := by
  intro m reg l r below site soft hard s h htaken hknows hl hinst hpass c x p mapped enabled hstack htakes hsite hhard hfull
  have htakes' : s.takesRecord c ⟨r.handle, r.inst, r.step, r.pass⟩ site.toNat r := by rw [hpass]; exact htakes
  obtain ⟨a, ha⟩ : ∃ a, s.firstCounted c r l site soft hard = a := ⟨_, rfl⟩
  have hguard := State.guardRecord_first hl hpass ha
  refine ⟨a, ha ▸ countFirst_counts _ _ _ _ _ _ _, ?_⟩
  intro siteKind answers tripped kept stops
  have hanswers : ∀ u, s.countsAs c r site soft hard u → answers u := fun u hu =>
    ⟨fun stream sequence sub hlot hnamed hbody =>
      exec_bin_counted h hknows hlot hnamed hbody (by rw [hpass]; rfl) hsite hhard htakes' hfull hu,
    fun stay sequence sub hctx hbody =>
      exec_compact_counted h hknows hl (by rw [hpass]; exact hctx) hbody hsite hhard htakes' hfull hu⟩
  have hnoLot : (∀ t, ¬tripsLot p a t) → lotWideTrips p a = [] := fun hnone =>
    List.eq_nil_iff_forall_not_mem.mpr fun t ht => hnone t (mem_lotWideTrips.mp ht)
  have hnoSite : (∀ t, ¬siteKind t) → s.firstSites c r a site soft = [] := fun hnone =>
    List.eq_nil_iff_forall_not_mem.mpr fun t ht => hnone t (State.mem_firstSites.mp ht)
  have hkept : ∀ kinds, kept kinds (addTrips a.trips kinds) := fun kinds t => mem_addTrips
  have hstopsFor : stops → s.stopsFor c reg r l ∧ s.plantRoom 2 :=
    fun ⟨hrunning, hstate, hgo, hroom, hfloor, hfits, hfirst⟩ =>
    ⟨⟨hknows.lt, (hfits c hknows.lt).2, hknows.reg, htakes.2.1, hfirst, .inr hstate, hrunning, hgo, hfloor⟩, hroom⟩
  refine ⟨fun hlot hsites hroom => hanswers _ ?_, fun ⟨t, ht⟩ hsites hnone hstops => ?_,
    fun hlot ⟨t, ht⟩ hstops => ?_⟩
  · rw [hnoLot hlot, hnoSite hsites] at hguard
    exact State.countsAs_quiet hl hguard htaken hroom
  · obtain ⟨hfor, hroom⟩ := hstopsFor hstops
    have hkinds : lotWideTrips p a ≠ [] := List.ne_nil_of_mem (mem_lotWideTrips.mpr ht)
    rw [hnoSite hsites, State.handTrips_guard hkinds] at hguard
    exact ⟨lotWideTrips p a, _, fun t => mem_lotWideTrips, nodup_lotWideTrips p a, hkept _,
      hanswers _ (State.countsAs_hold hl hguard rfl hnone hfor htaken hroom)⟩
  · obtain ⟨hfor, hroom⟩ := hstopsFor hstops
    have hkinds : s.firstSites c r a site soft ≠ [] := List.ne_nil_of_mem (State.mem_firstSites.mpr ht)
    obtain ⟨f, hf⟩ := s.tripped_eq (s.firstSites c r a site soft)
    have hcell : ((s.setLot r.handle { l with acc := a }).recordTrips r.handle (s.firstSites c r a site soft)).cell c =
        s.cell c := by
      rw [State.recordTrips_counted hl, hf]
      rfl
    rw [hnoLot hlot, State.handTrips_site hkinds, hcell] at hguard
    refine ⟨s.firstSites c r a site soft, addTrips a.trips _, fun t => State.mem_firstSites, State.nodup_firstSites, hkept _,
      fun hmany => ?_, fun hfew hnone => ?_⟩
    · rw [if_pos hmany] at hguard
      exact ⟨_, fun i hi => getLsbD_maskRemove _ _ hi, hanswers _
        (State.countsAs_demote hl hguard hknows.lt hknows.reg ht.2.1 rfl
          hfor.notices hfor.floor htaken hroom)⟩
    · rw [if_neg (Nat.not_le.mpr hfew)] at hguard
      exact hanswers _ (State.countsAs_hold hl hguard rfl hnone hfor htaken hroom)

/-! ### Retest records -/

theorem retestTrips_eq (p : Profile) (a : Acc) : retestTrips p a =
    if p.mismatchLimit < a.mismatch ∧ Trip.binMismatch ∉ a.waived then [.binMismatch] else [] := by
  unfold retestTrips
  exact if_congr (by simp) rfl rfl

theorem retestCounted : Sys2Proof.Claims.retestCounted := by
  intro m reg l r below site soft hard stream sequence sub s h htaken hknows hlot hpass hbody hsite hhard c x p mapped
    hstack htakes hfull a answers
  obtain ⟨hcounts, htop, hctx, htakesSite⟩ := htakes
  obtain ⟨hhandle, hinst, hstep, -⟩ := Ctx.mk.inj hctx
  have hnamed : r.namedBy m := ⟨hhandle.symm, hinst.symm, hstep.symm⟩
  have htakes : s.takesRecord c ⟨r.handle, r.inst, r.step, r.pass⟩ site.toNat r := ⟨hcounts, htop, rfl, htakesSite⟩
  have hl : s.lot? r.handle = some l := by
    rw [← hhandle]
    exact State.lot?_of_namesLot hlot
  have hguard := State.guardRecord_retest (c := c) (site := site) (soft := soft) (hard := hard) (a := a) hl hpass
    (countRetest_eq l.acc mapped hard.toNat)
  have hanswers : ∀ u, s.countsAs c r site soft hard u → answers u := fun u hu =>
    exec_bin_counted h hknows hlot hnamed hbody (by rw [hpass]; rfl) hsite hhard htakes hfull hu
  rw [retestTrips_eq] at hguard
  refine ⟨fun hquiet hroom => hanswers _ ?_, fun hover hwaived hnone hrunning hstate hgo hroom hfloor hfits hfirst => ?_⟩
  · rw [if_neg fun hboth => hquiet.elim (fun hle => Nat.not_lt.mpr hle hboth.1) hboth.2] at hguard
    exact State.countsAs_quiet hl hguard htaken hroom
  · rw [if_pos ⟨hover, hwaived⟩, State.handTrips_guard (List.cons_ne_nil _ _)] at hguard
    have hfor : s.stopsFor c reg r l :=
      ⟨hknows.lt, (hfits c hknows.lt).2, hknows.reg, htop, hfirst, .inr hstate, hrunning, hgo, hfloor⟩
    exact ⟨addTrips a.trips [.binMismatch], fun t => mem_addTrips.trans (or_congr Iff.rfl List.mem_singleton),
      hanswers _ (State.countsAs_hold hl hguard rfl hnone hfor htaken hroom)⟩

/-! ### OVERCOUNT -/

/-- Merging a hold into a list that has one entry of its reason (R131). -/
theorem placeEntry_merge {before after : List HoldEntry} {e : HoldEntry} {n : NewHold} (he : e.reason = n.reason)
    (hnodup : ((before ++ e :: after).map HoldEntry.reason).Nodup) (now : Nat) :
    placeEntry (before ++ e :: after) n now = before ++ mergeHold e n :: after := by
  rw [List.map_append, List.map_cons] at hnodup
  obtain ⟨-, hafter, hdisjoint⟩ := List.nodup_append.mp hnodup
  have hkeeps : ∀ es : List HoldEntry, (∀ x ∈ es, x.reason ≠ e.reason) →
      (es.map fun x => if x.reason == n.reason then mergeHold x n else x) = es := fun es hes => by
    conv_rhs => rw [← List.map_id es]
    exact List.map_congr_left fun x hx => if_neg (by simpa [← he] using hes x hx)
  rw [placeEntry_present _ ⟨e, by simp, he⟩, List.map_append, List.map_cons, if_pos (by simp [he]),
    hkeeps before fun x hx => hdisjoint _ (List.mem_map_of_mem hx) _ List.mem_cons_self,
    hkeeps after fun x hx hreason => (List.nodup_cons.mp hafter).1 (hreason ▸ List.mem_map_of_mem hx)]

theorem overcountHolds : Sys2Proof.Claims.overcountHolds := by
  intro m reg l r below p site soft hard stream sequence sub s h htaken hknows hlot hfits hbody hpass hsite hhard c x
    hstack htakes hfull hrunning hfirst marked answers
  obtain ⟨hcounts, htop, hctx, htakesSite⟩ := htakes
  obtain ⟨hhandle, hinst, hstep, -⟩ := Ctx.mk.inj hctx
  have hnamed : r.namedBy m := ⟨hhandle.symm, hinst.symm, hstep.symm⟩
  have htakes : s.takesRecord c ⟨r.handle, r.inst, r.step, r.pass⟩ site.toNat r := ⟨hcounts, htop, rfl, htakesSite⟩
  have hl : s.lot? r.handle = some l := by
    rw [← hhandle]
    exact State.lot?_of_namesLot hlot
  have hlive := State.lot?_setLot hl marked
  have hanswers : ∀ u, s.overcount r.handle = u → s.sendsOn u → answers u := fun u hover hsends =>
    exec_bin_overcount h hknows hlot hnamed hbody hpass hsite hhard htakes hfull hover hsends
  have hover : s.overcount r.handle = (s.setLot r.handle marked).placeHold r.handle ⟨.quantity, .ygd, [], none⟩ :=
    congrArg (fun v : State => v.placeHold r.handle ⟨.quantity, .ygd, [], none⟩) (State.modLot_of_lot hl _)
  refine ⟨fun hstate hnone hgo hroom hfloor => ?_, fun before after e hstate hholds he hnodup hroom => ?_⟩
  · have hfor : (s.setLot r.handle marked).stopsFor c reg r marked :=
      ⟨hknows.lt, (hfits c hknows.lt).2, hknows.reg, htop, hfirst, .inr hstate, hrunning, hgo, hfloor⟩
    have hplace := State.placeHold_stops hfor hlive hnone (State.plantRoom_mono hroom (by omega)) []
    rw [State.heldFor_setLot] at hplace
    exact hanswers _ (hover.trans hplace)
      (State.sendsOn_stopRequested (u := s.heldFor r.handle marked .quantity .ygd [] .running)
      ⟨htaken, State.plantRoom_heldFor hroom, rfl⟩ reg c r .quantity)
  · have hpresent : marked.hasHold .quantity = true := Lot.hasHold_eq_true ⟨e, by simp [marked, hholds], he⟩
    have hmerge : placeEntry marked.holds ⟨.quantity, .ygd, [], none⟩ (s.setLot r.handle marked).now =
        before ++ { e with repeats := min 255 (e.repeats + 1) } :: after :=
      (congrArg (fun es => placeEntry es ⟨.quantity, .ygd, [], none⟩ s.now) hholds).trans
        (placeEntry_merge (n := ⟨.quantity, .ygd, [], none⟩) he (hholds ▸ hnodup) s.now)
    have hadd := State.addHold_of_lot hlive ⟨.quantity, .ygd, [], none⟩
    rw [hmerge, if_neg (by simp [marked, hholds]), State.setLot_setLot] at hadd
    obtain ⟨k, hk⟩ : ∃ k : Lot, { marked with
      mark := true, holds := before ++ { e with repeats := min 255 (e.repeats + 1) } :: after } = k := ⟨_, rfl⟩
    have hadd : (s.setLot r.handle marked).addHold r.handle ⟨.quantity, .ygd, [], none⟩ =
      (s.setLot r.handle k).event .holdPlaced 3 := hk ▸ hadd
    have hkState : k.state = .running := hk ▸ hrunning
    have hcell : s.cellOfTop r.handle = some c := State.cellOfTop_eq_some hknows.lt (by rw [htop]; rfl) hfirst
    have heffect := (State.holdEffect_running (s := (s.setLot r.handle k).event .holdPlaced 3) (State.lot?_setLot hl k) hkState
      hcell .quantity).trans (State.requestStop_of_stopping (s := (s.setLot r.handle k).event .holdPlaced 3) hstate _)
    have hplace : (s.setLot r.handle marked).placeHold r.handle ⟨.quantity, .ygd, [], none⟩ =
        (s.setLot r.handle k).event .holdPlaced 3 := by
      unfold State.placeHold
      dsimp only
      rw [State.isNewHold_of_lot hlive, hpresent, Bool.not_true, if_neg Bool.false_ne_true, hadd]
      exact heffect
    rw [hk]
    exact hanswers _ (hover.trans hplace) ⟨htaken, hroom, rfl⟩

/-- Settles O55. -/
theorem binRecordIsCounted : Obligations.BinRecordIsCounted :=
  ⟨firstPassCounted, retestCounted, fullRecordRefused, compactRecordRefused, overcountHolds⟩

end Sys2Proof.Machine
end
